-- ==== Sys2Proof/Word.lean ====
section
/-!
DEFINITION. The words of the machine and the one kind of finite map its state is made of.
-/
namespace Sys2Proof

/-- One byte. -/
abbrev Byte := BitVec 8
/-- A register of the management window (R467). -/
abbrev Word := BitVec 32
/-- A 64-bit word of lantern, deep and engine data memory. -/
abbrev DWord := BitVec 64
/-- A 48-bit physical address (R26). -/
abbrev PhysAddr := BitVec 48
/-- A 64-byte line; byte n stands in bits [8n+7:8n] (Table 06.2). -/
abbrev Line := BitVec 512
/-- A line's address: bits [47:6] of its physical address. -/
abbrev LineAddr := BitVec 42
/-- A management agent's ID (Table 19.4). -/
abbrev Agent := BitVec 8

/-- A finite map from numbers: a list of pairs with strictly rising keys (the operations on it stand in Machine/Map.lean). -/
abbrev KMap (α : Type) := List (Nat × α)

end Sys2Proof
end

