-- ==== Sys2Proof/Syntax.lean ====
section
/-!
DEFINITION. The commands of the block: one constructor of `Instr` per row of spec/opcode_table.json, with the row's
operands. The table gives no row any bits, so a command is known by its constructor alone.
-/
namespace Sys2Proof.Machine

/-- The status of a response or acknowledgement (Table 06.5). -/
inductive Status where
  | ok | busError | domainOff | poison
deriving DecidableEq, Repr

/-- When an access to a memory falls, against the previous access to that memory: in the same port cycle, in the next one, later (R41, R42). -/
inductive PortCycle where
  | same | next | later
deriving DecidableEq, Repr

/-- One access port of a block or deep memory (R39, R45): its die, whether it is a deep memory, the memory, port B or port A,
the word address, and the port cycle of the access. -/
structure MemPort where
  die : Fin 8
  deep : Bool
  mem : Fin 3072
  portB : Bool
  addr : Fin 16384
  cyc : PortCycle
deriving DecidableEq, Repr

/-- A pin with a boundary cell (R496): input, output and enable of a GPIO ball; the system pins; the straps (BOOT_SRC, OSC_DLY); the 158 balls of each of the DDR5
PHYs (R504) by channel and ball; the references; receivers and transmitters of the lanes and of the host lanes. -/
inductive BPin where
  | gpioIn (bank : Fin 12) (pin : Fin 48) | gpioOut (bank : Fin 12) (pin : Fin 48) | gpioEn (bank : Fin 12) (pin : Fin 48)
  | done | faultN | alertN | resetN | perstN | strap (i : Fin 5) | i2cScl | i2cSda | ddr (ch : Fin 4) (ball : Fin 158)
  | refA | refB | laneRx (l : Fin 192) | laneTx (l : Fin 192) | hostRx (l : Fin 16) | hostTx (l : Fin 16)
deriving DecidableEq, Repr

/-- A write presented at the other port in the same port cycle (R41). -/
structure MemWrite where
  be : BitVec 16
  data : BitVec 128
deriving DecidableEq, Repr

/-- The request types an end point may issue (Table 06.3, R160, R192). -/
inductive ReqType where
  | rd | wr | wrp | clean | flush | fence
deriving DecidableEq, Repr

/-- A request as an end point issues it (R26, R58, Table 02.7): address, length code, end point tag, data, byte enables and,
behind an attachment point that serves several requesters, which of them it is (a PCIe function, a link queue). -/
structure EpReq where
  addr : BitVec 64
  len : BitVec 3
  tag : BitVec 8
  data : Line
  be : BitVec 64
  who : BitVec 12
deriving DecidableEq, Repr

/-- An arithmetic slice: die, clock region, column of the region, slice of the column (Table 02.1, R76). -/
structure SliceId where
  die : Fin 8
  cr : Fin 16
  col : Fin 16
  j : Fin 16
deriving DecidableEq, Repr

/-- The inputs of a slice at one edge (Table 03.1), and CEXP_START of its column (R79). -/
structure SliceIn where
  ce : Bool
  a : BitVec 24
  d : BitVec 24
  b : BitVec 20
  c : BitVec 48
  op : BitVec 8
  cexpStart : Bool
deriving DecidableEq, Repr

/-- Where a slot instruction stands (R93, R97): the engine, the slot of the bundle, the guard bit and the guarding predicate. -/
structure Issue where
  eng : Fin 96
  slot : Fin 4
  guard : Bool
  pg : BitVec 3
deriving DecidableEq, Repr

/-- Format R. -/
structure FmtR where
  d : BitVec 5
  a : BitVec 5
  b : BitVec 5
  f : BitVec 7
deriving DecidableEq, Repr
/-- Format I. -/
structure FmtI where
  d : BitVec 5
  a : BitVec 5
  imm : BitVec 12
deriving DecidableEq, Repr
/-- Format L. -/
structure FmtL where
  d : BitVec 5
  imm : BitVec 17
deriving DecidableEq, Repr
/-- Format B. -/
structure FmtB where
  target : BitVec 12
  zero : BitVec 10
deriving DecidableEq, Repr
/-- Format P. -/
structure FmtP where
  i : BitVec 1
  count : BitVec 12
  len : BitVec 9
deriving DecidableEq, Repr
/-- Format M. -/
structure FmtM where
  v : BitVec 6
  base : BitVec 5
  off : BitVec 11
deriving DecidableEq, Repr
/-- Format T. -/
structure FmtT where
  v : BitVec 6
  k : BitVec 1
  n1 : BitVec 4
  b1 : BitVec 3
  zero : BitVec 8
deriving DecidableEq, Repr
/-- Format V. -/
structure FmtV where
  d : BitVec 6
  a : BitVec 6
  b : BitVec 6
  t : BitVec 1
  s : BitVec 1
  zero : BitVec 2
deriving DecidableEq, Repr
/-- Format K. -/
structure FmtK where
  ad : BitVec 3
  a : BitVec 6
  b : BitVec 6
  k : BitVec 5
  zero : BitVec 2
deriving DecidableEq, Repr
/-- Format N. -/
structure FmtN where
  d : BitVec 6
  aa : BitVec 3
  sh : BitVec 6
  s : BitVec 1
  o : BitVec 1
  zero : BitVec 5
deriving DecidableEq, Repr

/-- The class of a ring transaction: each class has its own tag pool (R147). -/
inductive TxnClass where
  | req | post | mgmt
deriving DecidableEq, Repr

/-- The name of a ring transaction: its source attachment point, its class and its ring tag (R147). -/
structure TxnKey where
  src : Fin 64
  cls : TxnClass
  tag : Fin 256
deriving DecidableEq, Repr

/-- A memory of a lantern (R28): the lantern's own, or an engine's data or program memory. -/
inductive LanMem where
  | lan (k : Fin 24)
  | data (e : Fin 96)
  | prog (e : Fin 96)
deriving DecidableEq, Repr

/-- An island whose clock a WICK can start or an idle close can stop (R366, R374). -/
inductive Island where
  | creg (die : Fin 8) (c : Fin 16)
  | lantern (k : Fin 24)
  | loop (l : Fin 64)
  | fdie (m : Fin 8) (b : Fin 32)
  | iface (stop : Fin 64) (ifc : Fin 4)
deriving DecidableEq, Repr

/-- A transmit coefficient of a lane (R286). -/
inductive Tap where
  | pre | main | post | other
deriving DecidableEq, Repr

/-- How a received FEC codeword decodes (R283). -/
inductive CodewordErr where
  | clean | corrected | uncorrectable
deriving DecidableEq, Repr

/-- A host memory request through a BAR (R307): write or read, byte offset in the BAR, bytes to read, bytes to write (none: not enabled),
relaxed ordering, and its PCIe tag. -/
structure HostReq where
  wr : Bool
  off : BitVec 40
  len : BitVec 13
  data : List (Option (BitVec 8))
  ro : Bool
  tag : BitVec 10
deriving DecidableEq, Repr

/-- A configuration request (R305, R309, R382): a read, or a write of NumVFs, of the command register's Memory Space and Bus Master Enable, or
of MSI-X Enable and Function Mask. -/
inductive CfgReq where
  | read | numVfs (n : BitVec 16) | command (memEn busMaster : Bool) | msix (enable mask : Bool)
deriving DecidableEq, Repr

/-- A word of an in-package link received with an error (R315 to R317); `out`: from the mantle to the fabric die; `header`: the word covers
header or control fields. -/
inductive CrossWord where
  | xng (die : Fin 8) (kind : BitVec 2) (src : Fin 8) (group : BitVec 6) (word : BitVec 4) (syn : BitVec 8) (dbe : Bool)
  | bond (die : Fin 8) (out : Bool) (ifkind : BitVec 4) (index : BitVec 4) (syn : BitVec 8) (dbe : Bool) (header : Bool)
deriving DecidableEq, Repr

/-- A HELLO frame (Table 14.3): the sender's serial and span, its best-known claimant with its priority, and the sender's node ID, if it
holds one. -/
structure Hello where
  serial : BitVec 64
  span : Byte
  claimant : BitVec 64
  priority : Byte
  node : BitVec 14
  idValid : Bool
deriving DecidableEq, Repr

/-- A CLAIM of the election (R346). -/
structure Claim where
  priority : Byte
  serial : BitVec 64
deriving DecidableEq, Repr

/-- A BEACON (R347, R348). -/
structure Beacon where
  priority : Byte
  serial : BitVec 64
  node : BitVec 14
  epoch : BitVec 24
  count : BitVec 32
deriving DecidableEq, Repr

/-- A REPORT or JOIN frame (Table 14.3): the reporter's serial, its neighbour's serial, the two span numbers, the reporter's current ID. -/
structure Report where
  serial : BitVec 64
  nbr : BitVec 64
  span : Byte
  nbrSpan : Byte
  id : BitVec 14
  idValid : Bool
deriving DecidableEq, Repr

/-- A clock that a monitor watches (R361). -/
inductive ClockSrc where
  | osc | refA | refB | recov (j : Fin 8) | sysref
deriving DecidableEq, Repr

/-- A unit that self-test tests (Table 01.3). -/
inductive TestUnit where
  | pair (p : Fin 2) | essential (n : BitVec 4) | die (m : Fin 8) | dcache (m : Fin 8) | lantern (k : Fin 24)
  | quad (q : Fin 48) | hbm (s : Fin 4) | ddr (c : Fin 4) | scrub (k : Fin 8) | check (k : Fin 16) | nv | host | ucie (u : Fin 4)
deriving DecidableEq, Repr

/-- A failure that memory self-test finds (R492): the failing array's soft-repair entry and whether a spare was applied. -/
structure MemFail where
  bits : BitVec 64
  spare : Bool
deriving DecidableEq, Repr

/-- A supply rail with a brown-out detector (R408). -/
inductive Rail where
  | core | fab (m : Fin 8) | other (n : BitVec 8)
deriving DecidableEq, Repr

/-- A standard USB request (R478). -/
inductive UsbStd where
  | setAddress (a : BitVec 7) | setConfiguration (c : Byte) | getDescriptor (kind : Byte) (len : BitVec 16)
  | getStatus | getConfiguration | other (bm breq : Byte)
deriving DecidableEq, Repr


end Sys2Proof.Machine

namespace Sys2Proof
open Machine

/-- The commands. -/
inductive Instr where
  /-- REGISTER_WRITE (R11): A write to a register that has no row of its own acts on its fields as their access codes give. -/
  | registerWrite (agent : Agent) (page : BitVec 13) (off : BitVec 12) (be : BitVec 4) (v : BitVec 32)
  /-- LO_REGISTER_READ (R469): A read of the LO register of a 64-bit pair records HI for the reading agent's next HI read. -/
  | loRegisterRead (agent : Agent) (page : BitVec 13) (off : BitVec 12)
  /-- PAGE_ACCESS_TIMEOUT (R470): A page that has not answered an access within 100 µs gives BUS_ERROR to the path. -/
  | pageAccessTimeout (agent : Agent) (page : BitVec 13)
  /-- SOFT_RESET (R463): A write of PG_CTRL.SOFT_RESET = 1 performs block soft reset where SRST = 1: an engine reset (R135) or a lane reset
  (R311). -/
  | softReset (agent : Agent) (page : BitVec 13)
  /-- TRB_CLR (R459): A write of 1 to TRB_CLR sets all eight trouble counters of the page to 0. -/
  | trbClr (agent : Agent) (page : BitVec 13)
  /-- ACQUIRE (R472): PG_LOCK.CMD = ACQUIRE grants a free page lock to the writer. -/
  | acquire (agent : Agent) (page : BitVec 13)
  /-- RELEASE (R472): PG_LOCK.CMD = RELEASE by the holder frees the lock and clears BROKEN. -/
  | release (agent : Agent) (page : BitVec 13)
  /-- CLR_BROKEN (R472): PG_LOCK.CMD = CLR_BROKEN by the holder clears BROKEN. -/
  | clrBroken (agent : Agent) (page : BitVec 13)
  /-- BLOCK_MEMORY_READ (R43): A fabric read of a block or deep memory word checks its codeword, corrects a single-bit error and flags a
  double-bit error. -/
  | blockMemoryRead (p : MemPort)
  /-- BLOCK_MEMORY_WRITE (R41): A fabric write to a block or deep memory word, with read-first and port-A-wins collision outcomes. -/
  | blockMemoryWrite (p : MemPort) (be : BitVec 16) (data : BitVec 128) (other : Option MemWrite)
  /-- CORRECTED_WORD_WRITE_BACK (R44): A corrected block or deep memory word is written back in the next idle port cycle unless a user write
  reaches it first. -/
  | correctedWordWriteBack (p : MemPort)
  /-- FABRIC_PORT_REQUEST (R58): A ring port accepts a REQ transfer from the fabric against a reserved response slot, refusing a duplicate
  tag. -/
  | fabricPortRequest (port : Fin 64) (typ : ReqType) (r : EpReq)
  /-- TARGET_RESPONSE (R61): The fabric returns RSP for a target-mode request; a late RSP after the timeout is discarded and counted. -/
  | targetResponse (port : Fin 64) (tag : BitVec 8) (status : Status) (data : Line)
  /-- TARGET_TIMEOUT (R61): Expiry of TGT_TIMEOUT without RSP sends BUS_ERROR to the requester and counts in TRB1. -/
  | targetTimeout (port : Fin 64) (tag : BitVec 8)
  /-- RESPONSE_ACCEPT (R58): The fabric accepts a held response on RSP, freeing its response slot. -/
  | responseAccept (port : Fin 64)
  /-- SLICE_OPERATION (R70): An arithmetic slice samples operands and OPMODE and carries them through pre-adder, multiplier, P stage and
  narrowing. -/
  | sliceOperation (sl : SliceId) (ins : SliceIn)
  /-- SLICE_RESET (R82): A synchronous RST clears the slice pipeline registers, OVF, WRAP and LSC. -/
  | sliceReset (sl : SliceId) (ins : SliceIn)
  /-- NOP (R99): A NOP in any slot does nothing. -/
  | nop (x : Issue)
  /-- ADD (R99): Sd = Sa + Sb modulo 2^32. -/
  | add (x : Issue) (f : FmtR)
  /-- SUB (R99): Sd = Sa − Sb modulo 2^32. -/
  | sub (x : Issue) (f : FmtR)
  /-- AND (R99): Sd = Sa AND Sb. -/
  | andR (x : Issue) (f : FmtR)
  /-- OR (R99): Sd = Sa OR Sb. -/
  | orR (x : Issue) (f : FmtR)
  /-- XOR (R99): Sd = Sa XOR Sb. -/
  | xorR (x : Issue) (f : FmtR)
  /-- SHL (R99): Sd = Sa shifted left by Sb[4:0]. -/
  | shl (x : Issue) (f : FmtR)
  /-- SHR (R99): Sd = Sa shifted right logically by Sb[4:0]. -/
  | shr (x : Issue) (f : FmtR)
  /-- SRA (R99): Sd = Sa shifted right arithmetically by Sb[4:0]. -/
  | sra (x : Issue) (f : FmtR)
  /-- MUL (R99): Sd = low 32 bits of Sa × Sb. -/
  | mul (x : Issue) (f : FmtR)
  /-- ADDI (R99): Sd = Sa + a signed immediate. -/
  | addi (x : Issue) (f : FmtI)
  /-- MOVI (R99): Sd = a sign-extended immediate. -/
  | movi (x : Issue) (f : FmtL)
  /-- MOVH (R99): Sd[31:16] = a 16-bit immediate, keeping Sd[15:0]. -/
  | movh (x : Issue) (f : FmtL)
  /-- CMP (R99): Pd = the comparison of Sa and Sb selected by F. -/
  | cmp (x : Issue) (f : FmtR)
  /-- POP (R99): Predicate operation selected by F on Pa and Pb into Pd. -/
  | pop (x : Issue) (f : FmtR)
  /-- SETE (R99): Ed = an immediate exponent. -/
  | sete (x : Issue) (f : FmtI)
  /-- EADD (R99): Ed = Ea + imm, clamped to −128..+127, setting ARG when clamped. -/
  | eadd (x : Issue) (f : FmtI)
  /-- EMIN (R99): Ed = min(Ea, Eb). -/
  | emin (x : Issue) (f : FmtR)
  /-- MFE (R99): Sd = Ea sign-extended. -/
  | mfe (x : Issue) (f : FmtR)
  /-- MTE (R99): Ed = Sa clamped to −128..+127, setting ARG when clamped. -/
  | mte (x : Issue) (f : FmtR)
  /-- MFSR (R89): Sd = special register imm; an unlisted number reads 0. -/
  | mfsr (x : Issue) (f : FmtI)
  /-- MTSR (R89): Writes Sa to a special register; a read-only or unlisted number sets STAT.ARG instead. -/
  | mtsr (x : Issue) (f : FmtI)
  /-- SETBX (R114): Writes Ea into BXk.BXN for the next block start. -/
  | setbx (x : Issue) (f : FmtR)
  /-- BR (R96): Branches to the target bundle after 2 dead cycles. -/
  | br (x : Issue) (f : FmtB)
  /-- CALL (R99): Writes the next bundle index into S31 and branches. -/
  | call (x : Issue) (f : FmtB)
  /-- RET (R99): Branches to S31[11:0]. -/
  | ret (x : Issue) (f : FmtR)
  /-- LOOP (R115): Starts a hardware loop of a counted number of passes over the next body bundles. -/
  | loop (x : Issue) (f : FmtP)
  /-- LOOPR (R117): Starts a rotating loop, setting LC, SG and the stage predicates. -/
  | loopr (x : Issue) (f : FmtP)
  /-- CLRRB (R99): Sets ROTB to 0. -/
  | clrrb (x : Issue) (f : FmtR)
  /-- HALT (R99): The engine halts after this bundle. -/
  | halt (x : Issue) (f : FmtR)
  /-- VLD (R100): Loads a vector from Sa + off × 64. -/
  | vld (x : Issue) (f : FmtM)
  /-- VLDI (R100): Loads a vector from Sa and post-increments Sa. -/
  | vldi (x : Issue) (f : FmtM)
  /-- VST (R100): Stores a vector at Sa + off × 64. -/
  | vst (x : Issue) (f : FmtM)
  /-- VSTI (R100): Stores a vector at Sa and post-increments Sa. -/
  | vsti (x : Issue) (f : FmtM)
  /-- LDW (R100): Loads a scalar word. -/
  | ldw (x : Issue) (f : FmtM)
  /-- STW (R100): Stores a scalar word. -/
  | stw (x : Issue) (f : FmtM)
  /-- SIN (R108): Takes the next beat of INk into Vv and its sideband into SBIk, stalling while the FIFO is empty. -/
  | sin (x : Issue) (f : FmtT)
  /-- SOUT (R108): Sends Vv as a beat on OUTk with its sideband, stalling without a free FIFO entry. -/
  | sout (x : Issue) (f : FmtT)
  /-- SHIFTIN (R109): Issues without waiting and starts taking b beats of INk for the window. -/
  | shiftin (x : Issue) (f : FmtT)
  /-- SHIFTIN_WINDOW_UPDATE (R109): When the last beat of a SHIFTIN has arrived, the window and SBIk are updated in one step. -/
  | shiftinWindowUpdate (e : Fin 96)
  /-- VADD (R101): Vd = Va + Vb narrowed per R102. -/
  | vadd (x : Issue) (f : FmtV)
  /-- VSUB (R101): Vd = Va − Vb narrowed per R102. -/
  | vsub (x : Issue) (f : FmtV)
  /-- VAND (R101): Bitwise AND of vectors. -/
  | vand (x : Issue) (f : FmtV)
  /-- VOR (R101): Bitwise OR of vectors. -/
  | vor (x : Issue) (f : FmtV)
  /-- VXOR (R101): Bitwise XOR of vectors. -/
  | vxor (x : Issue) (f : FmtV)
  /-- VMAX (R101): Per-element maximum. -/
  | vmax (x : Issue) (f : FmtV)
  /-- VMIN (R101): Per-element minimum. -/
  | vmin (x : Issue) (f : FmtV)
  /-- VSHL (R101): Shifts elements left by an immediate, narrowed per R102. -/
  | vshl (x : Issue) (f : FmtV)
  /-- VSRA (R101): Shifts elements right arithmetically by an immediate, truncating. -/
  | vsra (x : Issue) (f : FmtV)
  /-- VMUL (R101): Type H Q15 multiply, narrowed per R102. -/
  | vmul (x : Issue) (f : FmtV)
  /-- VBCST (R101): Broadcasts Sa into every element of Vd. -/
  | vbcst (x : Issue) (f : FmtV)
  /-- VNORM (R105): Writes each element's leading-sign count and the element shifted left by it. -/
  | vnorm (x : Issue) (f : FmtV)
  /-- VEXP (R105): Ed = the minimum leading-sign count over Va, optionally merged with Ed. -/
  | vexp (x : Issue) (f : FmtV)
  /-- AEXP (R105): Ed = the minimum leading-sign count over the accumulator elements of Aa. -/
  | aexp (x : Issue) (f : FmtV)
  /-- VSCALE (R105): Shifts each element by Eb, left with narrowing or right with truncation. -/
  | vscale (x : Issue) (f : FmtV)
  /-- VMAC (R101): Ad[i] += Va[i] × Vb[i]. -/
  | vmac (x : Issue) (f : FmtK)
  /-- VMPY (R101): Ad[i] = Va[i] × Vb[i]. -/
  | vmpy (x : Issue) (f : FmtK)
  /-- VMSUB (R101): Ad[i] −= Va[i] × Vb[i]. -/
  | vmsub (x : Issue) (f : FmtK)
  /-- VMACB (R101): Ad[i] += Va[i] × Vb[k]. -/
  | vmacb (x : Issue) (f : FmtK)
  /-- VFIR (R101): Accumulates one filter tap for 32 outputs from a window pair. -/
  | vfir (x : Issue) (f : FmtK)
  /-- ASET (R101): Sets every element of Ad to Sa sign-extended. -/
  | aset (x : Issue) (f : FmtV)
  /-- ACCOUT (R104): Shifts and narrows accumulator elements into Vd or as a beat on OUTk. -/
  | accout (x : Issue) (f : FmtN)
  /-- LOOP_BODY_END (R115): At the last body bundle a loop level decrements LCn and repeats, or ends. -/
  | loopBodyEnd (e : Fin 96)
  /-- ROTATING_PASS_END (R118): At the last bundle of a rotating body ROTB advances, P0 is fed and the loop repeats or ends. -/
  | rotatingPassEnd (e : Fin 96)
  /-- STALL_LIMIT_EXPIRY (R110): A stall lasting longer than STALL_LIMIT sets STAT.STALLTO and counts in TRB3. -/
  | stallLimitExpiry (e : Fin 96)
  /-- INPUT_BEAT (R106): A beat from the fabric enters an engine input FIFO. -/
  | inputBeat (e : Fin 96) (k : Fin 2) (data : Line) (sb : BitVec 24)
  /-- OUTPUT_BEAT (R106): A beat leaves an engine output FIFO to the fabric. -/
  | outputBeat (e : Fin 96) (k : Fin 2)
  /-- RING_ACCESS_STARVATION (R92): A ring access waiting 64 engine cycles makes the engine hold its next bundle for one cycle. -/
  | ringAccessStarvation (e : Fin 96)
  /-- HALT_COMMAND (R124): ENGn_CTL.CMD HALT moves a RUNNING engine to HALTING. -/
  | haltCommand (agent : Agent) (e : Fin 96)
  /-- HALT_TAKEN (R124): The halt is taken at the next bundle boundary and no further bundle issues. -/
  | haltTaken (e : Fin 96)
  /-- HALT_COMPLETE (R124): In-flight results are written and the engine enters HALTED with PC at the next bundle. -/
  | haltComplete (e : Fin 96)
  /-- HALT_TIMEOUT (R125): A SHIFTIN still waiting at HALT_TIMEOUT is abandoned and its beats returned. -/
  | haltTimeout (e : Fin 96)
  /-- RESUME (R126): RESUME runs the engine from PC, first replaying a saved SHIFTIN. -/
  | resume (agent : Agent) (e : Fin 96)
  /-- STEP (R128): STEP issues exactly one bundle, or the saved SHIFTIN replay. -/
  | stepCmd (agent : Agent) (e : Fin 96)
  /-- STEP_COMPLETE (R128): Once the stepped bundle's results are written the engine halts. -/
  | stepComplete (e : Fin 96)
  /-- PROGRAM_MEMORY_WRITE (R129): A ring write of program memory succeeds only while HALTED or STOPPED. -/
  | programMemoryWrite (t : TxnKey)
  /-- LANTERN_MEMORY_RING_READ (R524): A ring read of lantern or engine memory corrects, or returns POISON on an uncorrectable error. -/
  | lanternMemoryRingRead (t : TxnKey)
  /-- LANTERN_MEMORY_RING_WRITE (R524): A ring write of lantern or engine memory stores whole words or merges a part word. -/
  | lanternMemoryRingWrite (t : TxnKey)
  /-- LANTERN_WORD_WRITE_BACK (R524): A corrected lantern or engine memory word is written back when its bank is idle. -/
  | lanternWordWriteBack (m : LanMem) (idx : Fin 131072)
  /-- ENG_SR_WRITE (R130): A write through ENGn_SR to engine registers is accepted only while HALTED or STOPPED. -/
  | engSrWrite (agent : Agent) (e : Fin 96) (off : BitVec 12) (v : BitVec 32)
  /-- SYNC (R132): A write of LANk.SYNC_CMD.SYNC starts a lantern sync. -/
  | sync (agent : Agent) (k : Fin 24)
  /-- LSYNC (R132): A pulse on LSYNC with FAB_SYNC_EN = 1 starts a lantern sync, or counts in TRB0 while BUSY. -/
  | lsync (k : Fin 24)
  /-- SYNC_ENGINE_DONE (R133): An engine in sync stops, writes in-flight results, clears its state and DLY_RANGE and sets its DONE bit. -/
  | syncEngineDone (e : Fin 96)
  /-- SYNC_RELEASE (R132): When all four DONE bits are set the sync is released and engines run or halt at ENTRY. -/
  | syncRelease (k : Fin 24)
  /-- RD (R149): An end point issues a read; the source attachment point checks, tags, decodes and injects it. -/
  | rd (stop : Fin 64) (ifc : Fin 4) (r : EpReq)
  /-- WR (R149): An end point issues a non-posted write, checked and injected by its attachment point. -/
  | wr (stop : Fin 64) (ifc : Fin 4) (r : EpReq)
  /-- WRP (R149): An end point issues a posted write, checked and injected, counted against posted slots. -/
  | wrp (stop : Fin 64) (ifc : Fin 4) (r : EpReq)
  /-- REQUEST_ARRIVAL (R165): A request reaches its destination attachment point and is delivered or answered by the interface state. -/
  | requestArrival (t : TxnKey)
  /-- PARK_TIMEOUT (R169): A parked flit whose timer expires is answered DOMAIN_OFF and counted in TRB6. -/
  | parkTimeout (t : TxnKey)
  /-- RDATA (R147): Read data reaches the source attachment point, which restores the tag and delivers it. -/
  | rdata (t : TxnKey)
  /-- WACK (R143): A write acknowledgement reaches the source attachment point and is delivered. -/
  | wack (t : TxnKey)
  /-- PACK (R161): A posted write acknowledgement frees its slot; a non-OK status goes to the error queue. -/
  | pack (t : TxnKey)
  /-- REQUEST_TIMEOUT (R158): A request without response or PACK at REQ_TIMEOUT gets BUS_ERROR and its tag is freed. -/
  | requestTimeout (t : TxnKey)
  /-- INJECTION_STARVATION (R156): A flit waiting 7 cycles for injection makes the attachment point hold a transit flit one cycle. -/
  | injectionStarvation (stop : Fin 64) (ring : Fin 16)
  /-- FENCE (R160): A fence from a port or STOPnn.FENCE stops new requests from the interface until earlier ones end. -/
  | fence (agent : Agent) (stop : Fin 64) (ifs : BitVec 4)
  /-- FENCE_COMPLETE (R160): The fence completes when every earlier request and posted write has ended. -/
  | fenceComplete (stop : Fin 64) (ifc : Fin 4)
  /-- FLIT_CRC_MISMATCH (R162): A flit failing its CRC is discarded with later flits and replay is requested. -/
  | flitCrcMismatch (stop : Fin 64) (ring : Fin 16)
  /-- SEGMENT_FAILED (R442): Three successive failures of one flit declare the segment failed and start failover. -/
  | segmentFailed (stop : Fin 64) (ring : Fin 16)
  /-- FAILOVER_NOTICE (R442): On the failover notice an attachment point reroutes flows that cross the failed segment. -/
  | failoverNotice (at_ : Fin 64) (stop : Fin 64) (ring : Fin 16)
  /-- FO_DRAIN (R443): At FO_DRAIN expiry uncertain transactions end with BUS_ERROR or are resent. -/
  | foDrain (at_ : Fin 64) (stop : Fin 64) (ring : Fin 16)
  /-- SNUFF (R166): SNUFF_CTRL.SNUFF puts an interface in SNUFFING, withholds credits and answers parked requests. -/
  | snuff (agent : Agent) (stop : Fin 64) (ifs : BitVec 4)
  /-- SNUFF_DONE (R166): When the interface has nothing outstanding it enters OFF and SNUFF_DONE is raised. -/
  | snuffDone (stop : Fin 64) (ifc : Fin 4)
  /-- SNUFF_TIMEOUT (R167): At SNUFF_TIMEOUT the snuff completes, answering delivered requests DOMAIN_OFF. -/
  | snuffTimeout (stop : Fin 64) (ifc : Fin 4)
  /-- ON (R168): SNUFF_CTRL.ON returns an OFF interface to ON and delivers parked flits. -/
  | ifOn (agent : Agent) (stop : Fin 64) (ifs : BitVec 4)
  /-- WICK (R366): A crossing into a stopped island raises WICK, which opens the gate, starts the loop or wakes the power manager. -/
  | wick (island : Island)
  /-- WICK_TIMEOUT (R366): A WICK unanswered for 100 µs raises WICK_TO and counts in TRB2. -/
  | wickTimeout (island : Island)
  /-- GATE_IDLE_CLOSE (R366): An island opened by WICK closes again after its transfer and 64 idle cycles. -/
  | gateIdleClose (island : Island)
  /-- RDS (R186): A read-shared CRD at the home is served per the directory transitions. -/
  | rds (die : Fin 8) (line : LineAddr)
  /-- RDX (R186): A read-exclusive CRD at the home is served per the directory transitions. -/
  | rdx (die : Fin 8) (line : LineAddr)
  /-- UPG (R186): An upgrade CRD at the home is served per the directory transitions. -/
  | upg (die : Fin 8) (line : LineAddr)
  /-- CWB (R186): A die cache write-back is sunk at the home and answered with CACK. -/
  | cwb (die : Fin 8) (line : LineAddr)
  /-- SNPS (R184): A die cache downgrades its copy to S and answers with SRSP. -/
  | snps (die : Fin 8) (line : LineAddr)
  /-- SNPI (R184): A die cache invalidates its copy and answers with SRSP. -/
  | snpi (die : Fin 8) (line : LineAddr)
  /-- SNPC (R184): A die cache cleans an M copy to E and answers with SRSP. -/
  | snpc (die : Fin 8) (line : LineAddr)
  /-- CGNT (R525): A grant arrives at the die cache, filling the line, or granting nothing on BUS_ERROR or POISON. -/
  | cgnt (die : Fin 8) (line : LineAddr)
  /-- SRSP (R185): A snoop response reaches the home and is applied to the line's active transaction. -/
  | srsp (die : Fin 8) (line : LineAddr)
  /-- DCLR (R190): A DCLR makes the slice treat bit m as 0 and start its clearing walk. -/
  | dclr (die : Fin 8) (slice : Fin 32)
  /-- CLEARING_WALK_END (R190): A slice's clearing walk for die m ends and held CRDs from that die proceed. -/
  | clearingWalkEnd (die : Fin 8) (slice : Fin 32)
  /-- CACK (R189): A die cache receives the CACK of a CWB; after the last one it ends its outstanding request. -/
  | cack (die : Fin 8) (line : LineAddr)
  /-- CMO_CLEAN (R192): A CLEAN maintenance operation writes a dirty line to DRAM and answers WACK. -/
  | cmoClean (stop : Fin 64) (ifc : Fin 4) (r : EpReq)
  /-- CMO_FLUSH (R192): A FLUSH maintenance operation invalidates all copies after writing dirty data to DRAM. -/
  | cmoFlush (stop : Fin 64) (ifc : Fin 4) (r : EpReq)
  /-- WRITE_BACK_WALK_END (R189): A die cache finishes its set walk and sends DCLR to every slice. -/
  | writeBackWalkEnd (die : Fin 8)
  /-- DIE_LOST (R191): DIR.DIE_LOST bit m poisons every DX{m} line and clears bit m from DS entries. -/
  | dieLost (agent : Agent) (dies : BitVec 8)
  /-- RANGE_CMO_CLEAN (R193): CMO_CTRL with OP CLEAN and START issues one CLEAN per line of the range. -/
  | rangeCmoClean (agent : Agent)
  /-- RANGE_CMO_FLUSH (R193): CMO_CTRL with OP FLUSH and START issues one FLUSH per line of the range. -/
  | rangeCmoFlush (agent : Agent)
  /-- RANGE_CMO_END (R193): When the last WACK of a range CMO arrives BUSY clears and STATUS is set. -/
  | rangeCmoEnd
  /-- DIE_CACHE_FLUSH (R193): DC_CTRL.FLUSH writes back and invalidates the whole die cache without a snuff. -/
  | dieCacheFlush (agent : Agent) (die : Fin 8)
  /-- DRAM_READ (R214): A controller reads a line, decodes its codewords and returns it through decryption. -/
  | dramRead (line : LineAddr)
  /-- DRAM_WRITE (R215): A line leaving the home slice is encrypted, encoded and queued for writing. -/
  | dramWrite (line : LineAddr)
  /-- DRAM_CORRECTED_WRITE_BACK (R214): A corrected DRAM line is written back unless a write reaches it first. -/
  | dramCorrectedWriteBack (line : LineAddr)
  /-- ROW_IDLE_TIMEOUT (R204): A bank's idle timer reaching IDLE_NS precharges it. -/
  | rowIdleTimeout (c : Fin 136) (bank : Fin 96)
  /-- REFRESH_TICK (R208): Each tREFI adds one to PENDING. -/
  | refreshTick (c : Fin 136)
  /-- REFRESH (R208): A refresh is issued when PENDING exceeds POSTPONE_MAX or the rank is idle. -/
  | refresh (c : Fin 136)
  /-- MR4_POLL (R207): Every 1 ms the controller reads MR4 and halves tREFI on a doubled rate. -/
  | mr4Poll (c : Fin 136) (doubled : Bool)
  /-- POWER_DOWN_ENTRY (R209): An idle rank enters power-down after PD_NS. -/
  | powerDownEntry (c : Fin 136) (rank : Fin 2)
  /-- SELF_REFRESH_ENTRY (R209): A powered-down rank enters self-refresh after SR_US, making up owed refreshes first. -/
  | selfRefreshEntry (c : Fin 136) (rank : Fin 2)
  /-- INITIAL_TRAINING (R210): At reset each controller initialises and trains its memory through the steps of Table 08.4. -/
  | initialTraining (c : Fin 136)
  /-- DRAM_TRAINING_END (R210): Training ends ready or FAILED with FAIL_STEP and TRAIN_FAIL. -/
  | dramTrainingEnd (c : Fin 136) (failStep : Fin 9) (spares : BitVec 8) (repaired : BitVec 8)
  /-- PERIODIC_TRAINING (R211): Every PERIOD_MS a controller retrains each rank. -/
  | periodicTraining (c : Fin 136) (ok : Bool) (repaired : Fin 8)
  /-- TRAIN_START (R211): A write of TRAIN.START retrains now. -/
  | trainStart (agent : Agent) (c : Fin 136)
  /-- CA_PARITY_ERROR (R318): A stack parity report stops commands, precharges and reissues the accesses in the window. -/
  | caParityError (pc : Fin 128)
  /-- KEY_LOAD (R230): KEY.LOAD_CTRL.START begins unwrapping a wrapped key into a slot. -/
  | keyLoad (agent : Agent) (slot : Fin 1024)
  /-- KEY_LOAD_COMPLETE (R231): The load ends with RESULT; a success takes the slot to LOADED and WRAP registers clear. -/
  | keyLoadComplete
  /-- ACTIVATE (R232): CMD = ACTIVATE takes a LOADED slot, or an EMPTY slot 0, to ACTIVE. -/
  | activate (agent : Agent) (slot : Fin 1024)
  /-- DISABLE (R233): CMD = DISABLE puts a slot in ROTATING and starts its purge. -/
  | disable (agent : Agent) (slot : Fin 1024)
  /-- SLOT_STATE_EDGE (R229): A slot state change takes effect at one edge of the key store clock everywhere. -/
  | slotStateEdge
  /-- PURGE_WAIT_END (R233): Trackers, or Tequel frames for a LINK slot, admitted under the slot have ended. -/
  | purgeWaitEnd
  /-- PURGE_DIE_CACHE_WALK_END (R233): A die cache finishes writing back and dropping lines of the key ID. -/
  | purgeDieCacheWalkEnd (die : Fin 8)
  /-- PURGE_SLICE_WALK_END (R233): The slices finish writing dirty lines of the key ID; the keys are zeroised and the slot becomes EMPTY. -/
  | purgeSliceWalkEnd
  /-- PARITY_TREE_FLAG (R244): An upset makes a parity tree flag its frame within 2 µs. -/
  | parityTreeFlag (die : Fin 8) (frame : Fin 131072) (bit : Fin 1920) (n : Fin 5)
  /-- FRAME_CORRECTION (R245): The configuration controller reads, decodes and writes back a flagged frame. -/
  | frameCorrection (die : Fin 8)
  /-- SCRUB_START (R248): SCR_CTRL.START starts a scrub pass over a range of one target instance. -/
  | scrubStart (agent : Agent) (k : Fin 8) (v : BitVec 32)
  /-- SCRUB_UNIT (R249): A scrub engine reads and decodes one unit, writing a correction back with WB = 1. -/
  | scrubUnit (k : Fin 8)
  /-- SCRUB_STOP (R251): SCR_CTRL.STOP ends the pass early with reason STOPPED. -/
  | scrubStop (agent : Agent) (k : Fin 8)
  /-- SCRUB_TIMEOUT (R250): No unit completing within TIMEOUT.US ends the pass with TIMEOUT. -/
  | scrubTimeout (k : Fin 8)
  /-- SCRUB_REPEAT (R252): After INTERVAL_MS a repeating pass starts again. -/
  | scrubRepeat (k : Fin 8)
  /-- ENTER (R256): RAW_CTRL ENTER puts a memory into raw mode. -/
  | rawEnter (agent : Agent) (pg : Fin 10)
  /-- EXIT (R255): RAW_CTRL EXIT returns the memory to normal operation. -/
  | rawExit (agent : Agent) (pg : Fin 10)
  /-- RAW_READ (R255): RAW_CTRL READ copies a unit's stored data and check bits without checking. -/
  | rawRead (agent : Agent) (pg : Fin 10)
  /-- RAW_WRITE (R255): RAW_CTRL WRITE stores RAW_DATA and RAW_CHK into a unit exactly. -/
  | rawWrite (agent : Agent) (pg : Fin 10)
  /-- ENCODE (R255): RAW_CTRL ENCODE computes the check bits of RAW_DATA. -/
  | rawEncode (agent : Agent) (pg : Fin 10)
  /-- RAW_TIMEOUT (R258): A raw operation not started within 100 µs ends with TIMEOUT. -/
  | rawTimeout (pg : Fin 10)
  /-- ADD_ENTRY (R262): LIST_CTRL ADD appends ENTRY_HI:ENTRY_LO to the staged soft-repair list. -/
  | addEntry (agent : Agent)
  /-- COMMIT (R262): LIST_CTRL COMMIT appends every runtime repair not yet in the list. -/
  | commit (agent : Agent)
  /-- LIST_WRITE (R262): LIST_CTRL WRITE writes the staged list over the older copy and verifies it. -/
  | listWrite (agent : Agent)
  /-- OUTGOING_JOB (R270): A check engine job that writes a guarded message with alive counter and check value. -/
  | outgoingJob (agent : Agent) (k : Fin 16) (poly : BitVec 2)
  /-- INCOMING_JOB (R271): A check engine job that verifies a guarded message and writes or rejects its payload. -/
  | incomingJob (agent : Agent) (k : Fin 16) (poly : BitVec 2)
  /-- SCAN_JOB (R273): A check engine job that computes a region's check value, optionally comparing with EXPECT. -/
  | scanJob (agent : Agent) (k : Fin 16) (poly : BitVec 2) (compare : Bool)
  /-- JOB_STOP (R276): JOB_CTRL.STOP ends the job with outcome STOPPED. -/
  | jobStop (agent : Agent) (k : Fin 16)
  /-- JOB_END (R275): A job ends when its last access ends or an access fails, raising JOB_END. -/
  | jobEnd (k : Fin 16)
  /-- LANE_ENABLE (R289): Writing Li_CTRL.ENABLE = 1 starts training or TEST. -/
  | laneEnable (agent : Agent) (l : Fin 192)
  /-- LANE_DISABLE (R289): Writing Li_CTRL.ENABLE = 0 takes the lane to DISABLED. -/
  | laneDisable (agent : Agent) (l : Fin 192)
  /-- RESTART (R289): Li_CTRL.RESTART restarts training. -/
  | restart (agent : Agent) (l : Fin 192)
  /-- LANE_TRAINING_END (R289): Training ends in UP, or fails, counts in TRB2, raises TRAIN_FAIL and restarts. -/
  | laneTrainingEnd (l : Fin 192) (ok : Bool) (an : BitVec 4)
  /-- PROBE_ORDERED_SET (R291): A rate probe ordered set is received and counted toward agreement on a rate. -/
  | probeOrderedSet (l : Fin 192) (mask : BitVec 10) (burst : BitVec 12) (ack : Bool)
  /-- PROBE_TIMEOUT (R291): No probe for 100 ms counts a failure and the lane keeps probing. -/
  | probeTimeout (l : Fin 192)
  /-- COEFFICIENT_REQUEST (R287): A partner's tap step request during training is applied or answered as at its limit. -/
  | coefficientRequest (l : Fin 192) (tap : Tap) (inc : Bool)
  /-- FEC_CODEWORD (R283): A received FEC codeword is corrected, or marked ERR and counted. -/
  | fecCodeword (l : Fin 192) (e : CodewordErr)
  /-- FEC_LOCK_LOSS (R283): Eight uncorrectable codewords in succession declare loss of FEC lock and retrain. -/
  | fecLockLoss (l : Fin 192)
  /-- LOSS_OF_SIGNAL (R293): Signal detect absent 10 µs without the idle marker declares loss of signal and DOWN. -/
  | lossOfSignal (l : Fin 192)
  /-- SIGNAL_RETURN (R293): When the signal returns to a DOWN lane it starts full training. -/
  | signalReturn (l : Fin 192)
  /-- IDLE_ENTRY (R294): An owner's idle request sends the idle-entry marker and puts the transmitter in idle. -/
  | idleEntry (l : Fin 192)
  /-- IDLE_MARKER (R294): A receiver that gets the idle-entry marker sets RX_IDLE and stops its loss-of-signal timer. -/
  | idleMarker (l : Fin 192)
  /-- IDLE_EXIT (R296): On signal detect rise the receiver reacquires within the burst or counts FAST_EXIT_MISS and retrains. -/
  | idleExit (l : Fin 192) (idleUs : BitVec 32) (locked : Bool)
  /-- TRAINING_FRAMES_RECEIVED (R297): Training frames received while UP or exiting idle put the lane in RETRAIN. -/
  | trainingFramesReceived (l : Fin 192)
  /-- FRAME_RECEIVED (R298): A frame reaching the receive FIFO is admitted, cut or dropped. -/
  | frameReceived (l : Fin 192) (bytes : List (BitVec 8))
  /-- PAUSE_REPEAT (R299): Every QUANTA × 256 bit times the PAUSE repeats while occupancy stays at or above OFF. -/
  | pauseRepeat (l : Fin 192)
  /-- TRANSMIT_UNDERRUN (R300): A gap in an ETH frame ends the frame with an error code and counts in TRB7. -/
  | transmitUnderrun (l : Fin 192)
  /-- CHECKER_LOCK (R302): 64 correct bits lock the checker and start error counting. -/
  | checkerLock (l : Fin 192)
  /-- CHECKER_LOCK_LOSS (R302): 1,024 errors in 2,048 bits drop CHK_LOCK and raise CHK_LOSS. -/
  | checkerLockLoss (l : Fin 192)
  /-- FIRE (R303): Li_INJ.FIRE injects a single bit or a burst of errors. -/
  | fire (agent : Agent) (l : Fin 192)
  /-- HOST_REQUEST (R307): A host memory request through a BAR enters the rings under PCIe ordering. -/
  | hostRequest (fn : Fin 512) (bar : Fin 3) (r : HostReq)
  /-- CONFIG_REQUEST (R382): A configuration request is answered with Retry Status, by the boot function or by the image's functions. -/
  | configRequest (fn : Fin 512) (r : CfgReq)
  /-- MSIX_TRIG (R309): A write to MSIX_TRIG raises a global vector, sending or pending its message. -/
  | msixTrig (agent : Agent) (g : BitVec 11)
  /-- HOT_RESET (R310): A PCIe hot reset returns H-class fields to reset and discards outstanding completions. -/
  | hotReset
  /-- LINK_DOWN (R310): A PCIe link down acts as a hot reset. -/
  | linkDown
  /-- FLR (R310): A function level reset does the same for one function within 10 ms. -/
  | flr (fn : Fin 512)
  /-- PERST (R382): Release of PERST_N brings the host port up per the boot source. -/
  | perst (high : Bool)
  /-- LINK_RETRAIN (R313): LINK_CTRL.RETRAIN retrains the PCIe link from L0. -/
  | linkRetrain (agent : Agent)
  /-- CROSSING_WORD_ERROR (R315): A crossing group word error is corrected, or passed with XDBE and reported. -/
  | crossingWordError (w : CrossWord)
  /-- MODULE_BRINGUP (R322): After the image copy a UCIe module releases the partner sideband and trains. -/
  | moduleBringup (u : Fin 4)
  /-- CAPABILITY_MESSAGE (R322): The partner's capability payload is recorded in UCI_PARTNER and M_PCAP, or fails the module. -/
  | capabilityMessage (u : Fin 4) (payload : BitVec 64) (vendor : BitVec 16) (device : BitVec 16)
  /-- MODULE_ACTIVE (R322): Training completes, the module is ACTIVE and IF0 becomes ON. -/
  | moduleActive (u : Fin 4) (rate : BitVec 2) (txRep : BitVec 4) (rxRep : BitVec 4)
  /-- BRINGUP_TIMEOUT (R322): A module not ACTIVE within 10 ms enters FAILED. -/
  | bringupTimeout (u : Fin 4)
  /-- UNIT (R325): A 256-byte unit is received, checked, ordered and its flits and credits applied. -/
  | uciUnit (u : Fin 4) (b : BitVec 2048)
  /-- RETRAIN (R326): A retrain trigger or M_CTRL.RETRAIN puts the module in RETRAIN. -/
  | retrain (u : Fin 4) (agent : Option Agent)
  /-- RETRAIN_END (R326): The retrain ends ACTIVE and replay resumes from ACK + 1. -/
  | retrainEnd (u : Fin 4) (txRep : BitVec 4) (rxRep : BitVec 4)
  /-- RETRAIN_TIMEOUT (R327): A retrain not ended within 30 µs puts the module in FAILED and snuffs IF0. -/
  | retrainTimeout (u : Fin 4)
  /-- MODULE_ENABLE (R327): M_CTRL.ENABLE from 0 to 1 starts a full bring-up. -/
  | moduleEnable (agent : Agent) (u : Fin 4)
  /-- MODULE_DISABLE (R327): M_CTRL.ENABLE = 0 snuffs IF0 and stops the module in DISABLED. -/
  | moduleDisable (agent : Agent) (u : Fin 4)
  /-- SPAN_ENABLE (R330): A span definition is enabled and its lanes run the rate probe. -/
  | spanEnable (agent : Agent) (sp : Fin 24) (width : BitVec 4)
  /-- BLOCK (R333): A 96-byte Tequel block is received, checked, ordered and its frame and credits applied. -/
  | tqBlock (sp : Fin 24) (b : BitVec 768)
  /-- BLOCK_GAP_TIMEOUT (R333): A SEQ gap open for 1 µs discards and requests replay with NAK. -/
  | blockGapTimeout (sp : Fin 24)
  /-- REMOTE_REQUEST (R338): A ring request with bit 47 set is matched to a queue, checked and sent as frames. -/
  | remoteRequest (t : TxnKey)
  /-- RDQ (R342): A remote read frame at the target is served through an export window. -/
  | rdq (q : Fin 4096)
  /-- WRA (R342): A remote non-posted write header frame at the target. -/
  | wra (q : Fin 4096)
  /-- PWA (R342): A remote posted write header frame at the target. -/
  | pwa (q : Fin 4096)
  /-- WD (R342): The write data frame completes a WRA or PWA, which is issued to the local address. -/
  | wd (q : Fin 4096)
  /-- RDATA_FRAME (R343): A remote read response answers the ring requester. -/
  | rdataFrame (q : Fin 4096)
  /-- WACK_FRAME (R343): A remote write acknowledgement answers the ring requester. -/
  | wackFrame (q : Fin 4096)
  /-- PERR (R343): A posted write error is recorded in the PERR queue and raises PG_EVT.PERR. -/
  | perr (q : Fin 4096)
  /-- CREDIT (R339): A CREDIT frame's running counts add credits to TX_AVAIL of named queues. -/
  | credit (src : BitVec 14) (entries : List (BitVec 32))
  /-- REMOTE_TIMEOUT (R343): A remote request without response in RMT_TIMEOUT receives BUS_ERROR. -/
  | remoteTimeout (t : TxnKey)
  /-- QUEUE_GAP_TIMEOUT (R341): A gap open for GAP_TIMEOUT makes the queue BROKEN. -/
  | queueGapTimeout (q : Fin 4096)
  /-- QUEUE_ENABLE (R337): Q_CFG.EN = 1 enables a link queue and zeroes its sequences. -/
  | queueEnable (agent : Agent) (v : BitVec 32)
  /-- QUEUE_DISABLE (R337): Q_CFG.EN = 0 disables the queue and clears BROKEN. -/
  | queueDisable (agent : Agent)
  /-- HELLO (R331): A HELLO frame records the neighbour in SP_NBR and its best-known claimant. -/
  | hello (sp : Fin 24) (h : Hello)
  /-- ELECTION_START (R346): ELECT.START makes the node a claimant sending CLAIM on every UP span. -/
  | electionStart (agent : Agent)
  /-- CLAIM (R346): A CLAIM is relayed if better than the best seen; a claimant in its round backs off. -/
  | claim (sp : Fin 24) (c : Claim) (round : BitVec 8)
  /-- BACKOFF_END (R346): After backoff a claimant becomes a follower or claims again. -/
  | backoffEnd
  /-- CLAIM_ROUND_END (R346): A round of 2 ms without a CLAIM makes the claimant lamplighter. -/
  | claimRoundEnd
  /-- BEACON (R347): A BEACON records the parent span, is flooded and triggers REPORTs. -/
  | beacon (sp : Fin 24) (b : Beacon)
  /-- BEACON_TIMEOUT (R348): No BEACON for 4 ms starts an election. -/
  | beaconTimeout
  /-- BEACON_TICK (R348): The lamplighter sends a BEACON every 1 ms. -/
  | beaconTick
  /-- REPORT (R347): A REPORT is relayed up the tree and recorded by the lamplighter. -/
  | report (sp : Fin 24) (r : Report)
  /-- REPORT_QUIET (R347): After 1 ms without a REPORT the lamplighter assigns IDs, floods TOPO and a BEACON. -/
  | reportQuiet
  /-- ASSIGN (R347): An ASSIGN gives a node its ID and sets VALID. -/
  | assign (sp : Fin 24) (serial : BitVec 64) (id : BitVec 14)
  /-- TOPO (R347): TOPO frames deliver the edge list; a node holding the epoch computes its table and is RUNNING. -/
  | topo (sp : Fin 24) (epoch : BitVec 24) (edges : List (BitVec 14 × BitVec 14))
  /-- JOIN (R348): A JOIN from a new neighbour is forwarded to the lamplighter as a REPORT. -/
  | join (sp : Fin 24) (r : Report)
  /-- LINKDOWN (R348): A LINKDOWN at the lamplighter leads to a new epoch. -/
  | linkdown (rep : BitVec 14) (nbr : BitVec 14) (sp : BitVec 8)
  /-- EPOCH_TIMER (R348): 1 ms after the last change the lamplighter issues a new epoch. -/
  | epochTimer
  /-- ID_FREE_TIMER (R348): An ID is freed 10 s after its node was last reachable. -/
  | idFreeTimer (id : BitVec 14)
  /-- NODE_WRITE (R349): In MANUAL mode a write of NODE sets or clears the ID and NET_STATE. -/
  | nodeWrite (agent : Agent) (v : BitVec 32)
  /-- RT_DATA (R349): An access to RT_DATA reads or writes a routing entry and advances INDEX with AUTOINC. -/
  | rtData (agent : Agent) (wr : Option (BitVec 32))
  /-- PERR_RECORD_POP (R343): A write of 1 to PERR_HI.VALID removes the shown PERR record. -/
  | perrRecordPop (agent : Agent)
  /-- OSC_DLY_EXPIRY (R354): At T0 plus the OSC_DLY delay the references are measured and the DPLL enters MASTER. -/
  | oscDlyExpiry
  /-- CLOCK_LOSS (R361): A clock monitor declares loss of a clock within 4 nominal periods. -/
  | clockLoss (c : ClockSrc)
  /-- REFERENCE_QUALIFIED (R358): A candidate valid for QUAL_MS qualifies and may be selected. -/
  | referenceQualified (j : Fin 8)
  /-- ACQUIRE_COMPLETE (R357): Phase error below 1 ns for 100 ms moves the DPLL from ACQUIRE to TRACK. -/
  | acquireComplete
  /-- TO_MASTER (R359): DPLL_CTRL.TO_MASTER releases the tracked reference and returns to MASTER. -/
  | toMaster (agent : Agent)
  /-- REF_PRIO_WRITE (R359): A REF_PRIO write restarts selection, or releases the reference when no candidate remains. -/
  | refPrioWrite (agent : Agent) (v : BitVec 32)
  /-- LOOP_ON (R362): ML_CFG.ON = 1 starts a loop, which locks within 30 µs. -/
  | loopOn (agent : Agent) (l : Fin 64)
  /-- LOOP_OFF (R365): ML_CFG.ON = 0 stops a loop, refused while a gate below is open. -/
  | loopOff (agent : Agent) (l : Fin 64)
  /-- LOOP_LOCKED (R362): A loop achieves lock and its islands start at a low phase. -/
  | loopLocked (l : Fin 64)
  /-- LOOP_LOCK_LOSS (R363): A loop that loses lock stops, counts and relocks, entering FAILED after three failures. -/
  | loopLockLoss (l : Fin 64)
  /-- SKIP (R364): A write of ML_THR.SKIP throttles a loop from the next 16-edge boundary. -/
  | skip (agent : Agent) (l : Fin 64) (v : BitVec 32)
  /-- CREG_GATE (R54): A write of FABm_CTL.CREG_GATE gates or ungates clock regions, refused while in use. -/
  | cregGate (agent : Agent) (die : Fin 8) (v : BitVec 32)
  /-- FDIE_GATE (R365): A write of FDIE_GATEm gates an FCLK branch into a die, refused while in use. -/
  | fdieGate (agent : Agent) (die : Fin 8) (v : BitVec 32)
  /-- MX0_FORCE (R368): MUX_CTRL.MX0_FORCE completes a hung MX0 switch on the forced path. -/
  | mx0Force (agent : Agent)
  /-- SOURCE_FAILURE (R369): SYSREF not back within the 1 µs hold: loops stop and SAFE_WAIT or RESET follows. -/
  | sourceFailure
  /-- SOURCE_LOSS_SELF_REFRESH (R369): 400 ns after SYSREF loss DRAM controllers start self-refresh entry. -/
  | sourceLossSelfRefresh
  /-- MASTER_RETURN (R370): A returning master input restarts SYSREF, relocks loops and restarts islands. -/
  | masterReturn
  /-- SAFE_WAIT_TIMEOUT (R370): SAFE_WAIT_S expiry without a master input performs a system reset. -/
  | safeWaitTimeout
  /-- SAFE_RELEASE (R370): LOSS_CTRL.RELEASE releases the safe states after SAFE_WAIT step 5. -/
  | safeRelease (agent : Agent)
  /-- AUX_POWER_UP (R511): VCC_AUX within range powers the ember domain and drives DONE and FAULT_N low. -/
  | auxPowerUp
  /-- POWER_ON_RESET_RELEASE (R377): At T0 straps are sampled and the management ROM starts the power-up sequence. -/
  | powerOnResetRelease (bootSrc : BitVec 2) (oscDly : BitVec 3)
  /-- BOOT_BIST (R486): Boot self-test starts in step 6, running the tapers in order. -/
  | bootBist
  /-- TAPER_END (R486): A taper's last member ends and the next taper starts. -/
  | taperEnd (fails : List TestUnit) (repairs : List MemFail)
  /-- IMAGE_LOAD (R390): The configuration controller processes the image sections into configuration memory. -/
  | imageLoad
  /-- LOAD_VERIFY (R393): After the copy the controller checks signature and tag. -/
  | loadVerify
  /-- DONE_RELEASE (R377): Once training, UCIe modules and firmware are ready the device releases DONE. -/
  | doneRelease
  /-- FIRMWARE_TIMEOUT (R396): Firmware not running within the step-9 bound fails the load with reason 0x12. -/
  | firmwareTimeout
  /-- DONE_HIGH (R385): A filtered high on DONE after release enables user logic in SHARED mode. -/
  | doneHigh
  /-- DONE_WAIT_TIMEOUT (R385): DONE still low WAIT_MS after step 10 raises DONE_WAIT and drives ALERT_N low. -/
  | doneWaitTimeout
  /-- DONE_LOW (R386): A filtered low on DONE after user enable raises DONE_LOW and counts. -/
  | doneLow
  /-- LANE_GROUP_START (R387): At g ms after user enable the enabled lanes of group g leave DISABLED. -/
  | laneGroupStart (g : Fin 12)
  /-- HOST_LOAD_START (R397): H_CTRL.START begins a host load in RECEIVING with READY = 1. -/
  | hostLoadStart (agent : Agent)
  /-- H_DOORBELL (R397): A doorbell announces a chunk of the image stream. -/
  | hDoorbell (agent : Agent) (v : BitVec 32)
  /-- CHUNK_CONSUMED (R397): The device consumes a chunk, sets ACK_SEQ and READY. -/
  | chunkConsumed
  /-- HOST_LOAD_ABORT (R398): H_CTRL.ABORT abandons the host load with reason 0x10. -/
  | hostLoadAbort (agent : Agent)
  /-- HOST_LOAD_TIMEOUT (R398): No doorbell within H_TIMEOUT abandons the host load. -/
  | hostLoadTimeout
  /-- PARTIAL_LOAD (R400): PR_CTRL.START isolates, gates and resets a region and loads its partial image. -/
  | partialLoad (agent : Agent) (v : BitVec 32)
  /-- PARTIAL_LOAD_VERIFY (R400): After the frames are written the signature and tag are checked and the release delay starts. -/
  | partialLoadVerify
  /-- RELEASE_DELAY_END (R400): After PR_RELEASE.US the region is ungated, released from reset and de-isolated. -/
  | releaseDelayEnd
  /-- PARTIAL_ABORT (R402): PR_CTRL.ABORT empties the region and ends the load with RESULT aborted. -/
  | partialAbort (agent : Agent)
  /-- CLEAR (R402): PR_CTRL.CLEAR isolates, gates and empties a running region. -/
  | prClear (agent : Agent) (v : BitVec 32)
  /-- OPEN (R403): UPD_CTRL.OPEN opens an unprotected bank for window writes. -/
  | nvOpen (agent : Agent) (v : BitVec 32)
  /-- CLOSE (R403): UPD_CTRL.CLOSE closes the open bank. -/
  | nvClose (agent : Agent)
  /-- VERIFY (R404): UPD_CTRL.VERIFY checks a bank under R389–R394 without loading it. -/
  | nvVerify (agent : Agent) (v : BitVec 32)
  /-- VERIFY_END (R404): Verification ends VERIFIED or failed with REASON. -/
  | nvVerifyEnd
  /-- FLIP (R404): UPD_CTRL.FLIP programs the older pointer copy with SEQ + 1 and the verified bank. -/
  | nvFlip (agent : Agent) (v : BitVec 32)
  /-- NV_WINDOW_WRITE (R403): A full-line write through the NV window starts a block program in the open bank. -/
  | nvWindowWrite (t : TxnKey)
  /-- BLOCK_PROGRAM_END (R403): A block program is verified and its WACK or PACK returned, or BUS_ERROR on failure. -/
  | blockProgramEnd (t : TxnKey) (ok : Bool)
  /-- SENSOR_SAMPLE (R409): Every 10 µs the manager samples every thermal and voltage sensor. -/
  | sensorSample (temps : List (Fin 164 × BitVec 16)) (volts : List (Fin 88 × BitVec 16))
  /-- THROTTLE_STEP (R410): The manager raises SKIP every 100 µs above POINT and lowers it every 1 ms below POINT − HYST. -/
  | throttleStep (down : Bool)
  /-- BACKSTOP (R411): A sensor at POINT + 5 °C for 1 ms sets SKIP_MAX on ML00–ML55 and BACKSTOP. -/
  | backstop
  /-- BACKSTOP_CLEAR (R411): Every sensor below POINT for 1 ms clears BACKSTOP. -/
  | backstopClear
  /-- THERMAL_TRIP (R414): A sensor at 120 °C latches the trip, forces safe states and holds the device in reset. -/
  | thermalTrip (sensor : Fin 164) (above125 : Bool)
  /-- BROWN_OUT (R408): A rail below its brown-out level for 2 µs causes a cold reset or an uncommanded die power-off. -/
  | brownOut (rail : Rail)
  /-- DOMAIN_POWER_OFF (R417): DOM_CMD with OP power-off snuffs the domain's interfaces and opens its switches. -/
  | domainPowerOff (agent : Agent) (v : BitVec 32)
  /-- DOMAIN_POWER_ON (R418): DOM_CMD with OP power-on closes switches, repairs, reloads and syncs the domain. -/
  | domainPowerOn (agent : Agent) (v : BitVec 32)
  /-- PIN_RESET (R422): RESET_N low accepted by its filter resets the device and reruns start-up from step 2. -/
  | pinReset
  /-- SYS_RESET (R423): A write of 0x5EB0 to SYS_RESET by the lock holder starts a system reset. -/
  | sysReset (agent : Agent) (v : BitVec 32)
  /-- SUPPLY_SWITCH (R426): The ember domain moves between VCC_AUX and VBAT without losing state. -/
  | supplySwitch (toVbat : Bool) (mv : BitVec 16)
  /-- TAMPER (R429): An accepted tamper input zeroises the KEK if set, logs the event and sets the alarm latch. -/
  | tamper (n : Fin 2)
  /-- CFG_LOCK (R428): A write of EMB_CTRL.CFG_LOCK = 1 locks the tamper configuration until ember state is lost. -/
  | cfgLock (agent : Agent)
  /-- INSTALL (R431): KEK_CTRL.INSTALL installs the KEK, sets VALID and writes KEK_KCV. -/
  | install (agent : Agent)
  /-- ZEROISE (R431): KEK_CTRL.ZEROISE zeroises the KEK with the effects of R237. -/
  | zeroise (agent : Agent)
  /-- ALARM_ACK (R430): KEY.EMB_ALARM_ACK clears the alarm latch and logs ALARM_ACK. -/
  | alarmAck (agent : Agent)
  /-- EMBER_STATE_LOSS (R434): VBAT below 1.8 V without VCC_AUX loses all ember state. -/
  | emberStateLoss
  /-- EMBER_START (R434): The ember domain starts with E-class fields at reset, alarm set and one log entry. -/
  | emberStart
  /-- LOCKSTEP_MISMATCH (R445): A compare mismatch blocks the active pair and makes the standby pair take over. -/
  | lockstepMismatch (pair : Fin 2)
  /-- TAKEOVER_RESUME (R445): The new active pair restores the checkpoint, replays the journal and resumes services. -/
  | takeoverResume
  /-- CHECKPOINT (R444): Every 10 µs the active pair writes a checkpoint and commit journal. -/
  | checkpoint (fw : BitVec 64)
  /-- OUT (R449): ADMIT_CTRL OUT moves a unit to OUT_OF_SERVICE. -/
  | admitOut (agent : Agent) (v : BitVec 32)
  /-- QUARANTINE (R450): ADMIT_CTRL QUARANTINE admits only MGMT traffic and test to the unit. -/
  | quarantine (agent : Agent) (v : BitVec 32)
  /-- QUARANTINE_END (R451): A segment quarantine ends after QUAR_US, or fails on a CRC mismatch. -/
  | quarantineEnd (ok : Bool)
  /-- ADMIT (R451): ADMIT_CTRL ADMIT returns a unit to service, sending the admit notice for a segment. -/
  | readmit (agent : Agent) (v : BitVec 32)
  /-- ADMIT_NOTICE (R451): On the admit notice an attachment point holds injections on flows whose route will change. -/
  | admitNotice (at_ : Fin 64) (stop : Fin 64) (ring : Fin 16)
  /-- ROUTE_RESTORE (R451): Once old transactions on a changed flow end it switches back and releases held injections. -/
  | routeRestore (at_ : Fin 64) (stop : Fin 64) (ring : Fin 16)
  /-- RAMP_STEP (R452): Every STEP_US the credit ramp halves its pacing interval. -/
  | rampStep
  /-- ALARM_QUEUE_POP (R456): A write of Q_STAT.POP removes the oldest alarm record. -/
  | alarmQueuePop (agent : Agent)
  /-- I2C_READ (R476): The I2C READ command reads a window word. -/
  | i2cRead (off : BitVec 32)
  /-- I2C_WRITE (R476): The I2C WRITE command writes a window word at STOP when its PEC is correct. -/
  | i2cWrite (off : BitVec 32) (v : BitVec 32) (pec : BitVec 8)
  /-- I2C_STATUS (R476): The I2C STATUS command returns PART_ID, CFG_STAT and LOAD_ERR. -/
  | i2cStatus
  /-- I2C_RESULT (R476): The I2C RESULT command returns the status of the last READ or WRITE. -/
  | i2cResult
  /-- I2C_BUS_TIMEOUT (R470): SCL held low for 35 ms discards the transaction and releases the I2C agent's locks. -/
  | i2cBusTimeout
  /-- READ_REG (R479): The USB READ_REG request reads consecutive registers. -/
  | readReg (value : BitVec 16) (index : BitVec 16) (length : BitVec 16)
  /-- WRITE_REG (R479): The USB WRITE_REG request writes registers once its status stage is acknowledged. -/
  | writeReg (value : BitVec 16) (index : BitVec 16) (length : BitVec 16) (words : List (BitVec 32))
  /-- USB_STATUS (R478): The USB STATUS request returns the 12 status bytes. -/
  | usbStatus (value : BitVec 16) (index : BitVec 16) (length : BitVec 16)
  /-- USB_RESULT (R478): The USB RESULT request returns the status of the last access. -/
  | usbResult (value : BitVec 16) (index : BitVec 16) (length : BitVec 16)
  /-- USB_STANDARD_REQUEST (R478): A USB 2.0 Chapter 9 standard request is answered. -/
  | usbStandardRequest (r : UsbStd)
  /-- USB_BUS_RESET (R479): A USB bus reset or detach discards the transfer and releases the USB agent's locks. -/
  | usbBusReset (highSpeed : Bool) (detach : Bool)
  /-- USB_TRANSFER_TIMEOUT (R479): A status stage not arriving within 1 s discards the transfer. -/
  | usbTransferTimeout
  /-- WINACC_READ (R481): Update-DR with OP read starts a JTAG window read. -/
  | winaccRead (off : BitVec 25)
  /-- WINACC_WRITE (R481): Update-DR with OP write starts a JTAG window write. -/
  | winaccWrite (off : BitVec 25) (v : BitVec 32)
  /-- CHANNEL_CLAIM (R482): CH_CTRL CLAIM takes a FREE mailbox channel. -/
  | channelClaim (agent : Agent) (c : Fin 8)
  /-- GO (R482): CH_CTRL GO submits the request; with no firmware it ends NO_FW. -/
  | go (agent : Agent) (c : Fin 8)
  /-- CHANNEL_RELEASE (R482): CH_CTRL RELEASE frees the channel, withdrawing a PENDING request. -/
  | channelRelease (agent : Agent) (c : Fin 8)
  /-- MAILBOX_RESPONSE (R482): Firmware writes the response and the channel becomes DONE. -/
  | mailboxResponse (c : Fin 8) (status : BitVec 8) (data : List (BitVec 8))
  /-- MAILBOX_TIMEOUT (R482): A request not answered by MBX_TIMEOUT ends with status TIMEOUT. -/
  | mailboxTimeout (c : Fin 8)
  /-- GET_VERSION (R484): The GET_VERSION service returns firmware version and build. -/
  | getVersion (c : Fin 8)
  /-- BREAK_LOCK (R484): The BREAK_LOCK service releases a page lock with BROKEN set. -/
  | breakLock (c : Fin 8)
  /-- NV_SYS_WRITE (R484): The NV_SYS_WRITE service programs one block of the DRAM remap records. -/
  | nvSysWrite (c : Fin 8) (ok : Bool)
  /-- FIELD_BIST (R493): FB_CTRL.START runs self-test on one quarantined unit. -/
  | fieldBist (agent : Agent) (v : BitVec 32)
  /-- FIELD_BIST_END (R494): A field BIST ends passed with reload, failed, or aborted. -/
  | fieldBistEnd (fails : List MemFail) (logicFail : Option (BitVec 16))
  /-- IDCODE (R495): The IDCODE instruction selects the identification register. -/
  | idcode
  /-- SAMPLE_PRELOAD (R495): The SAMPLE/PRELOAD instruction selects the boundary register. -/
  | samplePreload
  /-- EXTEST (R497): The EXTEST instruction drives pins from the boundary register. -/
  | extest
  /-- EXTEST_PULSE (R497): The IEEE 1149.6 EXTEST_PULSE instruction. -/
  | extestPulse
  /-- EXTEST_TRAIN (R497): The IEEE 1149.6 EXTEST_TRAIN instruction. -/
  | extestTrain
  /-- CLAMP (R497): The CLAMP instruction holds pins and selects bypass. -/
  | clamp
  /-- HIGHZ (R497): The HIGHZ instruction puts pins in high impedance. -/
  | highz
  /-- PROBE (R498): The PROBE instruction connects the analogue test buses. -/
  | probe
  /-- WINACC (R481): The WINACC instruction selects the 59-bit window access register. -/
  | winacc
  /-- BYPASS (R495): The BYPASS instruction selects the bypass register. -/
  | bypass
  /-- TEST_LOGIC_RESET (R497): Entry to Test-Logic-Reset sets IDCODE and releases the JTAG agent's locks. -/
  | testLogicReset
  /-- ATB_SELECT (R498): A change of ATB0_SEL or ATB1_SEL opens both buses 1 µs and then connects the new points. -/
  | atbSelect (agent : Agent) (bus1 : Bool) (v : BitVec 32)
  /-- RESET_N_RELEASE (R515): RESET_N high accepted by its filter ends a pin reset, or the hold at step 1, and start-up continues from step
  2 of Table 16.2. -/
  | resetNRelease
  /-- TRANSMIT_IDLE_EXIT (R296): When the owner withdraws its idle request, the transmitter leaves electrical idle, sends the training burst
  for BURST_NS and then data. -/
  | transmitIdleExit (l : Fin 192)
  /-- RECEIVE_CHANNEL_TRANSFER (R299): The fabric takes a word from a lane's receive FIFO; occupancy falls, and when it drops below OFF the
  lane sends one PAUSE with quanta 0. -/
  | receiveChannelTransfer (l : Fin 192)
  /-- GPIO_INPUT_EDGE (R516): A GPIO input changes level, and the bank filter passes the new level to the fabric once it has held for the
  bank's width. -/
  | gpioInputEdge (bank : Fin 12) (pin : Fin 48) (level : Bool)
  /-- CDR_LOCK_LOSS (R292): A lane's CDR loses lock, CDR_LOCK clears and the recovered reference of a timing lane is withdrawn. -/
  | cdrLockLoss (l : Fin 192)
  /-- BLOCK_LOCK_LOSS (R312): A lane's PCS loses block alignment or receives an invalid block or code, clearing BLOCK_LOCK and counting in
  TRB3. -/
  | blockLockLoss (l : Fin 192) (invalidOnly : Bool)
  /-- QUALIFICATION_LOSS (R358): A candidate timing lane's frequency leaves ACCEPT_PPM over a 1 ms window, so it loses qualification and the
  DPLL reselects or enters HOLDOVER. -/
  | qualificationLoss (j : Fin 8)
  /-- MAILBOX_REQUEST_TAKEN (R482): Firmware takes a PENDING mailbox request, and the channel moves to RUNNING. -/
  | mailboxRequestTaken (c : Fin 8)
  /-- FIRMWARE_START (R396): The mantle firmware of the image starts running and sets MBX_INFO.FW_RUN, so the mailbox is served and step 9
  of Table 16.2 may end. -/
  | firmwareStart (version : BitVec 16)
  /-- USB_ATTACH (R381): The USB device attaches its pull-up once 50 ms have passed after step 5 and USB_VBUS reads present. -/
  | usbAttach
  /-- HOST_LINK_UP (R313): The PCIe link trains to L0 with the host and LINK_STAT.DL_UP becomes 1. -/
  | hostLinkUp (speed : BitVec 4) (width : BitVec 6)
  /-- FLIP_END (R404): The pointer-copy program of a FLIP ends, its verify sets UPD_STAT from flipping to the result, and the new image is
  in force at the next reset. -/
  | nvFlipEnd (ok : Bool)
  /-- LIST_WRITE_END (R262): The WRITE of the staged soft-repair list finishes its verify, clears LIST_CTRL.BUSY and sets RESULT done or
  failed, counting a failure in TRB2. -/
  | listWriteEnd (ok : Bool)
  /-- HOLDOFF_END (R461): 1 ms after the last alarm of codes 2–10, GUAR_STAT.HOLDOFF returns to 0. -/
  | holdoffEnd
deriving DecidableEq, Repr

end Sys2Proof
end

