-- ==== Sys2Proof/Machine/State.lean ====
section
/-!
DEFINITION. The state of the block: plain data, grouped by the chapters of spec/. The registers of the management window live
in one map (`regs`); everything the spec describes beside them has a field of its own.
-/
namespace Sys2Proof.Machine

/-- Why the block stops with a fault. Nothing raises it: every command has an effect or none. Safe. -/
inductive Fault where
  /-- Raised by nobody; the type needs an inhabitant. Safe. -/
  | none
deriving DecidableEq, Repr

/-- Why the block gives a command no meaning. -/
inductive Refusal where
  /-- A command whose meaning is not modelled yet; raised by the arms of `exec` only. Safe. -/
  | notModelled (mnemonic : String)
deriving DecidableEq, Repr

/-! ### Registers -/

/-- The access codes (Table 00.4). -/
inductive Acc where
  | rw | ro | w1c | w1s | wo | rwl | rwh
deriving DecidableEq, Repr

/-- The reset classes (Table 00.5). -/
inductive Cls where
  | P | S | W | D | H | E
deriving DecidableEq, Repr

/-- A field of a register: byte offset of the register, lowest bit, width. -/
structure Fld where
  off : Nat
  lo : Nat
  width : Nat
deriving DecidableEq, Repr

/-- A field within a register definition. Bits in no field are reserved (R10). -/
structure FieldDef where
  lo : Nat
  width : Nat
  acc : Acc
deriving DecidableEq, Repr

/-- A register, or a family of registers at regular offsets, of a page map. -/
structure RegDef where
  name : String
  off : Nat
  stride : Nat
  count : Nat
  stride2 : Nat
  count2 : Nat
  cls : Cls
  reset : Word
  image : Bool
  fields : List FieldDef
deriving DecidableEq, Repr

/-! ### The fabric (chapter 02) and its arithmetic slices (chapter 03) -/

/-- A word with its check bits: the data and the syndrome (stored check bits XOR recomputed check bits, R242). -/
structure EccWord where
  data : DWord
  syn : Byte
deriving DecidableEq, Repr

/-- The modes of block and deep memories (R39, R45). `wide` is the ×72 (×128) width of simple dual-port mode. -/
inductive BmMode where
  | single | sdp | wide | tdp | fifo
deriving DecidableEq, Repr

/-- What a memory's port drives to the fabric (R41 to R43). -/
structure BmOut where
  data : BitVec 128
  sbe : Bool
  dbe : Bool
  wcoll : Bool
  pwcoll : Bool
deriving DecidableEq, Repr

/-- A FIFO's pointers and its number of words (R39: hardened flags). -/
structure BmFifo where
  rd : Nat
  count : Nat
deriving DecidableEq, Repr

/-- A partial write between its cycle and the next one (R42): its port, its word, the merged word. -/
structure BmMerge where
  portB : Bool
  addr : Nat
  word : EccWord
deriving DecidableEq, Repr

/-- What a memory knows of its latest port cycles (R41, R42): the partial writes of the latest cycle, to be stored in the next; the ports whose merge
falls in the latest cycle; what the words stored in the latest cycle held before it; which port wrote a word in it. -/
structure BmCycle where
  merges : List BmMerge := []
  busy : List Bool := []
  old : List (Nat × EccWord) := []
  wrote : List (Bool × Nat) := []
deriving DecidableEq, Repr

/-- The static attributes of a slice (Table 03.7). -/
inductive Pipe where
  | minimal | partial_ | full
deriving DecidableEq, Repr

structure SliceAttr where
  pipe : Pipe
  preKeep : Bool
  satEn : Bool
  outShift : Nat
  outWidth : Nat
  casShift : Nat
deriving DecidableEq, Repr

/-- The attributes as an image gives them; `none` is a value that Table 03.7 does not list (R84). -/
structure SliceDecl where
  pipe : Option Pipe
  preKeep : Option Bool
  satEn : Bool
  outShift : Nat
  outWidth : Nat
  casShift : Nat
deriving DecidableEq, Repr

/-- The static attributes of a column (Table 03.7). -/
structure ColAttr where
  cexpEn : Bool
  run : Bool
  mask : BitVec 16
deriving DecidableEq, Repr

/-- The registers of an arithmetic slice (R81): input registers, pre-adder stage, M stage, P, the output Q with its flag, the sticky
flags, LSC; and LSC as it stood before the slice's latest edge (read by the column exponent unit at that edge). -/
structure Slice where
  a : BitVec 24
  d : BitVec 24
  b : BitVec 20
  c0 : BitVec 48
  op0 : Byte
  x : BitVec 24
  b1 : BitVec 20
  c1 : BitVec 48
  op1 : Byte
  m : BitVec 64
  c2 : BitVec 48
  op2 : Byte
  p : BitVec 64
  q : BitVec 48
  ovfNow : Bool
  ovf : Bool
  wrap : Bool
  lsc : Nat
  lscPrev : Nat
deriving DecidableEq, Repr

/-- A response held in a ring port's response slot (R58); `dup` marks the refusal of a duplicate tag. -/
structure PortRsp where
  dup : Bool
  tag : Byte
  status : Status
  data : Line
deriving DecidableEq, Repr

/-- A request a port in target mode presents to the fabric (R61): the ring transaction it answers. -/
structure PortTgt where
  txn : TxnKey
  posted : Bool
  late : Bool
deriving DecidableEq, Repr

/-- The register of one wire of a crossing group (R47, R52): its stages, the first one in bit 0, and the value presented last before a clamp. -/
structure XReg where
  stages : BitVec 3
  last : Bool
deriving DecidableEq, Repr

/-- The registers of a pin (R55): bit 0 is the first stage of each path. Input: the I/O register, then the stages to a die other than the home die. Output
and enable: the stages from such a die, then the I/O register. -/
structure PinReg where
  inn : BitVec 4
  out : BitVec 4
  oe : BitVec 4
deriving DecidableEq, Repr

/-- The fabric: block and deep memory words, their latest port cycles, corrected words to be written back by port, port outputs and FIFO
pointers; slices and column exponents; ring port response slots, outstanding tags, target requests; site memories and
registers of logic sites that have left their image value (R36, R37); crossing registers, pin registers; what the isolation sites of a region passed
when it was isolated (R401). -/
structure Fabric where
  bm : KMap EccWord := []
  bmCycle : KMap BmCycle := []
  writeBack : KMap (List (Nat × EccWord)) := []
  bmOut : KMap BmOut := []
  bmFifo : KMap BmFifo := []
  slices : KMap Slice := []
  cexp : KMap Nat := []
  rsp : KMap (List PortRsp) := []
  outTags : KMap (List Byte) := []
  tgt : KMap (List (Byte × PortTgt)) := []
  lateTgt : KMap (List Byte) := []
  disabling : List Nat := []
  siteMem : KMap (BitVec 512) := []
  userRegs : KMap (BitVec 16) := []
  xing : KMap XReg := []
  pins : KMap PinReg := []
  iso : KMap Bool := []
deriving DecidableEq, Repr

/-! ### Signal engines and lanterns (chapters 04 and 05) -/

/-- A bundle of program memory with its check bits' syndrome (R242, Table 10.1: SECDED (137,128)). -/
structure ProgWord where
  data : BitVec 128
  syn : BitVec 9
deriving DecidableEq, Repr

/-- A beat of a stream port: data and sideband (R106, R107). -/
structure Beat where
  data : Line
  sb : BitVec 24
deriving DecidableEq, Repr

/-- What a program sees (Table 04.1): S, physical V, physical P, A and E registers, the special registers by number, and which loop
levels are active (and rotating). -/
structure EngCore where
  sReg : KMap Word
  v : KMap Line
  p : Byte
  a : KMap (BitVec 1536)
  e : KMap Byte
  sr : KMap Word
  lv0 : Option Bool
  lv1 : Option Bool
deriving DecidableEq, Repr

/-- A SHIFTIN that is taking beats (R109): its fields, the physical window registers, the beats taken. -/
structure Shift where
  v : Nat
  k : Nat
  n : Nat
  b : Nat
  window : List Nat
  beats : List Beat
deriving DecidableEq, Repr

/-- A store of the bundle being issued: engine address, 64 bytes or 4, data. -/
structure EStore where
  addr : Nat
  wide : Bool
  data : Line
deriving DecidableEq, Repr

/-- An engine. `core` is what every slot of the bundle being issued reads, `next` what its slots have written so far (R93). -/
structure Engine where
  core : EngCore
  next : EngCore
  slot : Nat
  stores : List EStore
  beats : List (Nat × Beat)
  pops : List Nat
  branch : Option Nat
  srW : List Nat
  memErr : Bool
  haltAfter : Bool
  loopStart : Option (Bool × Nat × Nat)
  skip : Option Nat
  shiftStart : Option Shift
  shift : Option Shift
  ret0 : List Beat
  in0 : List Beat
  ret1 : List Beat
  in1 : List Beat
  out0 : List Beat
  out1 : List Beat
  warm0 : Nat
  warm1 : Nat
  past : Bool
  atEnd : Option Nat
  hold : Bool
  taken : Bool
  haltHeld : Bool
  resetHeld : Bool
  step : Bool
  stepDone : Bool
deriving DecidableEq, Repr

/-- The engines and their lanterns: engines, program and data memories, lantern memories, corrected words awaiting write-back. -/
structure Engines where
  eng : KMap Engine := []
  prog : KMap ProgWord := []
  data : KMap EccWord := []
  lan : KMap EccWord := []
  wbProg : KMap (BitVec 128) := []
  wbData : KMap DWord := []
  wbLan : KMap DWord := []
deriving DecidableEq, Repr

/-! ### The ring network (chapter 06) -/

/-- Where a ring transaction stands: its request travels, was lost in a failed segment, is parked, is with the end point, or its answer
travels. -/
inductive Phase where
  | flying | lost | parked | delivered
  | answered (st : Status) (data : Line)
deriving DecidableEq, Repr

/-- A ring transaction (R142 to R149): source interface, the end point's tag and which of its requesters asked, the flit's fields, the
destination, the rings of its two legs, how far it is, whether its write data was hit on its way (R317), the order of its injection and of its answer, and whether its source still waits
for it. -/
structure Txn where
  ifc : Nat
  epTag : Byte
  who : Nat
  typ : ReqType
  addr : PhysAddr
  kid : BitVec 10
  tid : BitVec 9
  len : BitVec 3
  data : Line
  be : BitVec 64
  dst : Nat
  dstIf : Nat
  ring : Nat
  ringBack : Nat
  phase : Phase
  poison : Bool
  seq : Nat
  aseq : Nat
  live : Bool
deriving DecidableEq, Repr

/-- A request an end point has handed to its attachment point and that is not injected yet (Table 06.7), with its tenant; `poison`: its data was
hit on its way (R317). -/
structure EpEntry where
  typ : ReqType
  r : EpReq
  tid : BitVec 9
  poison : Bool
deriving DecidableEq, Repr

/-- The virtual channels (Table 06.2). -/
inductive Vc where
  | req | rsp | post | mgmt
deriving DecidableEq, Repr

/-- What a flit belongs to: the request or the answer of a transaction (by its number), or the next message of a coherence channel (die × 32 + slice): a CRD, a message of the
die cache on RSP, a snoop, a message of the home on RSP. -/
inductive FlitRef where
  | req (n : Nat) | ans (n : Nat) | crd (ch : Nat) | dc (ch : Nat) | snp (ch : Nat) | home (ch : Nat)
deriving DecidableEq, Repr

/-- A flit on its way, or the two of a masked line write (R142, R145): ring, VC, source and destination interfaces, its bits, the attachment point in whose transit queue
it stands (none: in its injection queue), and whether a replay of it is awaited (R162). -/
structure Flit where
  ref : FlitRef
  ring : Nat
  vc : Vc
  src : Nat
  srcIf : Nat
  dst : Nat
  dstIf : Nat
  words : List (BitVec 640)
  at_ : Option Nat
  again : Bool
deriving DecidableEq, Repr

/-- The rings: transactions by source, class and tag; the injection queues of each interface (REQ, POST, MGMT; Table 06.7); the flits that have left them, or an end point that answers, in order
of issue; the last 16 flits each attachment point sent on each ring (stop × 16 + ring, latest first; R162) and which VC it served last (R156); posted writes that a lantern's
interface has taken and not performed; fences in progress (a
port's fence carries its tag); which attachment point knows of which failed segment; CRC failures in a row on a segment; the order number at which an attachment point learned of a failed segment whose FO_DRAIN runs (by attachment point × 1024 + stop × 16 + ring); injections that
have the right of way; the interface that took the latest tag of a pool (attachment point × 3 + class); the entries of each injection queue that stood
before a fence in progress; the next order number; parked flits in order of arrival; the error queues; the ring cycles until a paced interface's next flit
of a VC (R452). -/
structure Rings where
  txns : KMap Txn := []
  epReq : KMap (List EpEntry) := []
  epPost : KMap (List EpEntry) := []
  epMgmt : KMap (List EpEntry) := []
  flits : List Flit := []
  sent : KMap (List (BitVec 640)) := []
  served : KMap Vc := []
  posted : List (Nat × Txn) := []
  fences : KMap (Option Byte) := []
  known : List (Nat × Nat × Nat) := []
  crcFails : KMap Nat := []
  drain : KMap Nat := []
  starved : List (Nat × Nat) := []
  lastIf : KMap Nat := []
  fenced : KMap (Nat × Nat × Nat) := []
  seq : Nat := 0
  parked : List TxnKey := []
  errq : KMap (List (PhysAddr × BitVec 10 × Status)) := []
  paced : KMap Nat := []
deriving DecidableEq, Repr

/-! ### Caches and coherence (chapter 07) -/

/-- A line of the system cache (R175): data with the syndromes of its eight words and of its tag, key ID, dirty and poison bits, way. -/
structure ScLine where
  data : Line
  syn : BitVec 64
  tagSyn : BitVec 7
  kid : BitVec 10
  dirty : Bool
  poison : Bool
  way : Nat
deriving DecidableEq, Repr

/-- A directory entry (R175): DX or DS with its presence vector (no entry is DI), the key ID its copies are held under (R180), way,
syndrome. -/
structure DirEnt where
  dx : Bool
  pres : Byte
  kid : BitVec 10
  way : Nat
  syn : BitVec 7
deriving DecidableEq, Repr

/-- The states of a die cache line (Table 07.2). -/
inductive Mesi where
  | m | e | s
deriving DecidableEq, Repr

/-- A die cache line (R175). -/
structure DcLine where
  st : Mesi
  data : Line
  syn : BitVec 64
  tagSyn : BitVec 7
  kid : BitVec 10
  tid : BitVec 9
  way : Nat
deriving DecidableEq, Repr

/-- A request of a ring port that waits in a die cache: port of the die, type, tag, key ID, tenant, bytes. -/
structure DcReq where
  port : Nat
  typ : ReqType
  r : EpReq
  tid : BitVec 9
deriving DecidableEq, Repr

/-- A read of a die cache at the home (CRD, Table 07.3). -/
inductive CrdKind where
  | rds | rdx | upg
deriving DecidableEq, Repr

/-- A CRD on its way to the home. -/
structure CrdMsg where
  line : Nat
  kind : CrdKind
  kid : BitVec 10
  tid : BitVec 9
deriving DecidableEq, Repr

/-- What an SRSP reports (R184). -/
inductive SnpAns where
  | none | clean
  | dirty (data : Line)
deriving DecidableEq, Repr

/-- A message of a die cache to a home on RSP: write-back, snoop answer, DCLR. -/
inductive DcMsg where
  | cwb (line : Nat) (data : Line) (poison : Bool) (kid : BitVec 10) (tid : BitVec 9)
  | srsp (line : Nat) (a : SnpAns)
  | dclr
deriving DecidableEq, Repr

/-- The snoops (Table 07.3). -/
inductive SnpKind where
  | snps | snpi | snpc
deriving DecidableEq, Repr

structure SnpMsg where
  line : Nat
  kind : SnpKind
  ag : Bool
deriving DecidableEq, Repr

/-- A message of a home to a die cache on RSP: a grant (exclusive or shared, with data or without, with its status) or a CACK. -/
inductive HomeMsg where
  | cgnt (line : Nat) (excl : Bool) (data : Option Line) (st : Status)
  | cack (line : Nat)
deriving DecidableEq, Repr

/-- Who asks a home: a die cache, a ring transaction, a posted write whose PACK is given
already (R161), the DIR unit (R193), or the home itself recalling a line for another one (R176). -/
inductive Asker where
  | die (m : Nat)
  | txn (t : TxnKey)
  | posted (stop : Nat)
  | dirUnit
  | recall (line : Nat)
deriving DecidableEq, Repr

/-- What is asked of a home. -/
inductive HomeOp where
  | rds | rdx | upg | rd | wr | clean | flush
deriving DecidableEq, Repr

/-- How far a transaction of a home is: not started; flushing the line's old key ID (R180); ready to
act; waiting for the recall of a directory victim; its
own snoops; DRAM data; acceptance of its DRAM write. -/
inductive TrkPhase where
  | idle | oldKey | ready | recall | snoop | dram | accept
deriving DecidableEq, Repr

/-- A transaction tracker (R185): the request; `need` the dies whose snoop answer is awaited, `domOff` those of them whose snoop was answered
DOMAIN_OFF (R190), `sawNone` whether a die answered NONE, `poison` whether the write data is
poisoned (R317). -/
structure Tracker where
  op : HomeOp
  asker : Asker
  kid : BitVec 10
  tid : BitVec 9
  len : BitVec 3
  ofs : Nat
  data : Line
  be : BitVec 64
  phase : TrkPhase
  need : Byte
  domOff : Byte
  sawNone : Bool
  poison : Bool
deriving DecidableEq, Repr

/-- A line that has left its home for DRAM and is not accepted yet (R215). -/
structure WbLine where
  line : Nat
  data : Line
  kid : BitVec 10
  poison : Bool
deriving DecidableEq, Repr

/-- The caches: system cache, directory and die cache lines with the replacement state of their sets; messages between die caches and homes
by channel (die × 32 + slice); trackers by line, the first one active; lines on their way to DRAM; a die cache's
outstanding CRDs with the ways kept for them, unacknowledged write-backs, held snoops and waiting port requests (by die × 2^42 + line); die caches flushing,
in a snuff or by DC_CTRL; CRDs held by clearing walks; directory ways kept for lines whose grant is on its way (R176); requests that
die caches have passed to the homes and that are not answered (line key, port, whether a CMO; R182); the lines of a range operation that wait for a tracker. -/
structure Caches where
  sc : KMap ScLine := []
  scPlru : KMap (BitVec 16) := []
  dir : KMap DirEnt := []
  dirPlru : KMap (BitVec 16) := []
  dc : KMap DcLine := []
  dcPlru : KMap (BitVec 16) := []
  crdCh : KMap (List CrdMsg) := []
  dcCh : KMap (List DcMsg) := []
  snpCh : KMap (List SnpMsg) := []
  homeCh : KMap (List HomeMsg) := []
  trk : KMap (List Tracker) := []
  wb : List WbLine := []
  crd : KMap (CrdKind × Nat) := []
  cwbOut : List Nat := []
  held : KMap SnpMsg := []
  wait : KMap (List DcReq) := []
  inSnuff : List Nat := []
  dclrSent : List Nat := []
  heldCrd : List (Nat × CrdMsg) := []
  dirRsv : KMap Nat := []
  passed : List (Nat × Nat × Bool) := []
  rangeLeft : List (Nat × HomeOp × BitVec 10) := []
deriving DecidableEq, Repr

/-! ### DRAM (chapter 08) -/

/-- A line as its controller stores it: ciphertext, the difference between its stored check symbols and those of its data (16 bits a
codeword), and whether the poison pattern lies on the check symbols (R214). -/
structure DramLine where
  data : Line
  diff : BitVec 256
  marked : Bool
deriving DecidableEq, Repr

/-- The DRAM: stored lines by controller and local index; the write queues; open rows and marked aggressors by controller and bank;
ranks in power-down (1) or self-refresh (2); the read queues (lines); refreshes owed by controller and rank; the bank that a per-bank or same-bank refresh takes next; activations counted
for refresh management by controller and bank (R207); the channel set and the channel configurations in force since the last initialisation
(R201); corrected lines that await their write-back. -/
structure Dram where
  line : KMap DramLine := []
  wq : KMap (List (Nat × DramLine)) := []
  corr : KMap DramLine := []
  openRow : KMap Nat := []
  aggr : KMap Nat := []
  rankPd : KMap Nat := []
  rq : KMap (List Nat) := []
  owed : KMap Nat := []
  refBank : KMap Nat := []
  acts : KMap Nat := []
  ilv : Nat := 0
  cfgs : KMap Word := []
deriving DecidableEq, Repr

/-! ### Keys (chapter 09) -/

/-- A purge (Table 09.5): its slot, whether it is a memory purge, the state the slot was disabled from, the die caches whose walk is over. -/
structure Purge where
  slot : Nat
  mem : Bool
  was : Nat
  dies : List Nat
deriving DecidableEq, Repr

/-- The key store beside its registers: the key-encryption key of the ember domain, if installed, the key pairs held (K1 low, K2 high), slot changes accepted and not yet in force (slot, DISABLE), the purge. -/
structure Keys where
  kek : Option (BitVec 256) := none
  pair : KMap (BitVec 512) := []
  edge : List (Nat × Bool) := []
  purge : Option Purge := none
deriving DecidableEq, Repr


/-! ### Data integrity (chapter 10) -/

/-- A copy of the soft-repair list in the NV store (R261): its sequence number, its entries, and whether its CRC holds. -/
structure RepCopy where
  seq : Nat
  entries : List DWord
  crcOk : Bool
deriving DecidableEq, Repr

/-- A scrub pass (R248): target, instance, first unit, units. -/
structure ScrubPass where
  target : Nat
  inst : Nat
  start : Nat
  len : Nat
deriving DecidableEq, Repr

/-- A raw operation that waits (R258): OP, and the unit that it was accepted for. -/
structure RawOp where
  op : Nat
  target : Nat
  inst : Nat
  idx : Nat
deriving DecidableEq, Repr

/-- A correction that a scrub engine has read and not written back (R243): the unit, its codewords as read and as corrected (data, syndrome). -/
structure ScrubFix where
  target : Nat
  inst : Nat
  idx : Nat
  read : List (Nat × Nat)
  fixed : List (Nat × Nat)
deriving DecidableEq, Repr

/-- What scrub, raw mode and repair hold beside their registers: memories in raw mode (target, instance, memory within it); raw operations
accepted and not started, by ECC page; passes by engine; corrections not written back, by engine; what a raw WRITE stored in the key store's test row, in a cache slot that holds no line, or in a tag (codewords as
data and syndrome, by target × 2^32 + instance × 2^20 + unit); the frames of configuration memory as loaded (die × 2^17 + frame;
unlisted: zero); by which a frame or its check word differs from what was loaded; frames flagged; the die whose turn is next; the staged repair list, the two copies, the copy being written;
repairs applied from the fuse map and the list, and since the cold power-up. -/
structure Integ where
  rawMode : List (Nat × Nat × Nat) := []
  rawOp : KMap RawOp := []
  passes : KMap ScrubPass := []
  scrubFix : KMap ScrubFix := []
  rawUnit : KMap (List (Nat × Nat)) := []
  frames : KMap (BitVec 1920) := []
  flips : KMap (BitVec 1920) := []
  chkFlips : KMap (BitVec 47) := []
  flags : List Nat := []
  turn : Nat := 0
  staged : List DWord := []
  copies : KMap RepCopy := []
  writing : Option Nat := none
  applied : List DWord := []
  runtime : List DWord := []
deriving DecidableEq, Repr

/-! ### Check engines (chapter 11) -/

/-- A job of a check engine (R265 to R276): mode, polynomial, source and destination (64-bit requester addresses), payload or region length,
bytes to read; the next line to read, lines read ahead of their turn, lines taken in, the check register (scan modes) and the message bytes
taken in (message modes); whether it writes, the bytes to write and the next of their lines; accesses in flight; the outcome
once it is decided, its flag, and the received counter to keep. -/
structure ChkJob where
  mode : Nat
  poly : Nat
  src : Nat
  dst : Nat
  len : Nat
  rdLen : Nat
  nextRd : Nat
  buf : KMap Line
  taken : Nat
  crc : Nat
  msg : List Byte
  writing : Bool
  nextWr : Nat
  flight : Nat
  outcome : Nat
  flag : Nat
  rx : Option Nat
deriving DecidableEq, Repr

/-! ### Lanes (chapter 12) -/

/-- A word of a fabric lane port's channel (R281): data with its bytes in order, start and end of frame, bytes not valid in an EOF word, error. -/
structure LaneWord where
  data : BitVec 256
  sof : Bool
  eof : Bool
  empty : BitVec 5
  err : Bool
deriving DecidableEq, Repr

/-- What a lane holds beside its registers: uncorrectable codewords in succession (R283); the last probe, how many identical ones came, whether
the three acknowledging ones are sent, how many came (R291); the receive FIFO; in RAW framing the bytes of a word not complete, the
bytes of the frame so far and whether it was admitted (R298); the next data carries ERR (R283); a PAUSE is in force (R299); an injection is
pending (R303); a lane reset has stopped rate injection until MODE changes (R303, R311); the checker's error count (R302). -/
structure Lane where
  uncorr : Nat := 0
  probe : Option (BitVec 10 × BitVec 12) := none
  probes : Nat := 0
  ackSent : Bool := false
  acksIn : Nat := 0
  fifo : List LaneWord := []
  rawBuf : List Byte := []
  rawFill : Nat := 0
  rawAdmit : Bool := false
  errMark : Bool := false
  paused : Bool := false
  inject : Bool := false
  rateStop : Bool := false
  errs : Nat := 0
deriving DecidableEq, Repr

/-- What a lane sends of its own accord: a probe, with its rates and BURST_NS; three acknowledging ones; a PAUSE frame; injected bit errors; a word of its receive channel; the
answer to a coefficient request (at its limit or not); the idle-entry marker; a training burst; an error code that ends a frame; a PRBS31
word. -/
inductive LaneOut where
  | probeAck | pause (quanta : BitVec 16) (sa : BitVec 48) | inject (bits : Nat) | word (w : LaneWord) | coef (limit : Bool)
  | probe (rates : BitVec 10) (burst : BitVec 12) | idleMarker | burst | errorCode | prbsWord
deriving DecidableEq, Repr

/-! ### The host port (R304 to R310) -/

/-- What a PCIe function's configuration space holds that the block acts on (R305, R309, R310): Memory Space and Bus Master Enable,
MSI-X Enable and Function Mask, the VFs enabled of a physical function, errors logged by AER. -/
structure HostFn where
  memEn : Bool
  busMaster : Bool
  msixEn : Bool
  msixMask : Bool
  numVfs : Nat
  corrErr : Nat
  uncErr : Nat
deriving DecidableEq, Repr

/-- A piece of a host request (R307): function, ring request, relaxed ordering, and for a read the PCIe tag and the place of
the piece in its completion; `dead`: a reset of its function has come since (R310); its order among the pieces; its tenant. -/
structure HostPiece where
  fn : Nat
  typ : ReqType
  r : EpReq
  ro : Bool
  tag : Nat
  lo : Nat
  n : Nat
  dead : Bool
  ord : Nat
  tid : BitVec 9
deriving DecidableEq, Repr

/-- A host read that awaits its completion: pieces missing, bytes, the outcome so far (0 good, 1 UR, 2 CA, 3 poisoned). -/
structure HostRead where
  missing : Nat
  bytes : List Byte
  outcome : Nat
deriving DecidableEq, Repr

/-- The host port: functions; MSI-X table words by function, and pending vectors; pieces waiting, in order; pieces on the ring by end point
tag; reads by function and tag; the destination of a function's latest posted write. -/
structure HostPort where
  table : KMap Word := []
  wait : List HostPiece := []
  out : KMap HostPiece := []
  reads : KMap HostRead := []
  last : KMap Nat := []
deriving DecidableEq, Repr

/-! ### The UCIe site (chapter 13) -/

/-- What a module holds beside its registers (R322 to R326): whether the partner's capabilities have come; whether ENABLE = 0 stops it; flits that wait; data units sent and not
acknowledged; the next SEQ; flits sent by VC (REQ, RSP, POST, MGMT) and the partner's latest counts of freed entries (R323: REQ
in the lowest byte); the next SEQ expected, failures of it in succession, whether NAK is sent; entries freed here by VC; the
first flit of a masked write whose second has not come (R145). -/
structure UciState where
  capsIn : Bool := false
  stops : Bool := false
  wait : List (BitVec 640) := []
  replay : List (Byte × List (BitVec 640)) := []
  txSeq : Byte := 0
  sent : BitVec 32 := 0
  cred : BitVec 32 := 0
  rxSeq : Byte := 0
  fails : Nat := 0
  nak : Bool := false
  freed : BitVec 32 := 0
  half : Option (BitVec 640) := none
deriving DecidableEq, Repr

/-! ### Tequel (chapter 14) -/

/-- A frame: its 128-bit header (Table 14.2) and payload. -/
structure Frame where
  hdr : BitVec 128
  payload : Line
deriving DecidableEq, Repr

/-- What a span holds beside its registers (R332, R333): frames that wait to be sent; data blocks sent and not acknowledged, by SEQ; the next
SEQ; blocks sent by class (CT, RS, RQ) and the partner's latest counts of freed entries; the next SEQ expected, blocks received
ahead of it, whether NAK is sent; entries freed here by class; lanes of the span excluded until it is disabled (R331); the trailer sent last
(NAK, ACK, CREDIT). -/
structure SpanState where
  wait : List Frame := []
  replay : List (Byte × Frame) := []
  txSeq : Byte := 0
  sentCT : Byte := 0
  sentRS : Byte := 0
  sentRQ : Byte := 0
  credCT : Byte := 0
  credRS : Byte := 0
  credRQ : Byte := 0
  rxSeq : Byte := 0
  ahead : List (Byte × Frame) := []
  nak : Bool := false
  freedCT : Byte := 0
  freedRS : Byte := 0
  freedRQ : Byte := 0
  excluded : List Nat := []
  shown : Bool × Byte × BitVec 24 := (false, 255, 0)
deriving DecidableEq, Repr

/-- A request that waits for credits of a link queue, or for its response: the ring transaction, if its requester still waits (R338, R343);
the key pair of its slot as the slot check found it, none where the queue has been written since and the check is due again (R229). -/
structure OutReq where
  txn : Option TxnKey
  pair : Option (BitVec 512)
  posted : Bool
  typ : ReqType
  addr : PhysAddr
  len : BitVec 3
  data : Line
  be : BitVec 64
deriving DecidableEq, Repr

/-- An access that a queue has issued to the local rings for its peer, with its result once there is one (R342): its tag, the offset, whether
it reads, whether it is posted; `bare`: a request refused at receipt, whose answer needs no slot (log 140). -/
structure InReq where
  tag : Byte
  offset : Nat
  read : Bool
  posted : Bool
  result : Option (Status × Line)
  bare : Bool := false
deriving DecidableEq, Repr

/-- A link queue (R337 to R343): peer, configuration and credits as Q_PEER, Q_CFG and Q_CRED hold them; sequences with their wrap counts
(R220); credits to send; received frames not processed; the header frame a WD belongs to; requests that wait for
credits; requests that await their response, in order; accesses made for the peer, in order; the next tag; the count of entries freed and the
count told to the peer last; the count applied from the peer. -/
structure LinkQueue where
  peer : Word := 0
  cfg : Word := 0
  rxCredits : Byte := 16
  tx : BitVec 64 := 0
  rx : BitVec 64 := 0
  txAvail : Nat := 0
  held : List (Frame × BitVec 512) := []
  header : Option Frame := none
  wait : List OutReq := []
  out : List OutReq := []
  inn : List InReq := []
  tag : Byte := 0
  freed : BitVec 16 := 0
  told : BitVec 16 := 0
  applied : BitVec 16 := 0
deriving DecidableEq, Repr

/-- A record of the PERR queue (R343). -/
structure PerrRec where
  offset : Nat
  status : Status
  queue : Nat
deriving DecidableEq, Repr

/-- A control or credit frame that has reached this node and is not processed yet. -/
inductive CtMsg where
  | hello (h : Hello) | claim (c : Claim) (round : Byte) | report (r : Report) | assign (serial : BitVec 64) (id : BitVec 14)
  | topo (epoch : BitVec 24) (edges : List (BitVec 14 × BitVec 14)) | beacon (b : Beacon) | join (r : Report)
  | linkdown (rep nbr : BitVec 14) (sp : Byte) | credit (src : BitVec 14) (entries : List (BitVec 32))
deriving DecidableEq, Repr

/-- What a node is in an election (Table 14.4): follower, claimant in a round, claimant backing off. -/
inductive ElectRole where
  | none | claiming | backoff
deriving DecidableEq, Repr

/-- The network (R346 to R348): role and round; whether a CLAIM came in this round; the best claim seen (priority, serial); the lamplighter's own
claim; the span of the parent; the child span of a serial; at the lamplighter the reports held, the IDs given by serial, the IDs freed only
later and whether changes wait for an epoch; the epoch held, its edges and their announced count; the serial of each span's neighbour; the ID that queues are bound under. -/
structure Net where
  role : ElectRole := .none
  round : Byte := 0
  best : Option (Byte × BitVec 64) := none
  leader : Option (Byte × BitVec 64) := none
  parent : Option Nat := none
  child : KMap Nat := []
  reports : List Report := []
  ids : KMap (BitVec 14) := []
  lost : List (BitVec 14) := []
  changed : Bool := false
  epoch : BitVec 24 := 0
  edges : List (BitVec 14 × BitVec 14) := []
  edgeEpoch : BitVec 24 := 0
  count : Option (BitVec 32) := none
  nbrSerial : KMap (BitVec 64) := []
  bound : Option (BitVec 14) := none
deriving DecidableEq, Repr

/-- The Tequel engine: spans, link queues, routing table (unlisted entries 0x1E), messages received, PERR records, the network. -/
structure Tequel where
  spans : KMap SpanState := []
  queues : KMap LinkQueue := []
  routes : KMap (BitVec 5) := []
  inbox : List (Nat × CtMsg) := []
  perr : List PerrRec := []
  net : Net := {}
deriving DecidableEq, Repr

/-! ### Clocks (chapter 15) -/

/-- What the clock system holds beside its registers: the tracked reference was released and no REF_PRIO write has followed (R359); SYSREF
is declared lost; the 1 µs hold has ended (R369); the step of SAFE_WAIT (0 none, 1 waits for a master input, 2 relocks, 3 step 5 has
ended, Table 15.5); islands that a WICK opened and that close again when idle (R366); DRAM controllers that retrain before they serve again
(R370). -/
structure Clocks where
  released : Bool := false
  lost : Bool := false
  failed : Bool := false
  safeStep : Nat := 0
  woken : List Island := []
  retrain : List Nat := []
deriving DecidableEq, Repr

/-! ### The NV store and start-up (chapter 16) -/

/-- A block of the NV store: its data, its stored check bits XOR those of its data (Table 10.1), and whether its program was aborted, so that it
fails its code (R406). -/
structure NvBlock where
  data : Line := 0
  diff : BitVec 64 := 0
  torn : Bool := false
deriving DecidableEq, Repr

/-- A block program in flight (R403): the ring write that started it, the block, the data. -/
structure NvProg where
  txn : TxnKey
  block : Nat
  data : Line
deriving DecidableEq, Repr

/-- The NV store: blocks (unlisted: zero, valid), programs in flight, the block a service programs, the pointer copy a FLIP programs (byte
offset, content), blocks of listed sectors programmed since they were listed. -/
structure Nv where
  blocks : KMap NvBlock := []
  progs : List NvProg := []
  flip : Option (Nat × Line) := none
  renewed : List Nat := []
deriving DecidableEq, Repr

/-- A section of an image (Table 16.7). -/
structure Section where
  typ : Nat
  target : Nat
  aux : Bool
  off : Nat
  len : Nat
  check : Nat
deriving DecidableEq, Repr

/-- An image that has passed its header checks: its source (1 bank 0, 2 bank 1, 3 host, 4 partial), lengths, identity, the region it is bound to,
unwrapped image key and IV, sections, units used, register values; whether its frames have declared only legal attributes (R84); and what step 8 will find
(0 good, or the reason). -/
structure Image where
  src : Nat
  len : Nat
  auxLen : Nat
  id : Word
  svn : Nat
  die : Nat
  region : Nat
  key : Option (BitVec 256)
  iv : BitVec 96
  sections : List Section
  resources : BitVec 256
  regs : List (Nat × Nat × Word)
  declOk : Bool
  verdict : Nat
deriving DecidableEq, Repr

/-- A partial load (R400): the image's address, the region, the bytes read so far, the image once its header is checked, whether a read is on its
way, whether the copy has ended. -/
structure PartLoad where
  base : Nat
  die : Nat
  region : Nat
  bytes : List Byte
  img : Option Image
  waiting : Bool
  copied : Bool
deriving DecidableEq, Repr

/-- Start-up (R376 to R387, R397): why the device is held in reset (0 it is not, 1 before T0, 2 RESET_N, 3 thermal trip, 4 essential unit
failed, 5 no VCC_AUX); RESET_N as filtered is low; step 5 has ended; the taper running, whether in the full form, units and repairs of this run; self-test has ended; sources
tried; the image being loaded, whether verified; the running full image; the host's stream, its chunk buffer, the chunk announced; user logic waits
for DONE; the partial load in progress; the boot function is presented (R382); user logic has waited WAIT_MS for DONE, and whether the image asked for LOCAL mode (R385). -/
structure Boot where
  held : Nat := 0
  resetLow : Bool := false
  refsUp : Bool := false
  taper : Option Nat := none
  full : Bool := false
  bistNs : Nat := 0
  t0 : Nat := 0
  failed : List TestUnit := []
  repaired : Bool := false
  bistDone : Bool := false
  tried : List Nat := []
  loading : Option Image := none
  verified : Bool := false
  running : Option Image := none
  stream : List Byte := []
  last : Bool := false
  hbuf : KMap Word := []
  chunk : Option (Nat × Bool) := none
  bootFn : Bool := true
  part : Option PartLoad := none
  doneWait : Bool := false
  localDone : Bool := false
deriving DecidableEq, Repr

/-! ### Power and the ember domain (chapter 17) -/

/-- A domain command in progress (R416): kind (0 die, 1 lantern, 2 quad), index; power-on, or off. -/
structure DomCmd where
  kind : Nat
  index : Nat
  on : Bool
deriving DecidableEq, Repr

/-- The power manager: the domain command in progress; skips demanded by each zone (R410); commands that answer WICKs and wait. -/
structure Power where
  cmd : Option DomCmd := none
  demand : KMap Nat := []
deriving DecidableEq, Repr

/-- An entry of the event log (R432). -/
structure EmberRec where
  ts : BitVec 64
  evt : Word
deriving DecidableEq, Repr

/-- The ember domain (R426 to R434): the time counter less that of the block's ns, the log with the oldest entry first, the KEK registers, the
cause of the last loss of main power, whether the domain runs from VBAT, whether VBAT is below 2.2 V, the NV sectors aborted. -/
structure Ember where
  lost : Bool := false
  start : Nat := 0
  log : List EmberRec := [⟨0, 0x01000000⟩]
  kekw : KMap Word := []
  cause : Nat := 0
  onVbat : Bool := false
  low : Bool := false
  aborted : List Nat := []
deriving DecidableEq, Repr

/-! ### Management pairs and service states (chapter 18) -/

/-- What fault handling holds: the active management pair; pairs held out; pairs in quarantine; the checkpoint (R444); a takeover that has not resumed; segments in
quarantine (stop, ring); the attachment points that hold flows of the segment being readmitted, and those that still owe a report; interfaces whose
credit ramp runs (key of interface, steps left); the service command in progress (OP, KIND, STOP, SUB). -/
structure Pairs where
  active : Nat := 0
  out : List Nat := []
  quar : List Nat := []
  checkpoint : BitVec 64 := 0
  takeover : Bool := false
  segQuar : List (Nat × Nat) := []
  held : List Nat := []
  owed : List Nat := []
  ramps : KMap Nat := []
  cmd : Option (Nat × Nat × Nat × Nat) := none
deriving DecidableEq, Repr

/-! ### Alarms (R456) -/

/-- A record of the alarm queue: code, page, detail, ns from T0. -/
structure AlarmRec where
  code : Nat
  page : Nat
  detail : Word
  ns : Nat
deriving DecidableEq, Repr

/-! ### Management paths (chapter 19) -/

/-- A request that the firmware has taken from a mailbox channel (R482): service, length, data, the requester; `orphan`: its channel has been freed
since, so its response is discarded (R483). -/
structure MbxReq where
  service : Nat
  len : Nat
  data : List Byte
  agent : Agent
  orphan : Bool
deriving DecidableEq, Repr

/-! ### I2C, USB and JTAG (chapter 19), self-test (chapter 20), pins (chapter 21) -/

/-- The management ports: USB address and configuration, USB RESULT (status, words written); the latest WINACC access (status, data); the TAP instruction in
force (Table 20.3); what the boundary register has captured and what its cells hold (R496); pins of GPIO banks as passed to the fabric; level of PERST_N as filtered; the ns
at which the analogue test buses connect again (R498); the firmware's build number; the address
at which the I2C target answers until the next STOP (Table 19.14). -/
structure Mgmt where
  usbAddr : Byte := 0
  usbConf : Byte := 0
  usbRes : Nat := 0
  usbWords : Nat := 0
  jtagStat : Nat := 0
  jtagData : Word := 0
  tap : Byte := 0x01
  bsrIn : List (BPin × Bool) := []
  bsr : List (BPin × Bool) := []
  gpio : KMap (BitVec 48) := []
  perst : Bool := false
  atbEnd : Nat := 0
  fwBuild : Word := 0
  i2cAt : Nat := 0x5A
deriving DecidableEq, Repr

/-- Self-test: the failure log (Table 20.2), the field test in progress (kind, index). -/
structure Bist where
  log : List (Word × Word) := []
  field : Option (Nat × Nat) := none
deriving DecidableEq, Repr

/-! ### The block -/

/-- What the block has sent out of itself, the latest first. -/
inductive Emit where
  | msix (fn vector : Nat) (addr : BitVec 64) (data : Word)
  | completion (fn tag outcome : Nat) (data : List Byte)
  | config (fn answer : Nat)
  | i2c (l : List Byte)
  | i2cNack
  | usb (l : List Byte)
  | usbStall
  | tapOut (w : Word)
  | beat (eng port : Nat) (b : Beat)
  | portReq (port : Nat) (tag : Byte) (typ : ReqType) (addr : PhysAddr) (len : BitVec 3) (data : Line) (be : BitVec 64)
  | portRsp (port : Nat) (tag : Byte) (st : Status) (data : Line)
  | portEvt (port : Nat) (addr : PhysAddr) (kid : BitVec 10) (st : Status)
  | xdbe (die kind src group : Nat)
  | lane (l : Nat) (o : LaneOut)
  | block (span : Nat) (b : BitVec 768)
  | unit (u : Nat) (b : BitVec 2048)
deriving DecidableEq, Repr

/-! ### User logic (R35 to R37, R47, R48, R52, R53, R55, R62) -/

/-- A fabric clock: one of the 32 device-wide ones, or one of the 8 die-local ones of a die (R53). -/
inductive FabClk where
  | fclk (k : Fin 32)
  | loc (j : Fin 8)
deriving DecidableEq, Repr

/-- What an input of user logic on a die is connected to: a constant; register `k` or LUT `k` (its first or second function) of a site, the
carry out of bit `k` of a site's chain, output `k` of a site memory; a wire that arrives in a crossing group; an isolation site of the die; the
input register of a pin; bit `k` of a memory port's outputs (from 128 on: SBE, DBE, WCOLL, PWCOLL) and the flags of a FIFO; bit `k` of a slice's
outputs (Q, from 48 on OVF_NOW, OVF, WRAP, LSC) and of a column's CEXP. Sites, memories, slices and columns are numbered within the die. -/
inductive Sig where
  | const (b : Bool)
  | reg (site k : Nat)
  | lut (site k : Nat) (second : Bool)
  | carry (site k : Nat)
  | mem (site k : Nat)
  | xing (src group wire : Nat)
  | iso (n : Nat)
  | pin (bank pin : Nat)
  | bm (port k : Nat)
  | fifoFull (mem : Nat)
  | fifoEmpty (mem : Nat)
  | slice (n k : Nat)
  | cexp (col k : Nat)
deriving DecidableEq, Repr

/-- A LUT (R35): its table, whether it is split into two functions of five shared inputs, its inputs. -/
structure Lut where
  table : BitVec 64
  dual : Bool
  ins : List Sig
deriving DecidableEq, Repr

/-- A bank of 8 registers (R35): clock, clock enable, reset, and whether the reset is asynchronous. -/
structure RegBank where
  clk : FabClk
  ce : Sig
  rst : Sig
  async : Bool
deriving DecidableEq, Repr

/-- The modes of a site memory (R37). -/
inductive SiteMode where
  | ram512 | ram256 | ram128 | multi | delay
deriving DecidableEq, Repr

/-- A site memory: mode, image content, write data, write (read/write) address, and the addresses of its read ports or taps. -/
structure SiteMem where
  mode : SiteMode
  init : BitVec 512
  din : List Sig
  waddr : List Sig
  raddr : List (List Sig)
deriving DecidableEq, Repr

/-- A logic site (R35 to R37): LUTs, the image values of its registers, its two banks, what enters its carry chain (the chain of the site to its north),
its site memory. -/
structure Site where
  luts : List Lut
  init : BitVec 16
  bank0 : RegBank
  bank1 : RegBank
  carryIn : Sig
  mem : Option SiteMem
deriving DecidableEq, Repr

/-- A crossing group (R48, R52): sending and receiving die, its number on the shared edge or among the sender's and the receiver's long-line groups,
its clock, its clamp value (none: last value), and what drives its wires on the sending die. -/
structure XGroup where
  src : Nat
  dst : Nat
  outNo : Nat
  inNo : Nat
  fclk : Fin 32
  clamp : Option Bool
  wires : List (Nat × Sig)
deriving DecidableEq, Repr

/-- A pin of a GPIO bank as the design uses it (R55): the die that drives it, its clock, its output and enable, its safe state (none: high impedance). -/
structure PinCfg where
  die : Nat
  fclk : Fin 32
  out : Sig
  oe : Sig
  safe : Option Bool
deriving DecidableEq, Repr

/-- An isolation site in use (R62, R401): what enters it, whether it leads out of its slot's region, the slot on its other side (none: the edge of the
die), its hold value (none: last value). -/
structure IsoCfg where
  src : Sig
  outward : Bool
  other : Option Nat
  hold : Option Bool
deriving DecidableEq, Repr

/-- A fabric-mapped window of the image (R61): base, the power of two of its size, and the attachment point and interface it leads to. -/
structure FabWin where
  base : Nat
  log : Nat
  stop : Nat
  ifc : Nat
deriving DecidableEq, Repr

/-- A child in the gating tree (R365): kind (Table 15.13: 3 ring port, 4 GPIO bank, 5 lane
port, 6 crossing group), device-wide index, die, clock region, the fabric clock of the region it uses, and whether the image marks it live (a group's clock). -/
structure ClkChild where
  kind : Nat
  index : Nat
  die : Nat
  creg : Nat
  fclk : Nat
  live : Bool
deriving DecidableEq, Repr

/-- What the frames of a die declare of its design, its units numbered within the die; `cregs`: the clocks that a clock region selects (R53); `locals`: the FCLK and
the divisor of a die-local clock; `memClks`, `sliceClks`: the clocks of memory ports and slices; `memFrames`: the frames that hold site memory contents
(R38); `regs`: the registers that the image sets without a write (page, offset, value; R57, Table 02.14). -/
structure DieDesign where
  bmMode : List (Nat × BmMode) := []
  slices : List (Nat × SliceDecl) := []
  columns : List (Nat × ColAttr) := []
  sites : List (Nat × Site) := []
  groups : List XGroup := []
  pins : List (Nat × PinCfg) := []
  iso : List (Nat × IsoCfg) := []
  cregs : List (Nat × List FabClk) := []
  locals : List (Nat × Fin 32 × Nat) := []
  memClks : List (Nat × FabClk) := []
  sliceClks : List (Nat × FabClk) := []
  memFrames : List Nat := []
  windows : List FabWin := []
  regions : List (Nat × Nat) := []
  children : List ClkChild := []
  laneClkKhz : List (Nat × Nat) := []
  gpioDefault : List (Nat × BitVec 48) := []
  regs : List (Nat × Nat × Word) := []
deriving DecidableEq, Repr, Inhabited

/-- The fabric design and the register values that the running image declares (chapters 02, 03, 16), its units numbered over the device; regions as (die,
region, slot); the rate of each lane port's clock in kHz (R281); the reset defaults of the input pins of the GPIO banks (R516). -/
structure Design where
  regs : KMap Word := []
  bmMode : KMap BmMode := []
  slices : KMap SliceAttr := []
  columns : KMap ColAttr := []
  sites : KMap Site := []
  groups : List XGroup := []
  pins : KMap PinCfg := []
  iso : KMap IsoCfg := []
  cregs : KMap (List FabClk) := []
  locals : KMap (Fin 32 × Nat) := []
  memClks : KMap FabClk := []
  sliceClks : KMap FabClk := []
  memFrames : List Nat := []
  windows : List FabWin := []
  regions : List (Nat × Nat × Nat) := []
  children : List ClkChild := []
  laneClkKhz : KMap Nat := []
  gpioDefault : KMap (BitVec 48) := []
deriving DecidableEq, Repr

/-- The state of the block. The values given are those after a cold reset (log 2): every register at the reset value of its table
(`State.regReset`), nothing pending, every memory empty. `fuses` holds the registers whose reset value comes from the fuses, where it is not 0. -/
structure State where
  pending : List Instr := []
  ns : Nat := 0
  free : Nat := 0
  partId : Word := 0x09601180
  serialNo : BitVec 64 := 0
  fuses : KMap Word := []
  out : List Emit := []
  regs : KMap Word := []
  hiRec : KMap Word := []
  design : Design := {}
  fab : Fabric := {}
  integ : Integ := {}
  engs : Engines := {}
  rings : Rings := {}
  coh : Caches := {}
  dram : Dram := {}
  keys : Keys := {}
  chk : KMap ChkJob := []
  mbx : KMap MbxReq := []
  wicks : List Island := []
  uci : KMap UciState := []
  lanes : KMap Lane := []
  laneGroups : BitVec 12 := 0
  tq : Tequel := {}
  fns : KMap HostFn := []
  msixPend : List Nat := []
  alarms : List AlarmRec := []
  levelAlarms : List (Nat × Nat) := []
  clk : Clocks := {}
  nv : Nv := {}
  boot : Boot := {}
  pwr : Power := {}
  ember : Ember := {}
  pairs : Pairs := {}
  mgmt : Mgmt := {}
  bist : Bist := {}
  host : HostPort := {}
deriving DecidableEq, Repr

/-- The block right after a cold reset. -/
def State.reset : State := {}

end Sys2Proof.Machine
end

