-- ==== Sys2Proof/Machine/RegTable.lean ====
section
/-!
DEFINITION. The register map: every register and every field of the register tables of spec/ (the file and table are
named beside each group), the page kinds of Table 19.1, and what a register holds at reset. Offsets are in bytes within a
page of 4 KiB (R9). `Reg.<PAGE>_<REGISTER>` is an offset, `Fld.<PAGE>_<REGISTER>_<FIELD>` a field.
-/
namespace Sys2Proof.Machine


/-! ### DEV0 (spec file 00, Table 00.2) -/
def Reg.DEV0_PART_ID : Nat := 0x080
def Fld.DEV0_PART_ID_FAMILY : Fld := ⟨0x080, 24, 8⟩
def Fld.DEV0_PART_ID_MEMBER : Fld := ⟨0x080, 16, 8⟩
def Fld.DEV0_PART_ID_SPEED : Fld := ⟨0x080, 12, 4⟩
def Fld.DEV0_PART_ID_TEMP : Fld := ⟨0x080, 8, 4⟩
def Fld.DEV0_PART_ID_UCIE_POP : Fld := ⟨0x080, 7, 1⟩

/-! ### FABCTL (spec file 02, Table 02.10) -/
def Reg.FABCTL_DIE_STAT : Nat := 0x080
def Fld.FABCTL_DIE_STAT_BIST_FAIL : Fld := ⟨0x080, 4, 1⟩
def Fld.FABCTL_DIE_STAT_CFG_DONE : Fld := ⟨0x080, 3, 1⟩
def Fld.FABCTL_DIE_STAT_PWR_STATE : Fld := ⟨0x080, 0, 3⟩
def Reg.FABCTL_CREG_GATE : Nat := 0x084
def Fld.FABCTL_CREG_GATE_GATE : Fld := ⟨0x084, 0, 16⟩
def Reg.FABCTL_CREG_ACTIVE : Nat := 0x088
def Fld.FABCTL_CREG_ACTIVE_ACTIVE : Fld := ⟨0x088, 0, 16⟩

/-! ### FABXNG (spec file 02, Table 02.13) -/
def Reg.FABXNG_XNG_CLAMPED : Nat := 0x080
def Fld.FABXNG_XNG_CLAMPED_CLAMPED : Fld := ⟨0x080, 0, 8⟩
def Reg.FABXNG_XNG_GCLK_USE : Nat := 0x084
def Fld.FABXNG_XNG_GCLK_USE_GCLK_USE : Fld := ⟨0x084, 0, 32⟩

/-! ### FABMEM (spec file 02, Table 02.15) -/
def Reg.FABMEM_BM_ECC_CTRL : Nat := 0x080
def Fld.FABMEM_BM_ECC_CTRL_DM_WB_EN : Fld := ⟨0x080, 1, 1⟩
def Fld.FABMEM_BM_ECC_CTRL_BM_WB_EN : Fld := ⟨0x080, 0, 1⟩
def Reg.FABMEM_LAST_ERR_LOC : Nat := 0x084
def Fld.FABMEM_LAST_ERR_LOC_VALID : Fld := ⟨0x084, 31, 1⟩
def Fld.FABMEM_LAST_ERR_LOC_DEEP : Fld := ⟨0x084, 30, 1⟩
def Fld.FABMEM_LAST_ERR_LOC_DBE : Fld := ⟨0x084, 29, 1⟩
def Fld.FABMEM_LAST_ERR_LOC_INDEX : Fld := ⟨0x084, 17, 12⟩
def Fld.FABMEM_LAST_ERR_LOC_ADDR : Fld := ⟨0x084, 0, 14⟩
def Reg.FABMEM_LAST_ERR_SYN : Nat := 0x088
def Fld.FABMEM_LAST_ERR_SYN_SYNDROME : Fld := ⟨0x088, 0, 8⟩

/-! ### FABPRT (spec file 02, Table 02.17) -/
def Reg.FABPRT_PORT_CTRL : Nat := 0x080
def Fld.FABPRT_PORT_CTRL_CACHED : Fld := ⟨0x080, 3, 1⟩
def Fld.FABPRT_PORT_CTRL_MODE : Fld := ⟨0x080, 1, 2⟩
def Fld.FABPRT_PORT_CTRL_ENABLE : Fld := ⟨0x080, 0, 1⟩
def Reg.FABPRT_PORT_TENANT : Nat := 0x084
def Fld.FABPRT_PORT_TENANT_TID : Fld := ⟨0x084, 0, 9⟩
def Reg.FABPRT_TGT_TIMEOUT : Nat := 0x088
def Fld.FABPRT_TGT_TIMEOUT_TIMEOUT_US : Fld := ⟨0x088, 0, 14⟩
def Reg.FABPRT_RSP_SLOTS : Nat := 0x08C
def Fld.FABPRT_RSP_SLOTS_FREE : Fld := ⟨0x08C, 0, 8⟩
def Reg.FABPRT_OUTSTANDING : Nat := 0x090
def Fld.FABPRT_OUTSTANDING_COUNT : Fld := ⟨0x090, 0, 8⟩

/-! ### FABSLT (spec file 02, Table 02.19) -/
def Reg.FABSLT_SLOT_STAT (i : Nat) : Nat := 0x080 + 0x4 * i
def Fld.FABSLT_SLOT_STAT_REGION (i : Nat) : Fld := ⟨0x080 + 0x4 * i, 8, 5⟩
def Fld.FABSLT_SLOT_STAT_STATE (i : Nat) : Fld := ⟨0x080 + 0x4 * i, 0, 3⟩

/-! ### ENG (spec file 05, Table 05.6) -/
def Reg.ENG_CMD : Nat := 0x080
def Fld.ENG_CMD_STEP : Fld := ⟨0x080, 2, 1⟩
def Fld.ENG_CMD_RESUME : Fld := ⟨0x080, 1, 1⟩
def Fld.ENG_CMD_HALT : Fld := ⟨0x080, 0, 1⟩
def Reg.ENG_STATUS : Nat := 0x084
def Fld.ENG_STATUS_FAULT : Fld := ⟨0x084, 12, 4⟩
def Fld.ENG_STATUS_REPLAY : Fld := ⟨0x084, 9, 1⟩
def Fld.ENG_STATUS_SHIFT_ABORTED : Fld := ⟨0x084, 8, 1⟩
def Fld.ENG_STATUS_STATE : Fld := ⟨0x084, 0, 3⟩
def Reg.ENG_PC : Nat := 0x088
def Fld.ENG_PC_PC : Fld := ⟨0x088, 0, 12⟩
def Reg.ENG_FAULT_PC : Nat := 0x08C
def Fld.ENG_FAULT_PC_FAULT_PC : Fld := ⟨0x08C, 0, 12⟩
def Reg.ENG_HALT_TIMEOUT : Nat := 0x090
def Fld.ENG_HALT_TIMEOUT_CYCLES : Fld := ⟨0x090, 0, 20⟩
def Reg.ENG_ENTRY : Nat := 0x094
def Fld.ENG_ENTRY_ENTRY : Fld := ⟨0x094, 0, 12⟩
def Reg.ENG_WARM_LEN : Nat := 0x098
def Fld.ENG_WARM_LEN_OUT1 : Fld := ⟨0x098, 16, 12⟩
def Fld.ENG_WARM_LEN_OUT0 : Fld := ⟨0x098, 0, 12⟩
def Reg.ENG_DLY_RANGE : Nat := 0x09C
def Fld.ENG_DLY_RANGE_LEN : Fld := ⟨0x09C, 16, 13⟩
def Fld.ENG_DLY_RANGE_BASE : Fld := ⟨0x09C, 0, 12⟩
def Reg.ENG_SHIFT_SAVED : Nat := 0x0A0
def Fld.ENG_SHIFT_SAVED_V : Fld := ⟨0x0A0, 8, 6⟩
def Fld.ENG_SHIFT_SAVED_K : Fld := ⟨0x0A0, 7, 1⟩
def Fld.ENG_SHIFT_SAVED_N_M1 : Fld := ⟨0x0A0, 3, 4⟩
def Fld.ENG_SHIFT_SAVED_B_M1 : Fld := ⟨0x0A0, 0, 3⟩

/-! ### ENGSR (spec file 05, Table 05.8) -/
def Reg.ENGSR_SR (i : Nat) : Nat := 0x080 + 0x4 * i
def Fld.ENGSR_SR_W (i : Nat) : Fld := ⟨0x080 + 0x4 * i, 0, 32⟩
def Reg.ENGSR_S (i : Nat) : Nat := 0x100 + 0x4 * i
def Fld.ENGSR_S_W (i : Nat) : Fld := ⟨0x100 + 0x4 * i, 0, 32⟩
def Reg.ENGSR_E0_3 : Nat := 0x180
def Fld.ENGSR_E0_3_W : Fld := ⟨0x180, 0, 32⟩
def Reg.ENGSR_E4_7 : Nat := 0x184
def Fld.ENGSR_E4_7_W : Fld := ⟨0x184, 0, 32⟩
def Reg.ENGSR_PPHYS : Nat := 0x188
def Fld.ENGSR_PPHYS_W : Fld := ⟨0x188, 0, 32⟩
def Reg.ENGSR_VA_SEL : Nat := 0x1C0
def Fld.ENGSR_VA_SEL_W : Fld := ⟨0x1C0, 0, 32⟩
def Reg.ENGSR_VA_DATA (i : Nat) : Nat := 0x200 + 0x4 * i
def Fld.ENGSR_VA_DATA_W (i : Nat) : Fld := ⟨0x200 + 0x4 * i, 0, 32⟩

/-! ### LAN (spec file 05, Table 05.9) -/
def Reg.LAN_SYNC_CMD : Nat := 0x080
def Fld.LAN_SYNC_CMD_SYNC : Fld := ⟨0x080, 0, 1⟩
def Reg.LAN_SYNC_CTRL : Nat := 0x084
def Fld.LAN_SYNC_CTRL_FAB_SYNC_EN : Fld := ⟨0x084, 8, 1⟩
def Fld.LAN_SYNC_CTRL_FLUSH_IN : Fld := ⟨0x084, 4, 1⟩
def Fld.LAN_SYNC_CTRL_RUN_MASK : Fld := ⟨0x084, 0, 4⟩
def Reg.LAN_SYNC_STAT : Nat := 0x088
def Fld.LAN_SYNC_STAT_BUSY : Fld := ⟨0x088, 4, 1⟩
def Fld.LAN_SYNC_STAT_DONE : Fld := ⟨0x088, 0, 4⟩
def Reg.LAN_LAN_STAT : Nat := 0x08C
def Fld.LAN_LAN_STAT_PWR : Fld := ⟨0x08C, 0, 2⟩

/-! ### STOP (spec file 06, Table 06.12) -/
def Reg.STOP_STOP_INFO : Nat := 0x080
def Fld.STOP_STOP_INFO_IFTYPE : Fld := ⟨0x080, 0, 16⟩
def Reg.STOP_IF_STAT : Nat := 0x084
def Fld.STOP_IF_STAT_STATE : Fld := ⟨0x084, 0, 16⟩
def Reg.STOP_IF_CTRL : Nat := 0x088
def Fld.STOP_IF_CTRL_WAKE_EN : Fld := ⟨0x088, 4, 4⟩
def Reg.STOP_SNUFF_CTRL : Nat := 0x08C
def Fld.STOP_SNUFF_CTRL_ON : Fld := ⟨0x08C, 4, 4⟩
def Fld.STOP_SNUFF_CTRL_SNUFF : Fld := ⟨0x08C, 0, 4⟩
def Reg.STOP_SNUFF_STAT : Nat := 0x090
def Fld.STOP_SNUFF_STAT_TO : Fld := ⟨0x090, 4, 4⟩
def Fld.STOP_SNUFF_STAT_DONE : Fld := ⟨0x090, 0, 4⟩
def Reg.STOP_SNUFF_TIMEOUT : Nat := 0x094
def Fld.STOP_SNUFF_TIMEOUT_US : Fld := ⟨0x094, 0, 14⟩
def Reg.STOP_REQ_TIMEOUT : Nat := 0x098
def Fld.STOP_REQ_TIMEOUT_US : Fld := ⟨0x098, 0, 14⟩
def Reg.STOP_FENCE : Nat := 0x09C
def Fld.STOP_FENCE_BUSY : Fld := ⟨0x09C, 4, 4⟩
def Fld.STOP_FENCE_START : Fld := ⟨0x09C, 0, 4⟩
def Reg.STOP_POOLS : Nat := 0x0A0
def Fld.STOP_POOLS_POST_FREE : Fld := ⟨0x0A0, 20, 9⟩
def Fld.STOP_POOLS_REQ_FREE : Fld := ⟨0x0A0, 10, 9⟩
def Fld.STOP_POOLS_MGMT_FREE : Fld := ⟨0x0A0, 0, 5⟩
def Reg.STOP_PARK_STAT : Nat := 0x0A4
def Fld.STOP_PARK_STAT_PARKED : Fld := ⟨0x0A4, 0, 4⟩
def Reg.STOP_SEG_FAIL : Nat := 0x0A8
def Fld.STOP_SEG_FAIL_SEG : Fld := ⟨0x0A8, 0, 16⟩
def Reg.STOP_WIN_BASE (i : Nat) : Nat := 0x100 + 0x10 * i
def Fld.STOP_WIN_BASE_BASE (i : Nat) : Fld := ⟨0x100 + 0x10 * i, 0, 32⟩
def Reg.STOP_WIN_LIMIT (i : Nat) : Nat := 0x104 + 0x10 * i
def Fld.STOP_WIN_LIMIT_LIMIT (i : Nat) : Fld := ⟨0x104 + 0x10 * i, 0, 32⟩
def Reg.STOP_WIN_TEN (i : Nat) : Nat := 0x108 + 0x10 * i
def Fld.STOP_WIN_TEN_EN (i : Nat) : Fld := ⟨0x108 + 0x10 * i, 31, 1⟩
def Fld.STOP_WIN_TEN_R (i : Nat) : Fld := ⟨0x108 + 0x10 * i, 30, 1⟩
def Fld.STOP_WIN_TEN_W (i : Nat) : Fld := ⟨0x108 + 0x10 * i, 29, 1⟩
def Fld.STOP_WIN_TEN_MASK (i : Nat) : Fld := ⟨0x108 + 0x10 * i, 9, 9⟩
def Fld.STOP_WIN_TEN_TID (i : Nat) : Fld := ⟨0x108 + 0x10 * i, 0, 9⟩

/-! ### SC (spec file 07, Table 07.8) -/
def Reg.SC_SC_STAT : Nat := 0x080
def Fld.SC_SC_STAT_WALK : Fld := ⟨0x080, 16, 8⟩
def Fld.SC_SC_STAT_TT_BUSY : Fld := ⟨0x080, 0, 7⟩
def Reg.SC_LAST_POISON_LO : Nat := 0x084
def Fld.SC_LAST_POISON_LO_ADDR_LO : Fld := ⟨0x084, 6, 26⟩
def Reg.SC_LAST_POISON_HI : Nat := 0x088
def Fld.SC_LAST_POISON_HI_VALID : Fld := ⟨0x088, 31, 1⟩
def Fld.SC_LAST_POISON_HI_ADDR_HI : Fld := ⟨0x088, 0, 16⟩

/-! ### DC (spec file 07, Table 07.10) -/
def Reg.DC_DC_CTRL : Nat := 0x080
def Fld.DC_DC_CTRL_FLUSH : Fld := ⟨0x080, 0, 1⟩
def Reg.DC_DC_STAT : Nat := 0x084
def Fld.DC_DC_STAT_ABSENT : Fld := ⟨0x084, 31, 1⟩
def Fld.DC_DC_STAT_STATE : Fld := ⟨0x084, 0, 3⟩
def Reg.DC_WB_LEFT : Nat := 0x088
def Fld.DC_WB_LEFT_LINES : Fld := ⟨0x088, 0, 19⟩
def Reg.DC_SNP_HELD : Nat := 0x08C
def Fld.DC_SNP_HELD_COUNT : Fld := ⟨0x08C, 0, 6⟩

/-! ### DIR (spec file 07, Table 07.12) -/
def Reg.DIR_SC_WAYS (i : Nat) : Nat := 0x080 + 0x4 * i
def Fld.DIR_SC_WAYS_WAYS (i : Nat) : Fld := ⟨0x080 + 0x4 * i, 0, 16⟩
def Reg.DIR_DC_WAYS (i : Nat) : Nat := 0x0A0 + 0x4 * i
def Fld.DIR_DC_WAYS_WAYS (i : Nat) : Fld := ⟨0x0A0 + 0x4 * i, 0, 16⟩
def Reg.DIR_CMO_BASE_LO : Nat := 0x0C0
def Fld.DIR_CMO_BASE_LO_ADDR_LO : Fld := ⟨0x0C0, 6, 26⟩
def Reg.DIR_CMO_BASE_HI : Nat := 0x0C4
def Fld.DIR_CMO_BASE_HI_KID : Fld := ⟨0x0C4, 16, 10⟩
def Fld.DIR_CMO_BASE_HI_ADDR_HI : Fld := ⟨0x0C4, 0, 16⟩
def Reg.DIR_CMO_LEN : Nat := 0x0C8
def Fld.DIR_CMO_LEN_LINES : Fld := ⟨0x0C8, 0, 24⟩
def Reg.DIR_CMO_CTRL : Nat := 0x0CC
def Fld.DIR_CMO_CTRL_BUSY : Fld := ⟨0x0CC, 31, 1⟩
def Fld.DIR_CMO_CTRL_STATUS : Fld := ⟨0x0CC, 29, 2⟩
def Fld.DIR_CMO_CTRL_OP : Fld := ⟨0x0CC, 1, 2⟩
def Fld.DIR_CMO_CTRL_START : Fld := ⟨0x0CC, 0, 1⟩
def Reg.DIR_DIE_LOST : Nat := 0x0D0
def Fld.DIR_DIE_LOST_LOST : Fld := ⟨0x0D0, 0, 8⟩
def Reg.DIR_PART_TABLE (i : Nat) : Nat := 0x200 + 0x4 * i
def Fld.DIR_PART_TABLE_CLASS (i : Nat) : Fld := ⟨0x200 + 0x4 * i, 0, 32⟩

/-! ### CB (spec file 08, Table 08.7) -/
def Reg.CB_CB_STAT : Nat := 0x000
def Fld.CB_CB_STAT_STATE : Fld := ⟨0x000, 0, 3⟩
def Reg.CB_PAGE_POL : Nat := 0x004
def Fld.CB_PAGE_POL_IDLE_NS : Fld := ⟨0x004, 0, 10⟩
def Reg.CB_PWR_POL : Nat := 0x008
def Fld.CB_PWR_POL_SR_US : Fld := ⟨0x008, 16, 12⟩
def Fld.CB_PWR_POL_PD_NS : Fld := ⟨0x008, 0, 12⟩
def Reg.CB_NREF : Nat := 0x00C
def Fld.CB_NREF_EN : Fld := ⟨0x00C, 16, 1⟩
def Fld.CB_NREF_DIST : Fld := ⟨0x00C, 8, 1⟩
def Fld.CB_NREF_K : Fld := ⟨0x00C, 0, 5⟩
def Reg.CB_REF : Nat := 0x010
def Fld.CB_REF_PENDING : Fld := ⟨0x010, 12, 4⟩
def Fld.CB_REF_POSTPONE_MAX : Fld := ⟨0x010, 8, 4⟩
def Fld.CB_REF_TEMP_2X : Fld := ⟨0x010, 4, 1⟩
def Fld.CB_REF_MODE : Fld := ⟨0x010, 0, 2⟩
def Reg.CB_TRAIN : Nat := 0x014
def Fld.CB_TRAIN_BUSY : Fld := ⟨0x014, 31, 1⟩
def Fld.CB_TRAIN_RESULT : Fld := ⟨0x014, 29, 2⟩
def Fld.CB_TRAIN_PERIOD_MS : Fld := ⟨0x014, 16, 12⟩
def Fld.CB_TRAIN_START : Fld := ⟨0x014, 0, 1⟩
def Reg.CB_ERR_LO : Nat := 0x018
def Fld.CB_ERR_LO_ADDR_LO : Fld := ⟨0x018, 6, 26⟩
def Reg.CB_ERR_HI : Nat := 0x01C
def Fld.CB_ERR_HI_VALID : Fld := ⟨0x01C, 31, 1⟩
def Fld.CB_ERR_HI_UE : Fld := ⟨0x01C, 30, 1⟩
def Fld.CB_ERR_HI_POIS : Fld := ⟨0x01C, 29, 1⟩
def Fld.CB_ERR_HI_SYMBOL : Fld := ⟨0x01C, 24, 4⟩
def Fld.CB_ERR_HI_ADDR_HI : Fld := ⟨0x01C, 0, 16⟩
def Reg.CB_ECC_CTRL : Nat := 0x020
def Fld.CB_ECC_CTRL_CORR_WB : Fld := ⟨0x020, 0, 1⟩

/-! ### STK (spec file 08, Table 08.9) -/
def Reg.STK_STK_STAT : Nat := 0x080
def Fld.STK_STK_STAT_FAIL_STEP : Fld := ⟨0x080, 8, 4⟩
def Fld.STK_STK_STAT_RATE_ACT : Fld := ⟨0x080, 4, 2⟩
def Fld.STK_STK_STAT_STATE : Fld := ⟨0x080, 0, 3⟩
def Reg.STK_SPEED : Nat := 0x084
def Fld.STK_SPEED_RATE : Fld := ⟨0x084, 0, 2⟩
def Reg.STK_LANE_REP : Nat := 0x088
def Fld.STK_LANE_REP_SPARES : Fld := ⟨0x088, 8, 8⟩
def Fld.STK_LANE_REP_REPAIRED : Fld := ⟨0x088, 0, 8⟩

/-! ### DDR (spec file 08, Table 08.9) -/
def Reg.DDR_CH_CFG : Nat := 0x080
def Fld.DDR_CH_CFG_POP : Fld := ⟨0x080, 31, 1⟩
def Fld.DDR_CH_CFG_SPEED : Fld := ⟨0x080, 8, 2⟩
def Fld.DDR_CH_CFG_RANKS : Fld := ⟨0x080, 4, 2⟩
def Fld.DDR_CH_CFG_DENSITY : Fld := ⟨0x080, 0, 2⟩
def Reg.DDR_CH_STAT : Nat := 0x084
def Fld.DDR_CH_STAT_FAIL_STEP : Fld := ⟨0x084, 8, 4⟩
def Fld.DDR_CH_STAT_STATE : Fld := ⟨0x084, 0, 3⟩
def Reg.DDR_ILV : Nat := 0x088
def Fld.DDR_ILV_SET : Fld := ⟨0x088, 0, 2⟩

/-! ### KEY (spec file 09, Table 09.7) -/
def Reg.KEY_LOAD_CTRL : Nat := 0x080
def Fld.KEY_LOAD_CTRL_START : Fld := ⟨0x080, 31, 1⟩
def Fld.KEY_LOAD_CTRL_SLOT : Fld := ⟨0x080, 0, 10⟩
def Reg.KEY_LOAD_STAT : Nat := 0x084
def Fld.KEY_LOAD_STAT_BUSY : Fld := ⟨0x084, 31, 1⟩
def Fld.KEY_LOAD_STAT_RESULT : Fld := ⟨0x084, 0, 4⟩
def Reg.KEY_KEK_STAT : Nat := 0x088
def Fld.KEY_KEK_STAT_ALARM : Fld := ⟨0x088, 1, 1⟩
def Fld.KEY_KEK_STAT_VALID : Fld := ⟨0x088, 0, 1⟩
def Reg.KEY_EMB_ALARM_ACK : Nat := 0x08C
def Fld.KEY_EMB_ALARM_ACK_ACK : Fld := ⟨0x08C, 0, 1⟩
def Reg.KEY_WRAP (i : Nat) : Nat := 0x100 + 0x4 * i
def Fld.KEY_WRAP_BYTES (i : Nat) : Fld := ⟨0x100 + 0x4 * i, 0, 32⟩

/-! ### SLT (spec file 09, Table 09.9) -/
def Reg.SLT_CFG (i : Nat) : Nat := 0x080 + 0x8 * i
def Fld.SLT_CFG_CMD (i : Nat) : Fld := ⟨0x080 + 0x8 * i, 29, 3⟩
def Fld.SLT_CFG_CLASS (i : Nat) : Fld := ⟨0x080 + 0x8 * i, 4, 2⟩
def Fld.SLT_CFG_STATE (i : Nat) : Fld := ⟨0x080 + 0x8 * i, 0, 3⟩
def Reg.SLT_OWN (i : Nat) : Nat := 0x084 + 0x8 * i
def Fld.SLT_OWN_OWN_MASK (i : Nat) : Fld := ⟨0x084 + 0x8 * i, 9, 9⟩
def Fld.SLT_OWN_OWN_TID (i : Nat) : Fld := ⟨0x084 + 0x8 * i, 0, 9⟩

/-! ### IME (spec file 09, Table 09.11) -/
def Reg.IME_PURGE_STAT : Nat := 0x080
def Fld.IME_PURGE_STAT_BUSY : Fld := ⟨0x080, 31, 1⟩
def Fld.IME_PURGE_STAT_PHASE : Fld := ⟨0x080, 12, 2⟩
def Fld.IME_PURGE_STAT_SLOT : Fld := ⟨0x080, 0, 10⟩
def Reg.IME_VIOL_REC : Nat := 0x084
def Fld.IME_VIOL_REC_VALID : Fld := ⟨0x084, 31, 1⟩
def Fld.IME_VIOL_REC_REASON : Fld := ⟨0x084, 28, 3⟩
def Fld.IME_VIOL_REC_SLOT : Fld := ⟨0x084, 18, 10⟩
def Fld.IME_VIOL_REC_TENANT : Fld := ⟨0x084, 9, 9⟩
def Fld.IME_VIOL_REC_SRC : Fld := ⟨0x084, 3, 6⟩
def Fld.IME_VIOL_REC_PATH : Fld := ⟨0x084, 1, 2⟩

/-! ### SCR (spec file 10, Table 10.7) -/
def Reg.SCR_SCR_CTRL : Nat := 0x080
def Fld.SCR_SCR_CTRL_START : Fld := ⟨0x080, 31, 1⟩
def Fld.SCR_SCR_CTRL_STOP : Fld := ⟨0x080, 30, 1⟩
def Fld.SCR_SCR_CTRL_REPEAT : Fld := ⟨0x080, 29, 1⟩
def Fld.SCR_SCR_CTRL_WB : Fld := ⟨0x080, 28, 1⟩
def Fld.SCR_SCR_CTRL_INSTANCE : Fld := ⟨0x080, 8, 7⟩
def Fld.SCR_SCR_CTRL_TARGET : Fld := ⟨0x080, 0, 4⟩
def Reg.SCR_START_IDX : Nat := 0x084
def Fld.SCR_START_IDX_INDEX : Fld := ⟨0x084, 0, 32⟩
def Reg.SCR_LENGTH : Nat := 0x088
def Fld.SCR_LENGTH_UNITS : Fld := ⟨0x088, 0, 32⟩
def Reg.SCR_RATE : Nat := 0x08C
def Fld.SCR_RATE_INTERVAL_MS : Fld := ⟨0x08C, 16, 16⟩
def Fld.SCR_RATE_UNITS : Fld := ⟨0x08C, 0, 16⟩
def Reg.SCR_TIMEOUT : Nat := 0x090
def Fld.SCR_TIMEOUT_US : Fld := ⟨0x090, 0, 14⟩
def Reg.SCR_PASS_STAT : Nat := 0x094
def Fld.SCR_PASS_STAT_STATE : Fld := ⟨0x094, 29, 3⟩
def Fld.SCR_PASS_STAT_REASON : Fld := ⟨0x094, 26, 3⟩
def Fld.SCR_PASS_STAT_PASS_CNT : Fld := ⟨0x094, 0, 16⟩
def Reg.SCR_NEXT : Nat := 0x098
def Fld.SCR_NEXT_INDEX : Fld := ⟨0x098, 0, 32⟩
def Reg.SCR_CORR_CNT : Nat := 0x09C
def Fld.SCR_CORR_CNT_COUNT : Fld := ⟨0x09C, 0, 32⟩
def Reg.SCR_UE_CNT : Nat := 0x0A0
def Fld.SCR_UE_CNT_COUNT : Fld := ⟨0x0A0, 0, 32⟩
def Reg.SCR_FIRST_FAIL : Nat := 0x0A4
def Fld.SCR_FIRST_FAIL_INDEX : Fld := ⟨0x0A4, 0, 32⟩
def Reg.SCR_LAST_FAIL : Nat := 0x0A8
def Fld.SCR_LAST_FAIL_INDEX : Fld := ⟨0x0A8, 0, 32⟩
def Reg.SCR_WORST : Nat := 0x0AC
def Fld.SCR_WORST_VALID : Fld := ⟨0x0AC, 31, 1⟩
def Fld.SCR_WORST_UE : Fld := ⟨0x0AC, 30, 1⟩
def Fld.SCR_WORST_CODEWORD : Fld := ⟨0x0AC, 16, 8⟩
def Fld.SCR_WORST_SYN : Fld := ⟨0x0AC, 0, 16⟩

/-! ### ECC (spec file 10, Table 10.9) -/
def Reg.ECC_RAW_SEL : Nat := 0x080
def Fld.ECC_RAW_SEL_INSTANCE : Fld := ⟨0x080, 8, 7⟩
def Fld.ECC_RAW_SEL_TARGET : Fld := ⟨0x080, 0, 4⟩
def Reg.ECC_RAW_ADDR : Nat := 0x084
def Fld.ECC_RAW_ADDR_INDEX : Fld := ⟨0x084, 0, 32⟩
def Reg.ECC_RAW_CTRL : Nat := 0x088
def Fld.ECC_RAW_CTRL_BUSY : Fld := ⟨0x088, 31, 1⟩
def Fld.ECC_RAW_CTRL_RESULT : Fld := ⟨0x088, 29, 2⟩
def Fld.ECC_RAW_CTRL_OP : Fld := ⟨0x088, 0, 3⟩
def Reg.ECC_RAW_STAT : Nat := 0x08C
def Fld.ECC_RAW_STAT_COUNT : Fld := ⟨0x08C, 0, 12⟩
def Reg.ECC_FRM_CTRL : Nat := 0x090
def Fld.ECC_FRM_CTRL_PT_EN : Fld := ⟨0x090, 0, 1⟩
def Reg.ECC_FRM_STAT : Nat := 0x094
def Fld.ECC_FRM_STAT_PENDING : Fld := ⟨0x094, 0, 18⟩
def Reg.ECC_FRM_LAST : Nat := 0x098
def Fld.ECC_FRM_LAST_VALID : Fld := ⟨0x098, 31, 1⟩
def Fld.ECC_FRM_LAST_OUTCOME : Fld := ⟨0x098, 28, 3⟩
def Fld.ECC_FRM_LAST_FRAME : Fld := ⟨0x098, 0, 17⟩
def Reg.ECC_RAW_TAG : Nat := 0x0A0
def Fld.ECC_RAW_TAG_BITS : Fld := ⟨0x0A0, 0, 32⟩
def Reg.ECC_RAW_DATA (i : Nat) : Nat := 0x100 + 0x4 * i
def Fld.ECC_RAW_DATA_BITS (i : Nat) : Fld := ⟨0x100 + 0x4 * i, 0, 32⟩
def Reg.ECC_RAW_CHK (i : Nat) : Nat := 0x200 + 0x4 * i
def Fld.ECC_RAW_CHK_BITS (i : Nat) : Fld := ⟨0x200 + 0x4 * i, 0, 32⟩

/-! ### REP (spec file 10, Table 10.11) -/
def Reg.REP_REP_STAT : Nat := 0x080
def Fld.REP_REP_STAT_LIST : Fld := ⟨0x080, 30, 2⟩
def Fld.REP_REP_STAT_APPLIED : Fld := ⟨0x080, 20, 10⟩
def Fld.REP_REP_STAT_SKIPPED : Fld := ⟨0x080, 10, 10⟩
def Fld.REP_REP_STAT_RUNTIME : Fld := ⟨0x080, 0, 10⟩
def Reg.REP_FUSE_STAT : Nat := 0x084
def Fld.REP_FUSE_STAT_COUNT : Fld := ⟨0x084, 0, 16⟩
def Reg.REP_LIST_CTRL : Nat := 0x088
def Fld.REP_LIST_CTRL_BUSY : Fld := ⟨0x088, 31, 1⟩
def Fld.REP_LIST_CTRL_RESULT : Fld := ⟨0x088, 29, 2⟩
def Fld.REP_LIST_CTRL_OP : Fld := ⟨0x088, 0, 3⟩
def Reg.REP_ENTRY_LO : Nat := 0x08C
def Fld.REP_ENTRY_LO_BITS : Fld := ⟨0x08C, 0, 32⟩
def Reg.REP_ENTRY_HI : Nat := 0x090
def Fld.REP_ENTRY_HI_BITS : Fld := ⟨0x090, 0, 32⟩
def Reg.REP_LIST_SEQ : Nat := 0x094
def Fld.REP_LIST_SEQ_SEQ : Fld := ⟨0x094, 0, 32⟩

/-! ### CHK (spec file 11, Table 11.5) -/
def Reg.CHK_JOB_CTRL : Nat := 0x080
def Fld.CHK_JOB_CTRL_START : Fld := ⟨0x080, 31, 1⟩
def Fld.CHK_JOB_CTRL_STOP : Fld := ⟨0x080, 30, 1⟩
def Fld.CHK_JOB_CTRL_MODE : Fld := ⟨0x080, 4, 2⟩
def Fld.CHK_JOB_CTRL_POLY : Fld := ⟨0x080, 0, 2⟩
def Reg.CHK_SRC_LO : Nat := 0x084
def Fld.CHK_SRC_LO_BITS : Fld := ⟨0x084, 0, 32⟩
def Reg.CHK_SRC_HI : Nat := 0x088
def Fld.CHK_SRC_HI_BITS : Fld := ⟨0x088, 0, 26⟩
def Reg.CHK_DST_LO : Nat := 0x08C
def Fld.CHK_DST_LO_BITS : Fld := ⟨0x08C, 0, 32⟩
def Reg.CHK_DST_HI : Nat := 0x090
def Fld.CHK_DST_HI_BITS : Fld := ⟨0x090, 0, 26⟩
def Reg.CHK_LEN_M1 : Nat := 0x094
def Fld.CHK_LEN_M1_LEN : Fld := ⟨0x094, 0, 32⟩
def Reg.CHK_EXPECT_LO : Nat := 0x098
def Fld.CHK_EXPECT_LO_BITS : Fld := ⟨0x098, 0, 32⟩
def Reg.CHK_EXPECT_HI : Nat := 0x09C
def Fld.CHK_EXPECT_HI_BITS : Fld := ⟨0x09C, 0, 32⟩
def Reg.CHK_RESULT_LO : Nat := 0x0A0
def Fld.CHK_RESULT_LO_BITS : Fld := ⟨0x0A0, 0, 32⟩
def Reg.CHK_RESULT_HI : Nat := 0x0A4
def Fld.CHK_RESULT_HI_BITS : Fld := ⟨0x0A4, 0, 32⟩
def Reg.CHK_JOB_STAT : Nat := 0x0A8
def Fld.CHK_JOB_STAT_BUSY : Fld := ⟨0x0A8, 31, 1⟩
def Fld.CHK_JOB_STAT_OUTCOME : Fld := ⟨0x0A8, 28, 3⟩
def Fld.CHK_JOB_STAT_FLAG : Fld := ⟨0x0A8, 25, 3⟩
def Fld.CHK_JOB_STAT_ERR_DST : Fld := ⟨0x0A8, 24, 1⟩
def Fld.CHK_JOB_STAT_ERR_STATUS : Fld := ⟨0x0A8, 16, 8⟩
def Reg.CHK_ALIVE_CFG : Nat := 0x0AC
def Fld.CHK_ALIVE_CFG_RX_VALID : Fld := ⟨0x0AC, 31, 1⟩
def Fld.CHK_ALIVE_CFG_EN : Fld := ⟨0x0AC, 18, 1⟩
def Fld.CHK_ALIVE_CFG_SKIP_ACCEPT : Fld := ⟨0x0AC, 17, 1⟩
def Fld.CHK_ALIVE_CFG_WIDTH : Fld := ⟨0x0AC, 16, 1⟩
def Fld.CHK_ALIVE_CFG_SKIP_WIN : Fld := ⟨0x0AC, 0, 16⟩
def Reg.CHK_ALIVE_CNT : Nat := 0x0B0
def Fld.CHK_ALIVE_CNT_TX : Fld := ⟨0x0B0, 16, 16⟩
def Fld.CHK_ALIVE_CNT_RX : Fld := ⟨0x0B0, 0, 16⟩
def Reg.CHK_ERR_OFFSET : Nat := 0x0B4
def Fld.CHK_ERR_OFFSET_OFFSET : Fld := ⟨0x0B4, 0, 32⟩

/-! ### LN (spec file 12, Table 12.10) -/
def Reg.LN_CTRL : Nat := 0x080
def Fld.LN_CTRL_ENABLE : Fld := ⟨0x080, 31, 1⟩
def Fld.LN_CTRL_RESTART : Fld := ⟨0x080, 30, 1⟩
def Fld.LN_CTRL_OWNER : Fld := ⟨0x080, 28, 2⟩
def Fld.LN_CTRL_LINE : Fld := ⟨0x080, 24, 1⟩
def Fld.LN_CTRL_PCS : Fld := ⟨0x080, 20, 3⟩
def Fld.LN_CTRL_FEC : Fld := ⟨0x080, 16, 2⟩
def Fld.LN_CTRL_AN_EN : Fld := ⟨0x080, 13, 1⟩
def Fld.LN_CTRL_TRAIN_EN : Fld := ⟨0x080, 12, 1⟩
def Fld.LN_CTRL_PROBE_EN : Fld := ⟨0x080, 11, 1⟩
def Fld.LN_CTRL_PRECODE : Fld := ⟨0x080, 9, 1⟩
def Fld.LN_CTRL_TX_POL : Fld := ⟨0x080, 5, 1⟩
def Fld.LN_CTRL_RX_POL : Fld := ⟨0x080, 4, 1⟩
def Reg.LN_RATE : Nat := 0x084
def Fld.LN_RATE_KBPS : Fld := ⟨0x084, 0, 27⟩
def Reg.LN_STAT : Nat := 0x088
def Fld.LN_STAT_SIG_DET : Fld := ⟨0x088, 15, 1⟩
def Fld.LN_STAT_CDR_LOCK : Fld := ⟨0x088, 14, 1⟩
def Fld.LN_STAT_BLOCK_LOCK : Fld := ⟨0x088, 13, 1⟩
def Fld.LN_STAT_FEC_LOCK : Fld := ⟨0x088, 12, 1⟩
def Fld.LN_STAT_STATE : Fld := ⟨0x088, 0, 4⟩
def Reg.LN_TXFIR : Nat := 0x08C
def Fld.LN_TXFIR_SRC : Fld := ⟨0x08C, 31, 1⟩
def Fld.LN_TXFIR_PRE : Fld := ⟨0x08C, 16, 5⟩
def Fld.LN_TXFIR_MAIN : Fld := ⟨0x08C, 8, 6⟩
def Fld.LN_TXFIR_POST : Fld := ⟨0x08C, 0, 5⟩
def Reg.LN_RXEQ : Nat := 0x090
def Fld.LN_RXEQ_CTLE_MODE : Fld := ⟨0x090, 24, 2⟩
def Fld.LN_RXEQ_CTLE : Fld := ⟨0x090, 16, 5⟩
def Fld.LN_RXEQ_DFE_MODE : Fld := ⟨0x090, 8, 2⟩
def Fld.LN_RXEQ_DFE_TAPS : Fld := ⟨0x090, 0, 4⟩
def Reg.LN_DFE (i : Nat) : Nat := 0x094 + 0x4 * i
def Fld.LN_DFE_TAPS (i : Nat) : Fld := ⟨0x094 + 0x4 * i, 0, 32⟩
def Reg.LN_AN : Nat := 0x0A0
def Fld.LN_AN_DONE : Fld := ⟨0x0A0, 31, 1⟩
def Fld.LN_AN_RESULT : Fld := ⟨0x0A0, 16, 4⟩
def Fld.LN_AN_ABILITY : Fld := ⟨0x0A0, 0, 10⟩
def Reg.LN_IDLE : Nat := 0x0A4
def Fld.LN_IDLE_TX_IDLE : Fld := ⟨0x0A4, 31, 1⟩
def Fld.LN_IDLE_RX_IDLE : Fld := ⟨0x0A4, 30, 1⟩
def Fld.LN_IDLE_GUARD_US : Fld := ⟨0x0A4, 16, 14⟩
def Fld.LN_IDLE_BURST_NS : Fld := ⟨0x0A4, 0, 12⟩
def Reg.LN_TREF : Nat := 0x0A8
def Fld.LN_TREF_EN : Fld := ⟨0x0A8, 31, 1⟩
def Fld.LN_TREF_DIV : Fld := ⟨0x0A8, 0, 12⟩
def Reg.LN_PAT : Nat := 0x0AC
def Fld.LN_PAT_GEN_EN : Fld := ⟨0x0AC, 31, 1⟩
def Fld.LN_PAT_CHK_EN : Fld := ⟨0x0AC, 30, 1⟩
def Fld.LN_PAT_CHK_LOCK : Fld := ⟨0x0AC, 29, 1⟩
def Fld.LN_PAT_LOOPBACK : Fld := ⟨0x0AC, 16, 2⟩
def Fld.LN_PAT_PATTERN : Fld := ⟨0x0AC, 0, 3⟩
def Reg.LN_USER_LO : Nat := 0x0B0
def Fld.LN_USER_LO_BITS : Fld := ⟨0x0B0, 0, 32⟩
def Reg.LN_USER_HI : Nat := 0x0B4
def Fld.LN_USER_HI_BITS : Fld := ⟨0x0B4, 0, 32⟩
def Reg.LN_INJ : Nat := 0x0B8
def Fld.LN_INJ_FIRE : Fld := ⟨0x0B8, 31, 1⟩
def Fld.LN_INJ_MODE : Fld := ⟨0x0B8, 24, 2⟩
def Fld.LN_INJ_BURST_LEN : Fld := ⟨0x0B8, 16, 6⟩
def Fld.LN_INJ_RATE_EXP : Fld := ⟨0x0B8, 0, 6⟩
def Reg.LN_ERRCNT_LO : Nat := 0x0BC
def Fld.LN_ERRCNT_LO_COUNT : Fld := ⟨0x0BC, 0, 32⟩
def Reg.LN_ERRCNT_HI : Nat := 0x0C0
def Fld.LN_ERRCNT_HI_COUNT : Fld := ⟨0x0C0, 0, 16⟩
def Reg.LN_RXFIFO : Nat := 0x0C4
def Fld.LN_RXFIFO_FRAMING : Fld := ⟨0x0C4, 31, 1⟩
def Fld.LN_RXFIFO_FREE : Fld := ⟨0x0C4, 16, 9⟩
def Fld.LN_RXFIFO_MAX_FRAME : Fld := ⟨0x0C4, 0, 14⟩
def Reg.LN_PAUSE : Nat := 0x0C8
def Fld.LN_PAUSE_EN : Fld := ⟨0x0C8, 31, 1⟩
def Fld.LN_PAUSE_ON : Fld := ⟨0x0C8, 16, 9⟩
def Fld.LN_PAUSE_OFF : Fld := ⟨0x0C8, 0, 9⟩
def Reg.LN_PAUSE_SA_LO : Nat := 0x0CC
def Fld.LN_PAUSE_SA_LO_SA : Fld := ⟨0x0CC, 0, 32⟩
def Reg.LN_PAUSE_SA_HI : Nat := 0x0D0
def Fld.LN_PAUSE_SA_HI_QUANTA : Fld := ⟨0x0D0, 16, 16⟩
def Fld.LN_PAUSE_SA_HI_SA : Fld := ⟨0x0D0, 0, 16⟩

/-! ### HLNK (spec file 12, Table 12.12) -/
def Reg.HLNK_LINK_STAT : Nat := 0x080
def Fld.HLNK_LINK_STAT_DL_UP : Fld := ⟨0x080, 31, 1⟩
def Fld.HLNK_LINK_STAT_WIDTH : Fld := ⟨0x080, 16, 6⟩
def Fld.HLNK_LINK_STAT_SPEED : Fld := ⟨0x080, 8, 4⟩
def Fld.HLNK_LINK_STAT_LTSSM : Fld := ⟨0x080, 0, 5⟩
def Reg.HLNK_LINK_CTRL : Nat := 0x084
def Fld.HLNK_LINK_CTRL_RETRAIN : Fld := ⟨0x084, 31, 1⟩
def Fld.HLNK_LINK_CTRL_MAX_SPEED : Fld := ⟨0x084, 0, 4⟩
def Reg.HLNK_MSIX_TRIG : Nat := 0x088
def Fld.HLNK_MSIX_TRIG_VECTOR : Fld := ⟨0x088, 0, 11⟩

/-! ### DLK (spec file 13, Table 13.8) -/
def Reg.DLK_XNG_ERR : Nat := 0x080
def Fld.DLK_XNG_ERR_VALID : Fld := ⟨0x080, 31, 1⟩
def Fld.DLK_XNG_ERR_DBE : Fld := ⟨0x080, 30, 1⟩
def Fld.DLK_XNG_ERR_KIND : Fld := ⟨0x080, 28, 2⟩
def Fld.DLK_XNG_ERR_SRC : Fld := ⟨0x080, 25, 3⟩
def Fld.DLK_XNG_ERR_GROUP : Fld := ⟨0x080, 19, 6⟩
def Fld.DLK_XNG_ERR_WORD : Fld := ⟨0x080, 15, 4⟩
def Fld.DLK_XNG_ERR_SYN : Fld := ⟨0x080, 0, 8⟩
def Reg.DLK_IF_ERR : Nat := 0x084
def Fld.DLK_IF_ERR_VALID : Fld := ⟨0x084, 31, 1⟩
def Fld.DLK_IF_ERR_DBE : Fld := ⟨0x084, 30, 1⟩
def Fld.DLK_IF_ERR_DIR : Fld := ⟨0x084, 29, 1⟩
def Fld.DLK_IF_ERR_IFKIND : Fld := ⟨0x084, 24, 4⟩
def Fld.DLK_IF_ERR_INDEX : Fld := ⟨0x084, 20, 4⟩
def Fld.DLK_IF_ERR_SYN : Fld := ⟨0x084, 0, 8⟩

/-! ### DLKH (spec file 13, Table 13.8) -/
def Reg.DLKH_CA_ERR : Nat := 0x080
def Fld.DLKH_CA_ERR_VALID : Fld := ⟨0x080, 31, 1⟩
def Fld.DLKH_CA_ERR_PC : Fld := ⟨0x080, 0, 7⟩

/-! ### UCI (spec file 13, Table 13.8) -/
def Reg.UCI_UCI_CFG : Nat := 0x080
def Fld.UCI_UCI_CFG_EN : Fld := ⟨0x080, 31, 1⟩
def Fld.UCI_UCI_CFG_MAX_RATE : Fld := ⟨0x080, 0, 2⟩
def Reg.UCI_UCI_PARTNER : Nat := 0x084
def Fld.UCI_UCI_PARTNER_VENDOR : Fld := ⟨0x084, 16, 16⟩
def Fld.UCI_UCI_PARTNER_DEVICE : Fld := ⟨0x084, 0, 16⟩

/-! ### UCIM (spec file 13, Table 13.10) -/
def Reg.UCIM_M_CTRL : Nat := 0x080
def Fld.UCIM_M_CTRL_RETRAIN : Fld := ⟨0x080, 31, 1⟩
def Fld.UCIM_M_CTRL_ENABLE : Fld := ⟨0x080, 0, 1⟩
def Reg.UCIM_M_TENANT : Nat := 0x084
def Fld.UCIM_M_TENANT_TID : Fld := ⟨0x084, 0, 9⟩
def Reg.UCIM_M_STAT : Nat := 0x088
def Fld.UCIM_M_STAT_STATE : Fld := ⟨0x088, 29, 3⟩
def Fld.UCIM_M_STAT_RATE : Fld := ⟨0x088, 24, 2⟩
def Fld.UCIM_M_STAT_TX_REP : Fld := ⟨0x088, 12, 4⟩
def Fld.UCIM_M_STAT_RX_REP : Fld := ⟨0x088, 8, 4⟩
def Reg.UCIM_M_PCAP : Nat := 0x08C
def Fld.UCIM_M_PCAP_REQ : Fld := ⟨0x08C, 24, 8⟩
def Fld.UCIM_M_PCAP_RSP : Fld := ⟨0x08C, 16, 8⟩
def Fld.UCIM_M_PCAP_POST : Fld := ⟨0x08C, 8, 8⟩
def Fld.UCIM_M_PCAP_MGMT : Fld := ⟨0x08C, 0, 8⟩

/-! ### TQ (spec file 14, Table 14.7) -/
def Reg.TQ_NODE : Nat := 0x080
def Fld.TQ_NODE_VALID : Fld := ⟨0x080, 31, 1⟩
def Fld.TQ_NODE_NET_STATE : Fld := ⟨0x080, 16, 3⟩
def Fld.TQ_NODE_ID : Fld := ⟨0x080, 0, 14⟩
def Reg.TQ_ELECT : Nat := 0x084
def Fld.TQ_ELECT_START : Fld := ⟨0x084, 31, 1⟩
def Fld.TQ_ELECT_LAMPLIGHTER : Fld := ⟨0x084, 30, 1⟩
def Fld.TQ_ELECT_MANUAL : Fld := ⟨0x084, 14, 1⟩
def Fld.TQ_ELECT_PRIORITY : Fld := ⟨0x084, 0, 8⟩
def Reg.TQ_SERIAL_LO : Nat := 0x088
def Fld.TQ_SERIAL_LO_BITS : Fld := ⟨0x088, 0, 32⟩
def Reg.TQ_SERIAL_HI : Nat := 0x08C
def Fld.TQ_SERIAL_HI_BITS : Fld := ⟨0x08C, 0, 32⟩
def Reg.TQ_LEADER : Nat := 0x090
def Fld.TQ_LEADER_VALID : Fld := ⟨0x090, 31, 1⟩
def Fld.TQ_LEADER_ID : Fld := ⟨0x090, 0, 14⟩
def Reg.TQ_RMT_TIMEOUT : Nat := 0x094
def Fld.TQ_RMT_TIMEOUT_US : Fld := ⟨0x094, 0, 14⟩
def Reg.TQ_GAP_TIMEOUT : Nat := 0x098
def Fld.TQ_GAP_TIMEOUT_US : Fld := ⟨0x098, 0, 14⟩
def Reg.TQ_RT_IDX : Nat := 0x09C
def Fld.TQ_RT_IDX_AUTOINC : Fld := ⟨0x09C, 31, 1⟩
def Fld.TQ_RT_IDX_INDEX : Fld := ⟨0x09C, 0, 14⟩
def Reg.TQ_RT_DATA : Nat := 0x0A0
def Fld.TQ_RT_DATA_SPAN : Fld := ⟨0x0A0, 0, 5⟩
def Reg.TQ_Q_SEL : Nat := 0x0A4
def Fld.TQ_Q_SEL_QUEUE : Fld := ⟨0x0A4, 0, 12⟩
def Reg.TQ_Q_PEER : Nat := 0x0A8
def Fld.TQ_Q_PEER_RQUEUE : Fld := ⟨0x0A8, 16, 12⟩
def Fld.TQ_Q_PEER_NODE : Fld := ⟨0x0A8, 0, 14⟩
def Reg.TQ_Q_CFG : Nat := 0x0AC
def Fld.TQ_Q_CFG_EN : Fld := ⟨0x0AC, 31, 1⟩
def Fld.TQ_Q_CFG_BROKEN : Fld := ⟨0x0AC, 30, 1⟩
def Fld.TQ_Q_CFG_KEY_IDX : Fld := ⟨0x0AC, 20, 10⟩
def Fld.TQ_Q_CFG_MEM_KID : Fld := ⟨0x0AC, 10, 10⟩
def Fld.TQ_Q_CFG_TENANT : Fld := ⟨0x0AC, 0, 9⟩
def Reg.TQ_Q_CRED : Nat := 0x0B0
def Fld.TQ_Q_CRED_TX_AVAIL : Fld := ⟨0x0B0, 24, 8⟩
def Fld.TQ_Q_CRED_HELD : Fld := ⟨0x0B0, 16, 8⟩
def Fld.TQ_Q_CRED_RX_CREDITS : Fld := ⟨0x0B0, 0, 8⟩
def Reg.TQ_Q_TXSEQ : Nat := 0x0B4
def Fld.TQ_Q_TXSEQ_SEQ : Fld := ⟨0x0B4, 0, 24⟩
def Reg.TQ_Q_RXSEQ : Nat := 0x0B8
def Fld.TQ_Q_RXSEQ_SEQ : Fld := ⟨0x0B8, 0, 24⟩
def Reg.TQ_PERR_LO : Nat := 0x0BC
def Fld.TQ_PERR_LO_OFFSET : Fld := ⟨0x0BC, 0, 32⟩
def Reg.TQ_PERR_HI : Nat := 0x0C0
def Fld.TQ_PERR_HI_VALID : Fld := ⟨0x0C0, 31, 1⟩
def Fld.TQ_PERR_HI_STATUS : Fld := ⟨0x0C0, 23, 8⟩
def Fld.TQ_PERR_HI_QUEUE : Fld := ⟨0x0C0, 11, 12⟩
def Fld.TQ_PERR_HI_OFF32 : Fld := ⟨0x0C0, 0, 1⟩

/-! ### SPAN (spec file 14, Table 14.9) -/
def Reg.SPAN_SP_CTRL : Nat := 0x080
def Fld.SPAN_SP_CTRL_ENABLE : Fld := ⟨0x080, 31, 1⟩
def Fld.SPAN_SP_CTRL_WIDTH : Fld := ⟨0x080, 0, 4⟩
def Reg.SPAN_SP_LANES0 : Nat := 0x084
def Fld.SPAN_SP_LANES0_LANE : Fld := ⟨0x084, 0, 32⟩
def Reg.SPAN_SP_LANES1 : Nat := 0x088
def Fld.SPAN_SP_LANES1_LANE : Fld := ⟨0x088, 0, 32⟩
def Reg.SPAN_SP_STAT : Nat := 0x08C
def Fld.SPAN_SP_STAT_STATE : Fld := ⟨0x08C, 29, 3⟩
def Fld.SPAN_SP_STAT_RATE : Fld := ⟨0x08C, 16, 4⟩
def Fld.SPAN_SP_STAT_UP_MASK : Fld := ⟨0x08C, 0, 8⟩
def Reg.SPAN_SP_NBR : Nat := 0x090
def Fld.SPAN_SP_NBR_VALID : Fld := ⟨0x090, 31, 1⟩
def Fld.SPAN_SP_NBR_SPAN : Fld := ⟨0x090, 24, 5⟩
def Fld.SPAN_SP_NBR_ID_VALID : Fld := ⟨0x090, 14, 1⟩
def Fld.SPAN_SP_NBR_NODE : Fld := ⟨0x090, 0, 14⟩

/-! ### EXP (spec file 14, Table 14.9) -/
def Reg.EXP_OFF (i : Nat) : Nat := 0x100 + 0x10 * i
def Fld.EXP_OFF_EN (i : Nat) : Fld := ⟨0x100 + 0x10 * i, 31, 1⟩
def Fld.EXP_OFF_SIZE (i : Nat) : Fld := ⟨0x100 + 0x10 * i, 24, 6⟩
def Fld.EXP_OFF_OFF (i : Nat) : Fld := ⟨0x100 + 0x10 * i, 0, 21⟩
def Reg.EXP_LOCL (i : Nat) : Nat := 0x104 + 0x10 * i
def Fld.EXP_LOCL_ADDR (i : Nat) : Fld := ⟨0x104 + 0x10 * i, 12, 20⟩
def Reg.EXP_LOCH (i : Nat) : Nat := 0x108 + 0x10 * i
def Fld.EXP_LOCH_ADDR (i : Nat) : Fld := ⟨0x108 + 0x10 * i, 0, 16⟩
def Reg.EXP_TEN (i : Nat) : Nat := 0x10C + 0x10 * i
def Fld.EXP_TEN_MASK (i : Nat) : Fld := ⟨0x10C + 0x10 * i, 9, 9⟩
def Fld.EXP_TEN_TID (i : Nat) : Fld := ⟨0x10C + 0x10 * i, 0, 9⟩

/-! ### REF (spec file 15, Table 15.8) -/
def Reg.REF_STRAP : Nat := 0x080
def Fld.REF_STRAP_BAD : Fld := ⟨0x080, 31, 1⟩
def Fld.REF_STRAP_OSC_DLY : Fld := ⟨0x080, 0, 3⟩
def Reg.REF_DPLL_CTRL : Nat := 0x084
def Fld.REF_DPLL_CTRL_MASTER_SEL : Fld := ⟨0x084, 12, 2⟩
def Fld.REF_DPLL_CTRL_BW : Fld := ⟨0x084, 8, 2⟩
def Fld.REF_DPLL_CTRL_SLEW : Fld := ⟨0x084, 4, 2⟩
def Fld.REF_DPLL_CTRL_TO_MASTER : Fld := ⟨0x084, 1, 1⟩
def Fld.REF_DPLL_CTRL_REVERT : Fld := ⟨0x084, 0, 1⟩
def Reg.REF_DPLL_STAT : Nat := 0x088
def Fld.REF_DPLL_STAT_MODE : Fld := ⟨0x088, 29, 3⟩
def Fld.REF_DPLL_STAT_REF : Fld := ⟨0x088, 8, 4⟩
def Fld.REF_DPLL_STAT_MASTER : Fld := ⟨0x088, 0, 1⟩
def Reg.REF_REF_PRIO : Nat := 0x08C
def Fld.REF_REF_PRIO_PRIO : Fld := ⟨0x08C, 0, 32⟩
def Reg.REF_REF_STAT : Nat := 0x090
def Fld.REF_REF_STAT_REFB_VALID : Fld := ⟨0x090, 25, 1⟩
def Fld.REF_REF_STAT_REFA_VALID : Fld := ⟨0x090, 24, 1⟩
def Fld.REF_REF_STAT_LANE_QUAL : Fld := ⟨0x090, 16, 8⟩
def Fld.REF_REF_STAT_LANE_VALID : Fld := ⟨0x090, 8, 8⟩
def Fld.REF_REF_STAT_DISAGREE : Fld := ⟨0x090, 4, 1⟩
def Fld.REF_REF_STAT_REFB_FREQ : Fld := ⟨0x090, 2, 2⟩
def Fld.REF_REF_STAT_REFA_FREQ : Fld := ⟨0x090, 0, 2⟩
def Reg.REF_QUAL : Nat := 0x094
def Fld.REF_QUAL_QUAL_MS : Fld := ⟨0x094, 16, 16⟩
def Fld.REF_QUAL_ACCEPT_PPM : Fld := ⟨0x094, 0, 8⟩
def Reg.REF_HO_FREQ : Nat := 0x098
def Fld.REF_HO_FREQ_OFFSET : Fld := ⟨0x098, 0, 32⟩
def Reg.REF_LOSS_CTRL : Nat := 0x09C
def Fld.REF_LOSS_CTRL_RELEASE : Fld := ⟨0x09C, 31, 1⟩
def Fld.REF_LOSS_CTRL_AUTO_RELEASE : Fld := ⟨0x09C, 30, 1⟩
def Fld.REF_LOSS_CTRL_ACTION : Fld := ⟨0x09C, 29, 1⟩
def Fld.REF_LOSS_CTRL_SAFE_WAIT_S : Fld := ⟨0x09C, 0, 16⟩
def Reg.REF_LOSS_STAT : Nat := 0x0A0
def Fld.REF_LOSS_STAT_SAFE : Fld := ⟨0x0A0, 31, 1⟩
def Fld.REF_LOSS_STAT_LAST_RESET : Fld := ⟨0x0A0, 30, 1⟩
def Fld.REF_LOSS_STAT_COUNT : Fld := ⟨0x0A0, 0, 16⟩

/-! ### ML (spec file 15, Table 15.10) -/
def Reg.ML_CFG (i : Nat) : Nat := 0x080 + 0x10 * i
def Fld.ML_CFG_ON (i : Nat) : Fld := ⟨0x080 + 0x10 * i, 31, 1⟩
def Fld.ML_CFG_FREQ_KHZ (i : Nat) : Fld := ⟨0x080 + 0x10 * i, 0, 22⟩
def Reg.ML_STAT (i : Nat) : Nat := 0x084 + 0x10 * i
def Fld.ML_STAT_STATE (i : Nat) : Fld := ⟨0x084 + 0x10 * i, 29, 3⟩
def Fld.ML_STAT_RELOCKS (i : Nat) : Fld := ⟨0x084 + 0x10 * i, 0, 2⟩
def Reg.ML_THR (i : Nat) : Nat := 0x088 + 0x10 * i
def Fld.ML_THR_SKIP (i : Nat) : Fld := ⟨0x088 + 0x10 * i, 0, 4⟩
def Reg.ML_LAN_DIV (i : Nat) : Nat := 0x500 + 0x4 * i
def Fld.ML_LAN_DIV_DIV (i : Nat) : Fld := ⟨0x500 + 0x4 * i, 0, 8⟩

/-! ### CLK (spec file 15, Table 15.12) -/
def Reg.CLK_MUX_CTRL : Nat := 0x080
def Fld.CLK_MUX_CTRL_MX0_FORCE : Fld := ⟨0x080, 4, 1⟩
def Fld.CLK_MUX_CTRL_AUTO_FORCE : Fld := ⟨0x080, 0, 1⟩
def Reg.CLK_MUX_STAT : Nat := 0x084
def Fld.CLK_MUX_STAT_MX1_SRC : Fld := ⟨0x084, 5, 1⟩
def Fld.CLK_MUX_STAT_RO_SEL : Fld := ⟨0x084, 4, 1⟩
def Fld.CLK_MUX_STAT_MX1_HUNG : Fld := ⟨0x084, 3, 1⟩
def Fld.CLK_MUX_STAT_MX0_HUNG : Fld := ⟨0x084, 2, 1⟩
def Fld.CLK_MUX_STAT_MX0_SRC : Fld := ⟨0x084, 0, 1⟩
def Reg.CLK_GATE_BUSY : Nat := 0x088
def Fld.CLK_GATE_BUSY_VALID : Fld := ⟨0x088, 31, 1⟩
def Fld.CLK_GATE_BUSY_KIND : Fld := ⟨0x088, 24, 4⟩
def Fld.CLK_GATE_BUSY_INDEX : Fld := ⟨0x088, 0, 12⟩
def Reg.CLK_FDIE_GATE (i : Nat) : Nat := 0x100 + 0x4 * i
def Fld.CLK_FDIE_GATE_GATE (i : Nat) : Fld := ⟨0x100 + 0x4 * i, 0, 32⟩

/-! ### CFG (spec file 16, Table 16.13) -/
def Reg.CFG_STRAP : Nat := 0x080
def Fld.CFG_STRAP_BAD : Fld := ⟨0x080, 31, 1⟩
def Fld.CFG_STRAP_BOOT_SRC : Fld := ⟨0x080, 0, 2⟩
def Reg.CFG_CFG_STAT : Nat := 0x084
def Fld.CFG_CFG_STAT_USER_EN : Fld := ⟨0x084, 31, 1⟩
def Fld.CFG_CFG_STAT_DONE_IN : Fld := ⟨0x084, 30, 1⟩
def Fld.CFG_CFG_STAT_DONE_OUT : Fld := ⟨0x084, 29, 1⟩
def Fld.CFG_CFG_STAT_SOURCE : Fld := ⟨0x084, 16, 4⟩
def Fld.CFG_CFG_STAT_FALLBACK : Fld := ⟨0x084, 15, 1⟩
def Fld.CFG_CFG_STAT_STATE : Fld := ⟨0x084, 0, 4⟩
def Reg.CFG_LOAD_ERR : Nat := 0x088
def Fld.CFG_LOAD_ERR_VALID : Fld := ⟨0x088, 31, 1⟩
def Fld.CFG_LOAD_ERR_SOURCE : Fld := ⟨0x088, 28, 3⟩
def Fld.CFG_LOAD_ERR_REASON : Fld := ⟨0x088, 16, 8⟩
def Fld.CFG_LOAD_ERR_INDEX : Fld := ⟨0x088, 0, 16⟩
def Reg.CFG_IMAGE_ID : Nat := 0x08C
def Fld.CFG_IMAGE_ID_ID : Fld := ⟨0x08C, 0, 32⟩
def Reg.CFG_IMAGE_SVN : Nat := 0x090
def Fld.CFG_IMAGE_SVN_SVN : Fld := ⟨0x090, 0, 6⟩
def Reg.CFG_BOOT_TIME : Nat := 0x094
def Fld.CFG_BOOT_TIME_US : Fld := ⟨0x094, 0, 32⟩
def Reg.CFG_DONE_CTRL : Nat := 0x098
def Fld.CFG_DONE_CTRL_MODE : Fld := ⟨0x098, 31, 1⟩
def Fld.CFG_DONE_CTRL_WAIT_MS : Fld := ⟨0x098, 0, 16⟩
def Reg.CFG_SEC_STAT : Nat := 0x09C
def Fld.CFG_SEC_STAT_MIN_SVN : Fld := ⟨0x09C, 16, 6⟩
def Fld.CFG_SEC_STAT_REVOKED : Fld := ⟨0x09C, 4, 4⟩
def Fld.CFG_SEC_STAT_PROGRAMMED : Fld := ⟨0x09C, 0, 4⟩
def Reg.CFG_PR_CTRL : Nat := 0x0A0
def Fld.CFG_PR_CTRL_START : Fld := ⟨0x0A0, 31, 1⟩
def Fld.CFG_PR_CTRL_ABORT : Fld := ⟨0x0A0, 30, 1⟩
def Fld.CFG_PR_CTRL_CLEAR : Fld := ⟨0x0A0, 29, 1⟩
def Fld.CFG_PR_CTRL_DIE : Fld := ⟨0x0A0, 5, 3⟩
def Fld.CFG_PR_CTRL_REGION : Fld := ⟨0x0A0, 0, 5⟩
def Reg.CFG_PR_STAT : Nat := 0x0A4
def Fld.CFG_PR_STAT_BUSY : Fld := ⟨0x0A4, 31, 1⟩
def Fld.CFG_PR_STAT_PHASE : Fld := ⟨0x0A4, 28, 3⟩
def Fld.CFG_PR_STAT_RESULT : Fld := ⟨0x0A4, 26, 2⟩
def Fld.CFG_PR_STAT_DIE : Fld := ⟨0x0A4, 5, 3⟩
def Fld.CFG_PR_STAT_REGION : Fld := ⟨0x0A4, 0, 5⟩
def Reg.CFG_PR_SRC_LO : Nat := 0x0A8
def Fld.CFG_PR_SRC_LO_BITS : Fld := ⟨0x0A8, 0, 32⟩
def Reg.CFG_PR_SRC_HI : Nat := 0x0AC
def Fld.CFG_PR_SRC_HI_BITS : Fld := ⟨0x0AC, 0, 26⟩
def Reg.CFG_PR_RELEASE : Nat := 0x0B0
def Fld.CFG_PR_RELEASE_US : Fld := ⟨0x0B0, 0, 14⟩
def Reg.CFG_OWNER_KEY (i j : Nat) : Nat := 0x100 + 0x30 * i + 4 * j
def Fld.CFG_OWNER_KEY_BYTES (i j : Nat) : Fld := ⟨0x100 + 0x30 * i + 4 * j, 0, 32⟩

/-! ### CFGH (spec file 16, Table 16.15) -/
def Reg.CFGH_H_STAT : Nat := 0x080
def Fld.CFGH_H_STAT_READY : Fld := ⟨0x080, 31, 1⟩
def Fld.CFGH_H_STAT_STATE : Fld := ⟨0x080, 28, 3⟩
def Fld.CFGH_H_STAT_ACK_SEQ : Fld := ⟨0x080, 8, 8⟩
def Reg.CFGH_H_CTRL : Nat := 0x084
def Fld.CFGH_H_CTRL_START : Fld := ⟨0x084, 31, 1⟩
def Fld.CFGH_H_CTRL_ABORT : Fld := ⟨0x084, 30, 1⟩
def Reg.CFGH_H_DOORBELL : Nat := 0x088
def Fld.CFGH_H_DOORBELL_LAST : Fld := ⟨0x088, 31, 1⟩
def Fld.CFGH_H_DOORBELL_LEN : Fld := ⟨0x088, 16, 12⟩
def Fld.CFGH_H_DOORBELL_SEQ : Fld := ⟨0x088, 0, 8⟩
def Reg.CFGH_H_RCVD : Nat := 0x08C
def Fld.CFGH_H_RCVD_BYTES : Fld := ⟨0x08C, 0, 32⟩
def Reg.CFGH_H_TIMEOUT : Nat := 0x090
def Fld.CFGH_H_TIMEOUT_MS : Fld := ⟨0x090, 0, 16⟩
def Reg.CFGH_H_DATA (i : Nat) : Nat := 0x800 + 0x4 * i
def Fld.CFGH_H_DATA_DATA (i : Nat) : Fld := ⟨0x800 + 0x4 * i, 0, 32⟩

/-! ### NVS (spec file 16, Table 16.17) -/
def Reg.NVS_NVS_STAT : Nat := 0x080
def Fld.NVS_NVS_STAT_IN_FLIGHT : Fld := ⟨0x080, 0, 7⟩
def Reg.NVS_WIN_SEL : Nat := 0x084
def Fld.NVS_WIN_SEL_HALF : Fld := ⟨0x084, 0, 1⟩
def Reg.NVS_UPD_CTRL : Nat := 0x088
def Fld.NVS_UPD_CTRL_OPEN : Fld := ⟨0x088, 31, 1⟩
def Fld.NVS_UPD_CTRL_CLOSE : Fld := ⟨0x088, 30, 1⟩
def Fld.NVS_UPD_CTRL_VERIFY : Fld := ⟨0x088, 29, 1⟩
def Fld.NVS_UPD_CTRL_FLIP : Fld := ⟨0x088, 28, 1⟩
def Fld.NVS_UPD_CTRL_BANK : Fld := ⟨0x088, 0, 1⟩
def Reg.NVS_UPD_STAT : Nat := 0x08C
def Fld.NVS_UPD_STAT_BUSY : Fld := ⟨0x08C, 31, 1⟩
def Fld.NVS_UPD_STAT_STATE : Fld := ⟨0x08C, 28, 3⟩
def Fld.NVS_UPD_STAT_RESULT : Fld := ⟨0x08C, 26, 2⟩
def Fld.NVS_UPD_STAT_REASON : Fld := ⟨0x08C, 16, 8⟩
def Fld.NVS_UPD_STAT_BANK : Fld := ⟨0x08C, 0, 1⟩
def Reg.NVS_PTR_STAT : Nat := 0x090
def Fld.NVS_PTR_STAT_A_VALID : Fld := ⟨0x090, 31, 1⟩
def Fld.NVS_PTR_STAT_B_VALID : Fld := ⟨0x090, 30, 1⟩
def Fld.NVS_PTR_STAT_ACTIVE : Fld := ⟨0x090, 0, 1⟩
def Reg.NVS_PTR_SEQ : Nat := 0x094
def Fld.NVS_PTR_SEQ_SEQ : Fld := ⟨0x094, 0, 32⟩
def Reg.NVS_INV_SECT (i : Nat) : Nat := 0x100 + 0x4 * i
def Fld.NVS_INV_SECT_VALID (i : Nat) : Fld := ⟨0x100 + 0x4 * i, 31, 1⟩
def Fld.NVS_INV_SECT_SECTOR (i : Nat) : Fld := ⟨0x100 + 0x4 * i, 0, 13⟩

/-! ### PWR (spec file 17, Table 17.11) -/
def Reg.PWR_PWR_CTRL : Nat := 0x080
def Fld.PWR_PWR_CTRL_AUTOGATE : Fld := ⟨0x080, 1, 1⟩
def Fld.PWR_PWR_CTRL_SERVICE : Fld := ⟨0x080, 0, 1⟩
def Reg.PWR_DOM_CMD : Nat := 0x084
def Fld.PWR_DOM_CMD_START : Fld := ⟨0x084, 31, 1⟩
def Fld.PWR_DOM_CMD_OP : Fld := ⟨0x084, 30, 1⟩
def Fld.PWR_DOM_CMD_KIND : Fld := ⟨0x084, 8, 2⟩
def Fld.PWR_DOM_CMD_INDEX : Fld := ⟨0x084, 0, 6⟩
def Reg.PWR_DOM_STAT : Nat := 0x088
def Fld.PWR_DOM_STAT_BUSY : Fld := ⟨0x088, 31, 1⟩
def Fld.PWR_DOM_STAT_RESULT : Fld := ⟨0x088, 29, 2⟩
def Fld.PWR_DOM_STAT_REASON : Fld := ⟨0x088, 16, 8⟩
def Fld.PWR_DOM_STAT_KIND : Fld := ⟨0x088, 8, 2⟩
def Fld.PWR_DOM_STAT_INDEX : Fld := ⟨0x088, 0, 6⟩
def Reg.PWR_DIE_PWR : Nat := 0x08C
def Fld.PWR_DIE_PWR_ON : Fld := ⟨0x08C, 0, 8⟩
def Reg.PWR_LAN_PWR : Nat := 0x090
def Fld.PWR_LAN_PWR_ON : Fld := ⟨0x090, 0, 24⟩
def Reg.PWR_QUAD_PWR_LO : Nat := 0x094
def Fld.PWR_QUAD_PWR_LO_ON : Fld := ⟨0x094, 0, 32⟩
def Reg.PWR_QUAD_PWR_HI : Nat := 0x098
def Fld.PWR_QUAD_PWR_HI_ON : Fld := ⟨0x098, 0, 16⟩
def Reg.PWR_ALERT_SRC : Nat := 0x09C
def Fld.PWR_ALERT_SRC_SAFE_WAIT_DONE_WAIT_LOAD_FAIL_BACKSTOP : Fld := ⟨0x09C, 5, 4⟩
def Fld.PWR_ALERT_SRC_TAMPER_VBAT_LOW_VOLT_HBM_HOT_THERM : Fld := ⟨0x09C, 0, 5⟩
def Reg.PWR_ALERT_EN : Nat := 0x0A0
def Fld.PWR_ALERT_EN_EN : Fld := ⟨0x0A0, 0, 5⟩

/-! ### THM (spec file 17, Table 17.13) -/
def Reg.THM_THR_CTRL : Nat := 0x080
def Fld.THM_THR_CTRL_SKIP_MAX : Fld := ⟨0x080, 16, 4⟩
def Fld.THM_THR_CTRL_HYST : Fld := ⟨0x080, 8, 4⟩
def Fld.THM_THR_CTRL_POINT : Fld := ⟨0x080, 0, 7⟩
def Reg.THM_THM_STAT : Nat := 0x084
def Fld.THM_THM_STAT_BACKSTOP : Fld := ⟨0x084, 31, 1⟩
def Fld.THM_THM_STAT_HOT_IDX : Fld := ⟨0x084, 16, 8⟩
def Fld.THM_THM_STAT_HOT_TEMP : Fld := ⟨0x084, 0, 16⟩
def Reg.THM_ZONE_FCLK (i : Nat) : Nat := 0x0A0 + 0x4 * i
def Fld.THM_ZONE_FCLK_FCLK (i : Nat) : Fld := ⟨0x0A0 + 0x4 * i, 0, 32⟩
def Reg.THM_TEMP (i : Nat) : Nat := 0x100 + 0x4 * i
def Fld.THM_TEMP_TEMP (i : Nat) : Fld := ⟨0x100 + 0x4 * i, 0, 16⟩
def Reg.THM_VMON (i : Nat) : Nat := 0x400 + 0x4 * i
def Fld.THM_VMON_WARN (i : Nat) : Fld := ⟨0x400 + 0x4 * i, 31, 1⟩
def Fld.THM_VMON_MV (i : Nat) : Fld := ⟨0x400 + 0x4 * i, 0, 16⟩

/-! ### RST (spec file 17, Table 17.13) -/
def Reg.RST_RST_CAUSE : Nat := 0x080
def Fld.RST_RST_CAUSE_LAST : Fld := ⟨0x080, 24, 4⟩
def Fld.RST_RST_CAUSE_COLD : Fld := ⟨0x080, 16, 2⟩
def Fld.RST_RST_CAUSE_SYS : Fld := ⟨0x080, 0, 4⟩
def Reg.RST_SYS_RESET : Nat := 0x084
def Fld.RST_SYS_RESET_KEY : Fld := ⟨0x084, 0, 16⟩

/-! ### EMB (spec file 17, Table 17.14) -/
def Reg.EMB_EMB_CTRL : Nat := 0x080
def Fld.EMB_EMB_CTRL_CFG_LOCK : Fld := ⟨0x080, 0, 1⟩
def Reg.EMB_EMB_STAT : Nat := 0x084
def Fld.EMB_EMB_STAT_ON_VBAT : Fld := ⟨0x084, 31, 1⟩
def Fld.EMB_EMB_STAT_VBAT_LOW : Fld := ⟨0x084, 30, 1⟩
def Fld.EMB_EMB_STAT_TAMPER1_LVL : Fld := ⟨0x084, 29, 1⟩
def Fld.EMB_EMB_STAT_TAMPER0_LVL : Fld := ⟨0x084, 28, 1⟩
def Reg.EMB_TAMPER0_CFG : Nat := 0x088
def Fld.EMB_TAMPER0_CFG_EN : Fld := ⟨0x088, 31, 1⟩
def Fld.EMB_TAMPER0_CFG_ACTIVE : Fld := ⟨0x088, 30, 1⟩
def Fld.EMB_TAMPER0_CFG_ZEROISE : Fld := ⟨0x088, 29, 1⟩
def Fld.EMB_TAMPER0_CFG_FILTER_MS : Fld := ⟨0x088, 0, 8⟩
def Reg.EMB_TAMPER1_CFG : Nat := 0x08C
def Fld.EMB_TAMPER1_CFG_EN : Fld := ⟨0x08C, 31, 1⟩
def Fld.EMB_TAMPER1_CFG_ACTIVE : Fld := ⟨0x08C, 30, 1⟩
def Fld.EMB_TAMPER1_CFG_ZEROISE : Fld := ⟨0x08C, 29, 1⟩
def Fld.EMB_TAMPER1_CFG_FILTER_MS : Fld := ⟨0x08C, 0, 8⟩
def Reg.EMB_TIME_LO : Nat := 0x090
def Fld.EMB_TIME_LO_COUNT : Fld := ⟨0x090, 0, 32⟩
def Reg.EMB_TIME_HI : Nat := 0x094
def Fld.EMB_TIME_HI_COUNT : Fld := ⟨0x094, 0, 32⟩
def Reg.EMB_KEK_CTRL : Nat := 0x098
def Fld.EMB_KEK_CTRL_INSTALL : Fld := ⟨0x098, 31, 1⟩
def Fld.EMB_KEK_CTRL_ZEROISE : Fld := ⟨0x098, 30, 1⟩
def Reg.EMB_KEK_KCV : Nat := 0x09C
def Fld.EMB_KEK_KCV_KCV : Fld := ⟨0x09C, 0, 32⟩
def Reg.EMB_LOG_STAT : Nat := 0x0A0
def Fld.EMB_LOG_STAT_LOST : Fld := ⟨0x0A0, 8, 8⟩
def Fld.EMB_LOG_STAT_COUNT : Fld := ⟨0x0A0, 0, 7⟩
def Reg.EMB_LOG_IDX : Nat := 0x0A4
def Fld.EMB_LOG_IDX_INDEX : Fld := ⟨0x0A4, 0, 6⟩
def Reg.EMB_LOG_TS_LO : Nat := 0x0A8
def Fld.EMB_LOG_TS_LO_TS : Fld := ⟨0x0A8, 0, 32⟩
def Reg.EMB_LOG_TS_HI : Nat := 0x0AC
def Fld.EMB_LOG_TS_HI_TS : Fld := ⟨0x0AC, 0, 32⟩
def Reg.EMB_LOG_EVT : Nat := 0x0B0
def Fld.EMB_LOG_EVT_CODE : Fld := ⟨0x0B0, 24, 8⟩
def Fld.EMB_LOG_EVT_DATA : Fld := ⟨0x0B0, 0, 24⟩
def Reg.EMB_KEK_W (i : Nat) : Nat := 0x100 + 0x4 * i
def Fld.EMB_KEK_W_BYTES (i : Nat) : Fld := ⟨0x100 + 0x4 * i, 0, 32⟩

/-! ### ALM (spec file 18, Table 18.8) -/
def Reg.ALM_ALM_SUM : Nat := 0x080
def Fld.ALM_ALM_SUM_ALARM : Fld := ⟨0x080, 0, 13⟩
def Reg.ALM_FAULT_EN : Nat := 0x084
def Fld.ALM_FAULT_EN_EN : Fld := ⟨0x084, 0, 13⟩
def Reg.ALM_GUAR_STAT : Nat := 0x088
def Fld.ALM_GUAR_STAT_OK : Fld := ⟨0x088, 31, 1⟩
def Fld.ALM_GUAR_STAT_HOLDOFF : Fld := ⟨0x088, 4, 1⟩
def Fld.ALM_GUAR_STAT_ROC : Fld := ⟨0x088, 3, 1⟩
def Fld.ALM_GUAR_STAT_RAW : Fld := ⟨0x088, 2, 1⟩
def Fld.ALM_GUAR_STAT_PT_OFF : Fld := ⟨0x088, 1, 1⟩
def Fld.ALM_GUAR_STAT_PAIR_OUT : Fld := ⟨0x088, 0, 1⟩
def Reg.ALM_ADMIT_CTRL : Nat := 0x08C
def Fld.ALM_ADMIT_CTRL_START : Fld := ⟨0x08C, 31, 1⟩
def Fld.ALM_ADMIT_CTRL_OP : Fld := ⟨0x08C, 28, 3⟩
def Fld.ALM_ADMIT_CTRL_KIND : Fld := ⟨0x08C, 24, 4⟩
def Fld.ALM_ADMIT_CTRL_STOP : Fld := ⟨0x08C, 8, 6⟩
def Fld.ALM_ADMIT_CTRL_SUB : Fld := ⟨0x08C, 0, 4⟩
def Reg.ALM_ADMIT_STAT : Nat := 0x090
def Fld.ALM_ADMIT_STAT_BUSY : Fld := ⟨0x090, 31, 1⟩
def Fld.ALM_ADMIT_STAT_STATE : Fld := ⟨0x090, 28, 3⟩
def Fld.ALM_ADMIT_STAT_RAMP : Fld := ⟨0x090, 27, 1⟩
def Fld.ALM_ADMIT_STAT_RESULT : Fld := ⟨0x090, 25, 2⟩
def Reg.ALM_ADMIT_CFG : Nat := 0x094
def Fld.ALM_ADMIT_CFG_QUAR_US : Fld := ⟨0x094, 16, 16⟩
def Fld.ALM_ADMIT_CFG_STEP_US : Fld := ⟨0x094, 0, 16⟩
def Reg.ALM_Q_STAT : Nat := 0x098
def Fld.ALM_Q_STAT_POP : Fld := ⟨0x098, 31, 1⟩
def Fld.ALM_Q_STAT_COUNT : Fld := ⟨0x098, 0, 7⟩
def Reg.ALM_Q_REC : Nat := 0x09C
def Fld.ALM_Q_REC_CODE : Fld := ⟨0x09C, 24, 8⟩
def Fld.ALM_Q_REC_PAGE : Fld := ⟨0x09C, 0, 16⟩
def Reg.ALM_Q_DETAIL : Nat := 0x0A0
def Fld.ALM_Q_DETAIL_DETAIL : Fld := ⟨0x0A0, 0, 32⟩
def Reg.ALM_Q_TIME_LO : Nat := 0x0A4
def Fld.ALM_Q_TIME_LO_NS : Fld := ⟨0x0A4, 0, 32⟩
def Reg.ALM_Q_TIME_HI : Nat := 0x0A8
def Fld.ALM_Q_TIME_HI_NS : Fld := ⟨0x0A8, 0, 32⟩

/-! ### PG (spec file 19, Table 19.2) -/
def Reg.PG_PG_ID : Nat := 0x000
def Fld.PG_PG_ID_TYPE : Fld := ⟨0x000, 16, 16⟩
def Fld.PG_PG_ID_INSTANCE : Fld := ⟨0x000, 8, 8⟩
def Fld.PG_PG_ID_REV : Fld := ⟨0x000, 0, 8⟩
def Reg.PG_PG_CAP : Nat := 0x004
def Fld.PG_PG_CAP_TRB_USED : Fld := ⟨0x004, 8, 8⟩
def Fld.PG_PG_CAP_LOCKABLE : Fld := ⟨0x004, 2, 1⟩
def Fld.PG_PG_CAP_SRST : Fld := ⟨0x004, 1, 1⟩
def Fld.PG_PG_CAP_EN : Fld := ⟨0x004, 0, 1⟩
def Reg.PG_PG_CTRL : Nat := 0x008
def Fld.PG_PG_CTRL_SOFT_RESET : Fld := ⟨0x008, 1, 1⟩
def Fld.PG_PG_CTRL_ENABLE : Fld := ⟨0x008, 0, 1⟩
def Reg.PG_PG_STAT : Nat := 0x00C
def Fld.PG_PG_STAT_OFF : Fld := ⟨0x00C, 2, 1⟩
def Fld.PG_PG_STAT_ABSENT : Fld := ⟨0x00C, 1, 1⟩
def Fld.PG_PG_STAT_READY : Fld := ⟨0x00C, 0, 1⟩
def Reg.PG_PG_EVT : Nat := 0x010
def Fld.PG_PG_EVT_REFUSED : Fld := ⟨0x010, 31, 1⟩
def Fld.PG_PG_EVT_LOCK_BROKEN : Fld := ⟨0x010, 30, 1⟩
def Fld.PG_PG_EVT_TRB_SAT : Fld := ⟨0x010, 29, 1⟩
def Fld.PG_PG_EVT_BLK : Fld := ⟨0x010, 0, 16⟩
def Reg.PG_PG_EVT_EN : Nat := 0x014
def Fld.PG_PG_EVT_EN_EN : Fld := ⟨0x014, 0, 32⟩
def Reg.PG_PG_LOCK : Nat := 0x018
def Fld.PG_PG_LOCK_HELD : Fld := ⟨0x018, 31, 1⟩
def Fld.PG_PG_LOCK_BROKEN : Fld := ⟨0x018, 30, 1⟩
def Fld.PG_PG_LOCK_MINE : Fld := ⟨0x018, 29, 1⟩
def Fld.PG_PG_LOCK_OWNER : Fld := ⟨0x018, 16, 8⟩
def Fld.PG_PG_LOCK_CMD : Fld := ⟨0x018, 0, 2⟩
def Reg.PG_PG_REFUSE : Nat := 0x01C
def Fld.PG_PG_REFUSE_VALID : Fld := ⟨0x01C, 31, 1⟩
def Fld.PG_PG_REFUSE_REASON : Fld := ⟨0x01C, 24, 5⟩
def Fld.PG_PG_REFUSE_AGENT : Fld := ⟨0x01C, 16, 8⟩
def Fld.PG_PG_REFUSE_OFFSET : Fld := ⟨0x01C, 0, 12⟩
def Reg.PG_TRB (i : Nat) : Nat := 0x020 + 0x4 * i
def Fld.PG_TRB_CNT (i : Nat) : Fld := ⟨0x020 + 0x4 * i, 0, 16⟩
def Reg.PG_TRB_CLR : Nat := 0x040
def Fld.PG_TRB_CLR_CLR : Fld := ⟨0x040, 0, 1⟩

/-! ### HOST (spec file 19, Table 19.11) -/
def Reg.HOST_PATH_RD : Nat := 0x080
def Fld.HOST_PATH_RD_PF : Fld := ⟨0x080, 8, 8⟩
def Fld.HOST_PATH_RD_PORT : Fld := ⟨0x080, 0, 5⟩
def Reg.HOST_PATH_WR : Nat := 0x084
def Fld.HOST_PATH_WR_PF : Fld := ⟨0x084, 8, 8⟩
def Fld.HOST_PATH_WR_PORT : Fld := ⟨0x084, 0, 5⟩
def Reg.HOST_PF_AP_LO (i : Nat) : Nat := 0x100 + 0x20 * i
def Fld.HOST_PF_AP_LO_BASE (i : Nat) : Fld := ⟨0x100 + 0x20 * i, 20, 12⟩
def Fld.HOST_PF_AP_LO_SIZE (i : Nat) : Fld := ⟨0x100 + 0x20 * i, 0, 6⟩
def Reg.HOST_PF_AP_HI (i : Nat) : Nat := 0x104 + 0x20 * i
def Fld.HOST_PF_AP_HI_BASE (i : Nat) : Fld := ⟨0x104 + 0x20 * i, 0, 16⟩
def Reg.HOST_VF_AP_LO (i : Nat) : Nat := 0x108 + 0x20 * i
def Fld.HOST_VF_AP_LO_BASE (i : Nat) : Fld := ⟨0x108 + 0x20 * i, 20, 12⟩
def Fld.HOST_VF_AP_LO_SIZE (i : Nat) : Fld := ⟨0x108 + 0x20 * i, 0, 6⟩
def Reg.HOST_VF_AP_HI (i : Nat) : Nat := 0x10C + 0x20 * i
def Fld.HOST_VF_AP_HI_BASE (i : Nat) : Fld := ⟨0x10C + 0x20 * i, 0, 16⟩
def Reg.HOST_AP_KID (i : Nat) : Nat := 0x110 + 0x20 * i
def Fld.HOST_AP_KID_VF_KID (i : Nat) : Fld := ⟨0x110 + 0x20 * i, 16, 10⟩
def Fld.HOST_AP_KID_PF_KID (i : Nat) : Fld := ⟨0x110 + 0x20 * i, 0, 10⟩
def Reg.HOST_MSIX_SIZE (i : Nat) : Nat := 0x114 + 0x20 * i
def Fld.HOST_MSIX_SIZE_VF (i : Nat) : Fld := ⟨0x114 + 0x20 * i, 16, 12⟩
def Fld.HOST_MSIX_SIZE_PF (i : Nat) : Fld := ⟨0x114 + 0x20 * i, 0, 12⟩
def Reg.HOST_EVT_ROUTE (i : Nat) : Nat := 0x200 + 0x4 * i
def Fld.HOST_EVT_ROUTE_EN (i : Nat) : Fld := ⟨0x200 + 0x4 * i, 31, 1⟩
def Fld.HOST_EVT_ROUTE_PAGE (i : Nat) : Fld := ⟨0x200 + 0x4 * i, 16, 13⟩
def Fld.HOST_EVT_ROUTE_VECTOR (i : Nat) : Fld := ⟨0x200 + 0x4 * i, 0, 11⟩
def Reg.HOST_TEN_MAP (i : Nat) : Nat := 0x400 + 0x4 * i
def Fld.HOST_TEN_MAP_TID_ODD (i : Nat) : Fld := ⟨0x400 + 0x4 * i, 16, 9⟩
def Fld.HOST_TEN_MAP_TID_EVEN (i : Nat) : Fld := ⟨0x400 + 0x4 * i, 0, 9⟩

/-! ### I2CT (spec file 19, Table 19.13) -/
def Reg.I2CT_I2C_CTRL : Nat := 0x080
def Fld.I2CT_I2C_CTRL_ADDR : Fld := ⟨0x080, 0, 7⟩
def Reg.I2CT_I2C_STAT : Nat := 0x084
def Fld.I2CT_I2C_STAT_RESULT : Fld := ⟨0x084, 0, 8⟩

/-! ### USBD (spec file 19, Table 19.13) -/
def Reg.USBD_USB_CTRL : Nat := 0x080
def Fld.USBD_USB_CTRL_ATTACH : Fld := ⟨0x080, 0, 1⟩
def Reg.USBD_USB_STAT : Nat := 0x084
def Fld.USBD_USB_STAT_HS : Fld := ⟨0x084, 31, 1⟩
def Fld.USBD_USB_STAT_STATE : Fld := ⟨0x084, 0, 3⟩
def Reg.USBD_USB_IDS : Nat := 0x088
def Fld.USBD_USB_IDS_VID : Fld := ⟨0x088, 16, 16⟩
def Fld.USBD_USB_IDS_PID : Fld := ⟨0x088, 0, 16⟩

/-! ### JTG (spec file 19, Table 19.15) -/
def Reg.JTG_JTG_CTRL : Nat := 0x080
def Fld.JTG_JTG_CTRL_WIN_EN : Fld := ⟨0x080, 0, 1⟩

/-! ### MBX (spec file 19, Table 19.15) -/
def Reg.MBX_MBX_INFO : Nat := 0x080
def Fld.MBX_MBX_INFO_FW_RUN : Fld := ⟨0x080, 31, 1⟩
def Fld.MBX_MBX_INFO_PAIR : Fld := ⟨0x080, 30, 1⟩
def Fld.MBX_MBX_INFO_VERSION : Fld := ⟨0x080, 0, 16⟩
def Reg.MBX_MBX_TIMEOUT : Nat := 0x084
def Fld.MBX_MBX_TIMEOUT_MS : Fld := ⟨0x084, 0, 14⟩
def Reg.MBX_CH_CTRL (i : Nat) : Nat := 0x400 + 0x100 * i
def Fld.MBX_CH_CTRL_CMD (i : Nat) : Fld := ⟨0x400 + 0x100 * i, 0, 3⟩
def Reg.MBX_CH_STAT (i : Nat) : Nat := 0x404 + 0x100 * i
def Fld.MBX_CH_STAT_MINE (i : Nat) : Fld := ⟨0x404 + 0x100 * i, 31, 1⟩
def Fld.MBX_CH_STAT_OWNER (i : Nat) : Fld := ⟨0x404 + 0x100 * i, 16, 8⟩
def Fld.MBX_CH_STAT_STATE (i : Nat) : Fld := ⟨0x404 + 0x100 * i, 0, 3⟩
def Reg.MBX_CH_REQ (i : Nat) : Nat := 0x408 + 0x100 * i
def Fld.MBX_CH_REQ_SERVICE (i : Nat) : Fld := ⟨0x408 + 0x100 * i, 16, 16⟩
def Fld.MBX_CH_REQ_LEN (i : Nat) : Fld := ⟨0x408 + 0x100 * i, 0, 8⟩
def Reg.MBX_CH_RSP (i : Nat) : Nat := 0x40C + 0x100 * i
def Fld.MBX_CH_RSP_STATUS (i : Nat) : Fld := ⟨0x40C + 0x100 * i, 24, 8⟩
def Fld.MBX_CH_RSP_LEN (i : Nat) : Fld := ⟨0x40C + 0x100 * i, 0, 8⟩
def Reg.MBX_CH_DATA (i j : Nat) : Nat := 0x480 + 0x100 * i + 4 * j
def Fld.MBX_CH_DATA_BYTES (i j : Nat) : Fld := ⟨0x480 + 0x100 * i + 4 * j, 0, 32⟩

/-! ### BIST (spec file 20, Table 20.6) -/
def Reg.BIST_BOOT_CTRL : Nat := 0x080
def Fld.BIST_BOOT_CTRL_FULL : Fld := ⟨0x080, 0, 1⟩
def Reg.BIST_BOOT_STAT : Nat := 0x084
def Fld.BIST_BOOT_STAT_DONE : Fld := ⟨0x084, 31, 1⟩
def Fld.BIST_BOOT_STAT_FULL_RUN : Fld := ⟨0x084, 30, 1⟩
def Fld.BIST_BOOT_STAT_RESULT : Fld := ⟨0x084, 28, 2⟩
def Fld.BIST_BOOT_STAT_DURATION_US : Fld := ⟨0x084, 0, 18⟩
def Reg.BIST_FAIL_DIE : Nat := 0x088
def Fld.BIST_FAIL_DIE_DC : Fld := ⟨0x088, 8, 8⟩
def Fld.BIST_FAIL_DIE_DIE : Fld := ⟨0x088, 0, 8⟩
def Reg.BIST_FAIL_LAN : Nat := 0x08C
def Fld.BIST_FAIL_LAN_LAN : Fld := ⟨0x08C, 0, 24⟩
def Reg.BIST_FAIL_QUAD_LO : Nat := 0x090
def Fld.BIST_FAIL_QUAD_LO_QUAD : Fld := ⟨0x090, 0, 32⟩
def Reg.BIST_FAIL_QUAD_HI : Nat := 0x094
def Fld.BIST_FAIL_QUAD_HI_QUAD : Fld := ⟨0x094, 0, 16⟩
def Reg.BIST_FAIL_ENG : Nat := 0x098
def Fld.BIST_FAIL_ENG_CHK : Fld := ⟨0x098, 16, 16⟩
def Fld.BIST_FAIL_ENG_SCRUB : Fld := ⟨0x098, 8, 8⟩
def Fld.BIST_FAIL_ENG_DDR : Fld := ⟨0x098, 4, 4⟩
def Fld.BIST_FAIL_ENG_HBM : Fld := ⟨0x098, 0, 4⟩
def Reg.BIST_FAIL_PORT : Nat := 0x09C
def Fld.BIST_FAIL_PORT_UCIE : Fld := ⟨0x09C, 4, 4⟩
def Fld.BIST_FAIL_PORT_HOST : Fld := ⟨0x09C, 3, 1⟩
def Fld.BIST_FAIL_PORT_NV : Fld := ⟨0x09C, 2, 1⟩
def Fld.BIST_FAIL_PORT_PAIR : Fld := ⟨0x09C, 0, 2⟩
def Reg.BIST_MF_STAT : Nat := 0x0A0
def Fld.BIST_MF_STAT_LOST : Fld := ⟨0x0A0, 8, 8⟩
def Fld.BIST_MF_STAT_COUNT : Fld := ⟨0x0A0, 0, 8⟩
def Reg.BIST_MF_IDX : Nat := 0x0A4
def Fld.BIST_MF_IDX_INDEX : Fld := ⟨0x0A4, 0, 7⟩
def Reg.BIST_MF_LO : Nat := 0x0A8
def Fld.BIST_MF_LO_BITS : Fld := ⟨0x0A8, 0, 32⟩
def Reg.BIST_MF_HI : Nat := 0x0AC
def Fld.BIST_MF_HI_BITS : Fld := ⟨0x0AC, 0, 32⟩
def Reg.BIST_LB_LAST : Nat := 0x0B0
def Fld.BIST_LB_LAST_VALID : Fld := ⟨0x0B0, 31, 1⟩
def Fld.BIST_LB_LAST_KIND : Fld := ⟨0x0B0, 27, 4⟩
def Fld.BIST_LB_LAST_INDEX : Fld := ⟨0x0B0, 21, 6⟩
def Fld.BIST_LB_LAST_PART : Fld := ⟨0x0B0, 0, 16⟩
def Reg.BIST_FB_CTRL : Nat := 0x0B4
def Fld.BIST_FB_CTRL_START : Fld := ⟨0x0B4, 31, 1⟩
def Fld.BIST_FB_CTRL_FULL : Fld := ⟨0x0B4, 30, 1⟩
def Fld.BIST_FB_CTRL_KIND : Fld := ⟨0x0B4, 24, 4⟩
def Fld.BIST_FB_CTRL_INDEX : Fld := ⟨0x0B4, 0, 6⟩
def Reg.BIST_FB_STAT : Nat := 0x0B8
def Fld.BIST_FB_STAT_BUSY : Fld := ⟨0x0B8, 31, 1⟩
def Fld.BIST_FB_STAT_RESULT : Fld := ⟨0x0B8, 28, 3⟩
def Fld.BIST_FB_STAT_KIND : Fld := ⟨0x0B8, 24, 4⟩
def Fld.BIST_FB_STAT_MEM_FAIL : Fld := ⟨0x0B8, 16, 8⟩
def Fld.BIST_FB_STAT_INDEX : Fld := ⟨0x0B8, 0, 6⟩

/-! ### ATB (spec file 20, Table 20.6) -/
def Reg.ATB_ATB_CTRL : Nat := 0x080
def Fld.ATB_ATB_CTRL_EN : Fld := ⟨0x080, 31, 1⟩
def Fld.ATB_ATB_CTRL_LANE_PT : Fld := ⟨0x080, 16, 2⟩
def Reg.ATB_ATB0_SEL : Nat := 0x084
def Fld.ATB_ATB0_SEL_POINT : Fld := ⟨0x084, 0, 9⟩
def Reg.ATB_ATB1_SEL : Nat := 0x088
def Fld.ATB_ATB1_SEL_POINT : Fld := ⟨0x088, 0, 9⟩
def Reg.ATB_ATB_STAT : Nat := 0x08C
def Fld.ATB_ATB_STAT_CONNECTED : Fld := ⟨0x08C, 31, 1⟩
def Fld.ATB_ATB_STAT_PROBE : Fld := ⟨0x08C, 30, 1⟩
def Fld.ATB_ATB_STAT_SWITCHING : Fld := ⟨0x08C, 29, 1⟩

/-! ### STK (spec file 08, Table 08.11) -/
def Reg.STK_RM_XOR : Nat := 0x100
def Fld.STK_RM_XOR_MASK : Fld := ⟨0x100, 0, 17⟩
def Reg.STK_RM_PERM0 : Nat := 0x104
def Fld.STK_RM_PERM0_P5 : Fld := ⟨0x104, 25, 5⟩
def Fld.STK_RM_PERM0_P4 : Fld := ⟨0x104, 20, 5⟩
def Fld.STK_RM_PERM0_P3 : Fld := ⟨0x104, 15, 5⟩
def Fld.STK_RM_PERM0_P2 : Fld := ⟨0x104, 10, 5⟩
def Fld.STK_RM_PERM0_P1 : Fld := ⟨0x104, 5, 5⟩
def Fld.STK_RM_PERM0_P0 : Fld := ⟨0x104, 0, 5⟩
def Reg.STK_RM_PERM1 : Nat := 0x108
def Fld.STK_RM_PERM1_P5 : Fld := ⟨0x108, 25, 5⟩
def Fld.STK_RM_PERM1_P4 : Fld := ⟨0x108, 20, 5⟩
def Fld.STK_RM_PERM1_P3 : Fld := ⟨0x108, 15, 5⟩
def Fld.STK_RM_PERM1_P2 : Fld := ⟨0x108, 10, 5⟩
def Fld.STK_RM_PERM1_P1 : Fld := ⟨0x108, 5, 5⟩
def Fld.STK_RM_PERM1_P0 : Fld := ⟨0x108, 0, 5⟩
def Reg.STK_RM_PERM2 : Nat := 0x10C
def Fld.STK_RM_PERM2_P4 : Fld := ⟨0x10C, 20, 5⟩
def Fld.STK_RM_PERM2_P3 : Fld := ⟨0x10C, 15, 5⟩
def Fld.STK_RM_PERM2_P2 : Fld := ⟨0x10C, 10, 5⟩
def Fld.STK_RM_PERM2_P1 : Fld := ⟨0x10C, 5, 5⟩
def Fld.STK_RM_PERM2_P0 : Fld := ⟨0x10C, 0, 5⟩
def Reg.STK_EXC_LOG (i : Nat) : Nat := 0x110 + 0x8 * i
def Fld.STK_EXC_LOG_VALID (i : Nat) : Fld := ⟨0x110 + 0x8 * i, 31, 1⟩
def Fld.STK_EXC_LOG_ROW (i : Nat) : Fld := ⟨0x110 + 0x8 * i, 0, 17⟩
def Reg.STK_EXC_PHYS (i : Nat) : Nat := 0x114 + 0x8 * i
def Fld.STK_EXC_PHYS_ROW (i : Nat) : Fld := ⟨0x114 + 0x8 * i, 0, 17⟩

/-! ### DDRRMT (spec file 08, Table 08.11) -/
def Reg.DDRRMT_RM_XOR : Nat := 0x080
def Fld.DDRRMT_RM_XOR_MASK : Fld := ⟨0x080, 0, 17⟩
def Reg.DDRRMT_RM_PERM0 : Nat := 0x084
def Fld.DDRRMT_RM_PERM0_P5 : Fld := ⟨0x084, 25, 5⟩
def Fld.DDRRMT_RM_PERM0_P4 : Fld := ⟨0x084, 20, 5⟩
def Fld.DDRRMT_RM_PERM0_P3 : Fld := ⟨0x084, 15, 5⟩
def Fld.DDRRMT_RM_PERM0_P2 : Fld := ⟨0x084, 10, 5⟩
def Fld.DDRRMT_RM_PERM0_P1 : Fld := ⟨0x084, 5, 5⟩
def Fld.DDRRMT_RM_PERM0_P0 : Fld := ⟨0x084, 0, 5⟩
def Reg.DDRRMT_RM_PERM1 : Nat := 0x088
def Fld.DDRRMT_RM_PERM1_P5 : Fld := ⟨0x088, 25, 5⟩
def Fld.DDRRMT_RM_PERM1_P4 : Fld := ⟨0x088, 20, 5⟩
def Fld.DDRRMT_RM_PERM1_P3 : Fld := ⟨0x088, 15, 5⟩
def Fld.DDRRMT_RM_PERM1_P2 : Fld := ⟨0x088, 10, 5⟩
def Fld.DDRRMT_RM_PERM1_P1 : Fld := ⟨0x088, 5, 5⟩
def Fld.DDRRMT_RM_PERM1_P0 : Fld := ⟨0x088, 0, 5⟩
def Reg.DDRRMT_RM_PERM2 : Nat := 0x08C
def Fld.DDRRMT_RM_PERM2_P4 : Fld := ⟨0x08C, 20, 5⟩
def Fld.DDRRMT_RM_PERM2_P3 : Fld := ⟨0x08C, 15, 5⟩
def Fld.DDRRMT_RM_PERM2_P2 : Fld := ⟨0x08C, 10, 5⟩
def Fld.DDRRMT_RM_PERM2_P1 : Fld := ⟨0x08C, 5, 5⟩
def Fld.DDRRMT_RM_PERM2_P0 : Fld := ⟨0x08C, 0, 5⟩
def Reg.DDRRMT_EXC_LOG (i : Nat) : Nat := 0x090 + 0x8 * i
def Fld.DDRRMT_EXC_LOG_VALID (i : Nat) : Fld := ⟨0x090 + 0x8 * i, 31, 1⟩
def Fld.DDRRMT_EXC_LOG_ROW (i : Nat) : Fld := ⟨0x090 + 0x8 * i, 0, 17⟩
def Reg.DDRRMT_EXC_PHYS (i : Nat) : Nat := 0x094 + 0x8 * i
def Fld.DDRRMT_EXC_PHYS_ROW (i : Nat) : Fld := ⟨0x094 + 0x8 * i, 0, 17⟩

/-! ### Block event bits of PG_EVT (the block bits of each page kind) -/
def Evt.STOP_PARK_TO : Fld := ⟨0x010, 5, 1⟩
def Evt.STOP_FAILOVER : Fld := ⟨0x010, 4, 1⟩
def Evt.STOP_REPLAY : Fld := ⟨0x010, 3, 1⟩
def Evt.STOP_REFUSED : Fld := ⟨0x010, 2, 1⟩
def Evt.STOP_SNUFF_TO : Fld := ⟨0x010, 1, 1⟩
def Evt.STOP_SNUFF_DONE : Fld := ⟨0x010, 0, 1⟩
def Evt.IME_PURGED : Fld := ⟨0x010, 1, 1⟩
def Evt.IME_VIOL : Fld := ⟨0x010, 0, 1⟩
def Evt.CHK_ERROR : Fld := ⟨0x010, 2, 1⟩
def Evt.CHK_REJECT : Fld := ⟨0x010, 1, 1⟩
def Evt.CHK_JOB_END : Fld := ⟨0x010, 0, 1⟩
def Evt.LN_TRAIN_FAIL : Fld := ⟨0x010, 4, 1⟩
def Evt.LN_FAST_MISS : Fld := ⟨0x010, 3, 1⟩
def Evt.LN_LOS : Fld := ⟨0x010, 2, 1⟩
def Evt.LN_UP : Fld := ⟨0x010, 1, 1⟩
def Evt.LN_CHK_LOSS : Fld := ⟨0x010, 0, 1⟩
def Evt.UCIM_FAILED : Fld := ⟨0x010, 2, 1⟩
def Evt.UCIM_RETRAIN : Fld := ⟨0x010, 1, 1⟩
def Evt.UCIM_ACTIVE : Fld := ⟨0x010, 0, 1⟩
def Evt.TQ_QBROKEN : Fld := ⟨0x010, 3, 1⟩
def Evt.TQ_PERR : Fld := ⟨0x010, 2, 1⟩
def Evt.TQ_LAMPLIGHTER : Fld := ⟨0x010, 1, 1⟩
def Evt.TQ_RUNNING : Fld := ⟨0x010, 0, 1⟩
def Evt.REF_DISAGREE : Fld := ⟨0x010, 4, 1⟩
def Evt.REF_SOURCE_FAIL : Fld := ⟨0x010, 3, 1⟩
def Evt.REF_HOLDOVER : Fld := ⟨0x010, 2, 1⟩
def Evt.REF_MASTER_LOSS : Fld := ⟨0x010, 1, 1⟩
def Evt.REF_REF_SWITCH : Fld := ⟨0x010, 0, 1⟩
def Evt.CLK_WICK_TO : Fld := ⟨0x010, 1, 1⟩
def Evt.CLK_FORCED : Fld := ⟨0x010, 0, 1⟩
def Evt.CFG_DONE_WAIT : Fld := ⟨0x010, 4, 1⟩
def Evt.CFG_DONE_LOW : Fld := ⟨0x010, 3, 1⟩
def Evt.CFG_PR_END : Fld := ⟨0x010, 2, 1⟩
def Evt.CFG_LOAD_FAIL : Fld := ⟨0x010, 1, 1⟩
def Evt.CFG_USER_EN : Fld := ⟨0x010, 0, 1⟩
def Evt.MBX_DONE : Fld := ⟨0x010, 0, 8⟩
def Evt.SPAN_DOWN : Fld := ⟨0x010, 1, 1⟩
def Evt.SPAN_UP : Fld := ⟨0x010, 0, 1⟩
def Evt.FABMEM_DBE : Fld := ⟨0x010, 0, 1⟩
def Evt.ENG_FAULT : Fld := ⟨0x010, 0, 1⟩
def Evt.SCR_PASS_END : Fld := ⟨0x010, 0, 1⟩
def Evt.ECC_FRAME : Fld := ⟨0x010, 0, 1⟩
def Evt.REP_LIST_BAD : Fld := ⟨0x010, 0, 1⟩
def Evt.DLK_XNG_DBE : Fld := ⟨0x010, 0, 1⟩
def Evt.HBMPC_TRAIN_FAIL : Fld := ⟨0x010, 0, 1⟩
def Evt.DDR_TRAIN_FAIL : Fld := ⟨0x010, 0, 1⟩

/-- The registers of the DEV0 page map. -/
def regsDEV0 : List RegDef := [
  ⟨"PART_ID", 0x080, 0x0, 1, 0, 1, .P, 0x00000000, false, [⟨24, 8, .ro⟩, ⟨16, 8, .ro⟩, ⟨12, 4, .ro⟩, ⟨8, 4, .ro⟩, ⟨7, 1, .ro⟩]⟩]

/-- The registers of the FABCTL page map. -/
def regsFABCTL : List RegDef := [
  ⟨"DIE_STAT", 0x080, 0x0, 1, 0, 1, .W, 0x00000000, false, [⟨4, 1, .ro⟩, ⟨3, 1, .ro⟩, ⟨0, 3, .ro⟩]⟩,
  ⟨"CREG_GATE", 0x084, 0x0, 1, 0, 1, .D, 0x00000000, false, [⟨0, 16, .rw⟩]⟩,
  ⟨"CREG_ACTIVE", 0x088, 0x0, 1, 0, 1, .D, 0x00000000, false, [⟨0, 16, .ro⟩]⟩]

/-- The registers of the FABXNG page map. -/
def regsFABXNG : List RegDef := [
  ⟨"XNG_CLAMPED", 0x080, 0x0, 1, 0, 1, .W, 0x00000000, false, [⟨0, 8, .ro⟩]⟩,
  ⟨"XNG_GCLK_USE", 0x084, 0x0, 1, 0, 1, .W, 0x00000000, false, [⟨0, 32, .ro⟩]⟩]

/-- The registers of the FABMEM page map. -/
def regsFABMEM : List RegDef := [
  ⟨"BM_ECC_CTRL", 0x080, 0x0, 1, 0, 1, .W, 0x00000003, false, [⟨1, 1, .rw⟩, ⟨0, 1, .rw⟩]⟩,
  ⟨"LAST_ERR_LOC", 0x084, 0x0, 1, 0, 1, .W, 0x00000000, false, [⟨31, 1, .w1c⟩, ⟨30, 1, .ro⟩, ⟨29, 1, .ro⟩, ⟨17, 12, .ro⟩, ⟨0, 14, .ro⟩]⟩,
  ⟨"LAST_ERR_SYN", 0x088, 0x0, 1, 0, 1, .W, 0x00000000, false, [⟨0, 8, .ro⟩]⟩]

/-- The registers of the FABPRT page map. -/
def regsFABPRT : List RegDef := [
  ⟨"PORT_CTRL", 0x080, 0x0, 1, 0, 1, .D, 0x00000000, true, [⟨3, 1, .ro⟩, ⟨1, 2, .ro⟩, ⟨0, 1, .rwh⟩]⟩,
  ⟨"PORT_TENANT", 0x084, 0x0, 1, 0, 1, .D, 0x00000000, true, [⟨0, 9, .ro⟩]⟩,
  ⟨"TGT_TIMEOUT", 0x088, 0x0, 1, 0, 1, .D, 0x0000000A, false, [⟨0, 14, .rw⟩]⟩,
  ⟨"RSP_SLOTS", 0x08C, 0x0, 1, 0, 1, .D, 0x00000080, false, [⟨0, 8, .ro⟩]⟩,
  ⟨"OUTSTANDING", 0x090, 0x0, 1, 0, 1, .D, 0x00000000, false, [⟨0, 8, .ro⟩]⟩]

/-- The registers of the FABSLT page map. -/
def regsFABSLT : List RegDef := [
  ⟨"SLOT_STATn", 0x080, 0x4, 32, 0, 1, .D, 0x00000000, false, [⟨8, 5, .ro⟩, ⟨0, 3, .ro⟩]⟩]

/-- The registers of the ENG page map. -/
def regsENG : List RegDef := [
  ⟨"CMD", 0x080, 0x0, 1, 0, 1, .D, 0x00000000, false, [⟨2, 1, .wo⟩, ⟨1, 1, .wo⟩, ⟨0, 1, .wo⟩]⟩,
  ⟨"STATUS", 0x084, 0x0, 1, 0, 1, .D, 0x00000001, false, [⟨12, 4, .ro⟩, ⟨9, 1, .ro⟩, ⟨8, 1, .w1c⟩, ⟨0, 3, .ro⟩]⟩,
  ⟨"PC", 0x088, 0x0, 1, 0, 1, .D, 0x00000000, true, [⟨0, 12, .rwh⟩]⟩,
  ⟨"FAULT_PC", 0x08C, 0x0, 1, 0, 1, .D, 0x00000000, false, [⟨0, 12, .ro⟩]⟩,
  ⟨"HALT_TIMEOUT", 0x090, 0x0, 1, 0, 1, .D, 0x00001000, false, [⟨0, 20, .rw⟩]⟩,
  ⟨"ENTRY", 0x094, 0x0, 1, 0, 1, .D, 0x00000000, true, [⟨0, 12, .rw⟩]⟩,
  ⟨"WARM_LEN", 0x098, 0x0, 1, 0, 1, .D, 0x00000000, true, [⟨16, 12, .rw⟩, ⟨0, 12, .rw⟩]⟩,
  ⟨"DLY_RANGE", 0x09C, 0x0, 1, 0, 1, .D, 0x00000000, true, [⟨16, 13, .rw⟩, ⟨0, 12, .rw⟩]⟩,
  ⟨"SHIFT_SAVED", 0x0A0, 0x0, 1, 0, 1, .D, 0x00000000, false, [⟨8, 6, .ro⟩, ⟨7, 1, .ro⟩, ⟨3, 4, .ro⟩, ⟨0, 3, .ro⟩]⟩]

/-- The registers of the ENGSR page map. -/
def regsENGSR : List RegDef := [
  ⟨"SRr", 0x080, 0x4, 20, 0, 1, .D, 0x00000000, false, [⟨0, 32, .rw⟩]⟩,
  ⟨"Si", 0x100, 0x4, 32, 0, 1, .D, 0x00000000, false, [⟨0, 32, .rw⟩]⟩,
  ⟨"E0_3", 0x180, 0x0, 1, 0, 1, .D, 0x00000000, false, [⟨0, 32, .rw⟩]⟩,
  ⟨"E4_7", 0x184, 0x0, 1, 0, 1, .D, 0x00000000, false, [⟨0, 32, .rw⟩]⟩,
  ⟨"PPHYS", 0x188, 0x0, 1, 0, 1, .D, 0x00000000, false, [⟨0, 32, .rw⟩]⟩,
  ⟨"VA_SEL", 0x1C0, 0x0, 1, 0, 1, .D, 0x00000000, false, [⟨0, 32, .rw⟩]⟩,
  ⟨"VA_DATAj", 0x200, 0x4, 48, 0, 1, .D, 0x00000000, false, [⟨0, 32, .rw⟩]⟩]

/-- The registers of the LAN page map. -/
def regsLAN : List RegDef := [
  ⟨"SYNC_CMD", 0x080, 0x0, 1, 0, 1, .D, 0x00000000, false, [⟨0, 1, .wo⟩]⟩,
  ⟨"SYNC_CTRL", 0x084, 0x0, 1, 0, 1, .D, 0x00000000, true, [⟨8, 1, .rw⟩, ⟨4, 1, .rw⟩, ⟨0, 4, .rw⟩]⟩,
  ⟨"SYNC_STAT", 0x088, 0x0, 1, 0, 1, .D, 0x00000000, false, [⟨4, 1, .ro⟩, ⟨0, 4, .ro⟩]⟩,
  ⟨"LAN_STAT", 0x08C, 0x0, 1, 0, 1, .W, 0x00000000, false, [⟨0, 2, .ro⟩]⟩]

/-- The registers of the STOP page map. -/
def regsSTOP : List RegDef := [
  ⟨"STOP_INFO", 0x080, 0x0, 1, 0, 1, .P, 0x00000000, false, [⟨0, 16, .ro⟩]⟩,
  ⟨"IF_STAT", 0x084, 0x0, 1, 0, 1, .W, 0x00000000, false, [⟨0, 16, .ro⟩]⟩,
  ⟨"IF_CTRL", 0x088, 0x0, 1, 0, 1, .W, 0x000000F0, false, [⟨4, 4, .rwl⟩]⟩,
  ⟨"SNUFF_CTRL", 0x08C, 0x0, 1, 0, 1, .W, 0x00000000, false, [⟨4, 4, .w1s⟩, ⟨0, 4, .w1s⟩]⟩,
  ⟨"SNUFF_STAT", 0x090, 0x0, 1, 0, 1, .W, 0x00000000, false, [⟨4, 4, .w1c⟩, ⟨0, 4, .w1c⟩]⟩,
  ⟨"SNUFF_TIMEOUT", 0x094, 0x0, 1, 0, 1, .W, 0x00000064, false, [⟨0, 14, .rw⟩]⟩,
  ⟨"REQ_TIMEOUT", 0x098, 0x0, 1, 0, 1, .W, 0x000007D0, false, [⟨0, 14, .rw⟩]⟩,
  ⟨"FENCE", 0x09C, 0x0, 1, 0, 1, .W, 0x00000000, false, [⟨4, 4, .ro⟩, ⟨0, 4, .wo⟩]⟩,
  ⟨"POOLS", 0x0A0, 0x0, 1, 0, 1, .W, 0x10040010, false, [⟨20, 9, .ro⟩, ⟨10, 9, .ro⟩, ⟨0, 5, .ro⟩]⟩,
  ⟨"PARK_STAT", 0x0A4, 0x0, 1, 0, 1, .W, 0x00000000, false, [⟨0, 4, .ro⟩]⟩,
  ⟨"SEG_FAIL", 0x0A8, 0x0, 1, 0, 1, .W, 0x00000000, false, [⟨0, 16, .ro⟩]⟩,
  ⟨"WIN_BASEw", 0x100, 0x10, 16, 0, 1, .W, 0x00000000, false, [⟨0, 32, .rwl⟩]⟩,
  ⟨"WIN_LIMITw", 0x104, 0x10, 16, 0, 1, .W, 0xFFFFFFFF, false, [⟨0, 32, .rwl⟩]⟩,
  ⟨"WIN_TENw", 0x108, 0x10, 16, 0, 1, .W, 0xE003FE00, false, [⟨31, 1, .rwl⟩, ⟨30, 1, .rwl⟩, ⟨29, 1, .rwl⟩, ⟨9, 9, .rwl⟩, ⟨0, 9, .rwl⟩]⟩]

/-- The registers of the SC page map. -/
def regsSC : List RegDef := [
  ⟨"SC_STAT", 0x080, 0x0, 1, 0, 1, .W, 0x00000000, false, [⟨16, 8, .ro⟩, ⟨0, 7, .ro⟩]⟩,
  ⟨"LAST_POISON_LO", 0x084, 0x0, 1, 0, 1, .W, 0x00000000, false, [⟨6, 26, .ro⟩]⟩,
  ⟨"LAST_POISON_HI", 0x088, 0x0, 1, 0, 1, .W, 0x00000000, false, [⟨31, 1, .w1c⟩, ⟨0, 16, .ro⟩]⟩]

/-- The registers of the DC page map. -/
def regsDC : List RegDef := [
  ⟨"DC_CTRL", 0x080, 0x0, 1, 0, 1, .D, 0x00000000, false, [⟨0, 1, .wo⟩]⟩,
  ⟨"DC_STAT", 0x084, 0x0, 1, 0, 1, .D, 0x00000000, false, [⟨31, 1, .ro⟩, ⟨0, 3, .ro⟩]⟩,
  ⟨"WB_LEFT", 0x088, 0x0, 1, 0, 1, .D, 0x00000000, false, [⟨0, 19, .ro⟩]⟩,
  ⟨"SNP_HELD", 0x08C, 0x0, 1, 0, 1, .D, 0x00000000, false, [⟨0, 6, .ro⟩]⟩]

/-- The registers of the DIR page map. -/
def regsDIR : List RegDef := [
  ⟨"SC_WAYSc", 0x080, 0x4, 8, 0, 1, .W, 0x0000FFFF, false, [⟨0, 16, .rw⟩]⟩,
  ⟨"DC_WAYSc", 0x0A0, 0x4, 8, 0, 1, .W, 0x0000FFFF, false, [⟨0, 16, .rw⟩]⟩,
  ⟨"CMO_BASE_LO", 0x0C0, 0x0, 1, 0, 1, .W, 0x00000000, false, [⟨6, 26, .rw⟩]⟩,
  ⟨"CMO_BASE_HI", 0x0C4, 0x0, 1, 0, 1, .W, 0x00000000, false, [⟨16, 10, .rw⟩, ⟨0, 16, .rw⟩]⟩,
  ⟨"CMO_LEN", 0x0C8, 0x0, 1, 0, 1, .W, 0x00000000, false, [⟨0, 24, .rw⟩]⟩,
  ⟨"CMO_CTRL", 0x0CC, 0x0, 1, 0, 1, .W, 0x00000000, false, [⟨31, 1, .ro⟩, ⟨29, 2, .ro⟩, ⟨1, 2, .rw⟩, ⟨0, 1, .wo⟩]⟩,
  ⟨"DIE_LOST", 0x0D0, 0x0, 1, 0, 1, .W, 0x00000000, false, [⟨0, 8, .w1s⟩]⟩,
  ⟨"PART_TABLEi", 0x200, 0x4, 64, 0, 1, .W, 0x00000000, false, [⟨0, 32, .rw⟩]⟩]

/-- The registers of the STK page map. -/
def regsSTK : List RegDef := [
  ⟨"STK_STAT", 0x080, 0x0, 1, 0, 1, .W, 0x00000000, false, [⟨8, 4, .ro⟩, ⟨4, 2, .ro⟩, ⟨0, 3, .ro⟩]⟩,
  ⟨"SPEED", 0x084, 0x0, 1, 0, 1, .S, 0x00000000, false, [⟨0, 2, .rw⟩]⟩,
  ⟨"LANE_REP", 0x088, 0x0, 1, 0, 1, .W, 0x00000000, false, [⟨8, 8, .ro⟩, ⟨0, 8, .ro⟩]⟩,
  ⟨"RM_XOR", 0x100, 0x0, 1, 0, 1, .W, 0x00000000, false, [⟨0, 17, .rwl⟩]⟩,
  ⟨"RM_PERM0", 0x104, 0x0, 1, 0, 1, .W, 0x0A418820, false, [⟨25, 5, .rwl⟩, ⟨20, 5, .rwl⟩, ⟨15, 5, .rwl⟩, ⟨10, 5, .rwl⟩, ⟨5, 5, .rwl⟩, ⟨0, 5, .rwl⟩]⟩,
  ⟨"RM_PERM1", 0x108, 0x0, 1, 0, 1, .W, 0x16A4A0E6, false, [⟨25, 5, .rwl⟩, ⟨20, 5, .rwl⟩, ⟨15, 5, .rwl⟩, ⟨10, 5, .rwl⟩, ⟨5, 5, .rwl⟩, ⟨0, 5, .rwl⟩]⟩,
  ⟨"RM_PERM2", 0x10C, 0x0, 1, 0, 1, .W, 0x0107B9AC, false, [⟨20, 5, .rwl⟩, ⟨15, 5, .rwl⟩, ⟨10, 5, .rwl⟩, ⟨5, 5, .rwl⟩, ⟨0, 5, .rwl⟩]⟩,
  ⟨"EXCe_LOG", 0x110, 0x8, 16, 0, 1, .W, 0x00000000, false, [⟨31, 1, .rwl⟩, ⟨0, 17, .rwl⟩]⟩,
  ⟨"EXCe_PHYS", 0x114, 0x8, 16, 0, 1, .W, 0x00000000, false, [⟨0, 17, .rwl⟩]⟩]

/-- The registers of the DDR page map. -/
def regsDDR : List RegDef := [
  ⟨"CH_CFG", 0x080, 0x0, 1, 0, 1, .S, 0x00000010, false, [⟨31, 1, .rw⟩, ⟨8, 2, .rw⟩, ⟨4, 2, .rw⟩, ⟨0, 2, .rw⟩]⟩,
  ⟨"CH_STAT", 0x084, 0x0, 1, 0, 1, .W, 0x00000000, false, [⟨8, 4, .ro⟩, ⟨0, 3, .ro⟩]⟩,
  ⟨"ILV", 0x088, 0x0, 1, 0, 1, .S, 0x00000000, false, [⟨0, 2, .rw⟩]⟩]

/-- The registers of the KEY page map. -/
def regsKEY : List RegDef := [
  ⟨"LOAD_CTRL", 0x080, 0x0, 1, 0, 1, .W, 0x00000000, false, [⟨31, 1, .wo⟩, ⟨0, 10, .rw⟩]⟩,
  ⟨"LOAD_STAT", 0x084, 0x0, 1, 0, 1, .W, 0x00000000, false, [⟨31, 1, .ro⟩, ⟨0, 4, .ro⟩]⟩,
  ⟨"KEK_STAT", 0x088, 0x0, 1, 0, 1, .E, 0x00000000, false, [⟨1, 1, .ro⟩, ⟨0, 1, .ro⟩]⟩,
  ⟨"EMB_ALARM_ACK", 0x08C, 0x0, 1, 0, 1, .W, 0x00000000, false, [⟨0, 1, .wo⟩]⟩,
  ⟨"WRAPw", 0x100, 0x4, 20, 0, 1, .W, 0x00000000, false, [⟨0, 32, .wo⟩]⟩]

/-- The registers of the SLT page map. -/
def regsSLT : List RegDef := [
  ⟨"SLOTi_CFG", 0x080, 0x8, 256, 0, 1, .W, 0x00000032, false, [⟨29, 3, .wo⟩, ⟨4, 2, .ro⟩, ⟨0, 3, .ro⟩]⟩,
  ⟨"SLOTi_OWN", 0x084, 0x8, 256, 0, 1, .W, 0x00000000, false, [⟨9, 9, .rwl⟩, ⟨0, 9, .rwl⟩]⟩]

/-- The registers of the IME page map. -/
def regsIME : List RegDef := [
  ⟨"PURGE_STAT", 0x080, 0x0, 1, 0, 1, .W, 0x00000000, false, [⟨31, 1, .ro⟩, ⟨12, 2, .ro⟩, ⟨0, 10, .ro⟩]⟩,
  ⟨"VIOL_REC", 0x084, 0x0, 1, 0, 1, .W, 0x00000000, false, [⟨31, 1, .w1c⟩, ⟨28, 3, .ro⟩, ⟨18, 10, .ro⟩, ⟨9, 9, .ro⟩, ⟨3, 6, .ro⟩, ⟨1, 2, .ro⟩]⟩]

/-- The registers of the SCR page map. -/
def regsSCR : List RegDef := [
  ⟨"SCR_CTRL", 0x080, 0x0, 1, 0, 1, .W, 0x10000000, false, [⟨31, 1, .wo⟩, ⟨30, 1, .wo⟩, ⟨29, 1, .rwl⟩, ⟨28, 1, .rwl⟩, ⟨8, 7, .rwl⟩, ⟨0, 4, .rwl⟩]⟩,
  ⟨"START_IDX", 0x084, 0x0, 1, 0, 1, .W, 0x00000000, false, [⟨0, 32, .rwl⟩]⟩,
  ⟨"LENGTH", 0x088, 0x0, 1, 0, 1, .W, 0x00000000, false, [⟨0, 32, .rwl⟩]⟩,
  ⟨"RATE", 0x08C, 0x0, 1, 0, 1, .W, 0x03E80000, false, [⟨16, 16, .rwl⟩, ⟨0, 16, .rwl⟩]⟩,
  ⟨"TIMEOUT", 0x090, 0x0, 1, 0, 1, .W, 0x000003E8, false, [⟨0, 14, .rwl⟩]⟩,
  ⟨"PASS_STAT", 0x094, 0x0, 1, 0, 1, .W, 0x00000000, false, [⟨29, 3, .ro⟩, ⟨26, 3, .ro⟩, ⟨0, 16, .ro⟩]⟩,
  ⟨"NEXT", 0x098, 0x0, 1, 0, 1, .W, 0x00000000, false, [⟨0, 32, .ro⟩]⟩,
  ⟨"CORR_CNT", 0x09C, 0x0, 1, 0, 1, .W, 0x00000000, false, [⟨0, 32, .ro⟩]⟩,
  ⟨"UE_CNT", 0x0A0, 0x0, 1, 0, 1, .W, 0x00000000, false, [⟨0, 32, .ro⟩]⟩,
  ⟨"FIRST_FAIL", 0x0A4, 0x0, 1, 0, 1, .W, 0x00000000, false, [⟨0, 32, .ro⟩]⟩,
  ⟨"LAST_FAIL", 0x0A8, 0x0, 1, 0, 1, .W, 0x00000000, false, [⟨0, 32, .ro⟩]⟩,
  ⟨"WORST", 0x0AC, 0x0, 1, 0, 1, .W, 0x00000000, false, [⟨31, 1, .ro⟩, ⟨30, 1, .ro⟩, ⟨16, 8, .ro⟩, ⟨0, 16, .ro⟩]⟩]

/-- The registers of the ECC page map. -/
def regsECC : List RegDef := [
  ⟨"RAW_SEL", 0x080, 0x0, 1, 0, 1, .W, 0x00000000, false, [⟨8, 7, .rwl⟩, ⟨0, 4, .rwl⟩]⟩,
  ⟨"RAW_ADDR", 0x084, 0x0, 1, 0, 1, .W, 0x00000000, false, [⟨0, 32, .rwl⟩]⟩,
  ⟨"RAW_CTRL", 0x088, 0x0, 1, 0, 1, .W, 0x00000000, false, [⟨31, 1, .ro⟩, ⟨29, 2, .ro⟩, ⟨0, 3, .rwl⟩]⟩,
  ⟨"RAW_STAT", 0x08C, 0x0, 1, 0, 1, .D, 0x00000000, false, [⟨0, 12, .ro⟩]⟩,
  ⟨"FRM_CTRL", 0x090, 0x0, 1, 0, 1, .W, 0x00000001, false, [⟨0, 1, .rwl⟩]⟩,
  ⟨"FRM_STAT", 0x094, 0x0, 1, 0, 1, .D, 0x00000000, false, [⟨0, 18, .ro⟩]⟩,
  ⟨"FRM_LAST", 0x098, 0x0, 1, 0, 1, .D, 0x00000000, false, [⟨31, 1, .w1c⟩, ⟨28, 3, .ro⟩, ⟨0, 17, .ro⟩]⟩,
  ⟨"RAW_TAG", 0x0A0, 0x0, 1, 0, 1, .W, 0x00000000, false, [⟨0, 32, .rwl⟩]⟩,
  ⟨"RAW_DATAi", 0x100, 0x4, 64, 0, 1, .W, 0x00000000, false, [⟨0, 32, .rwl⟩]⟩,
  ⟨"RAW_CHKi", 0x200, 0x4, 8, 0, 1, .W, 0x00000000, false, [⟨0, 32, .rwl⟩]⟩]

/-- The registers of the REP page map. -/
def regsREP : List RegDef := [
  ⟨"REP_STAT", 0x080, 0x0, 1, 0, 1, .S, 0x00000000, false, [⟨30, 2, .ro⟩, ⟨20, 10, .ro⟩, ⟨10, 10, .ro⟩, ⟨0, 10, .ro⟩]⟩,
  ⟨"FUSE_STAT", 0x084, 0x0, 1, 0, 1, .S, 0x00000000, false, [⟨0, 16, .ro⟩]⟩,
  ⟨"LIST_CTRL", 0x088, 0x0, 1, 0, 1, .W, 0x00000000, false, [⟨31, 1, .ro⟩, ⟨29, 2, .ro⟩, ⟨0, 3, .rwl⟩]⟩,
  ⟨"ENTRY_LO", 0x08C, 0x0, 1, 0, 1, .W, 0x00000000, false, [⟨0, 32, .rwl⟩]⟩,
  ⟨"ENTRY_HI", 0x090, 0x0, 1, 0, 1, .W, 0x00000000, false, [⟨0, 32, .rwl⟩]⟩,
  ⟨"LIST_SEQ", 0x094, 0x0, 1, 0, 1, .S, 0x00000000, false, [⟨0, 32, .ro⟩]⟩]

/-- The registers of the CHK page map. -/
def regsCHK : List RegDef := [
  ⟨"JOB_CTRL", 0x080, 0x0, 1, 0, 1, .W, 0x00000000, false, [⟨31, 1, .wo⟩, ⟨30, 1, .wo⟩, ⟨4, 2, .rw⟩, ⟨0, 2, .rw⟩]⟩,
  ⟨"SRC_LO", 0x084, 0x0, 1, 0, 1, .W, 0x00000000, false, [⟨0, 32, .rw⟩]⟩,
  ⟨"SRC_HI", 0x088, 0x0, 1, 0, 1, .W, 0x00000000, false, [⟨0, 26, .rw⟩]⟩,
  ⟨"DST_LO", 0x08C, 0x0, 1, 0, 1, .W, 0x00000000, false, [⟨0, 32, .rw⟩]⟩,
  ⟨"DST_HI", 0x090, 0x0, 1, 0, 1, .W, 0x00000000, false, [⟨0, 26, .rw⟩]⟩,
  ⟨"LEN_M1", 0x094, 0x0, 1, 0, 1, .W, 0x00000000, false, [⟨0, 32, .rw⟩]⟩,
  ⟨"EXPECT_LO", 0x098, 0x0, 1, 0, 1, .W, 0x00000000, false, [⟨0, 32, .rw⟩]⟩,
  ⟨"EXPECT_HI", 0x09C, 0x0, 1, 0, 1, .W, 0x00000000, false, [⟨0, 32, .rw⟩]⟩,
  ⟨"RESULT_LO", 0x0A0, 0x0, 1, 0, 1, .W, 0x00000000, false, [⟨0, 32, .ro⟩]⟩,
  ⟨"RESULT_HI", 0x0A4, 0x0, 1, 0, 1, .W, 0x00000000, false, [⟨0, 32, .ro⟩]⟩,
  ⟨"JOB_STAT", 0x0A8, 0x0, 1, 0, 1, .W, 0x00000000, false, [⟨31, 1, .ro⟩, ⟨28, 3, .ro⟩, ⟨25, 3, .ro⟩, ⟨24, 1, .ro⟩, ⟨16, 8, .ro⟩]⟩,
  ⟨"ALIVE_CFG", 0x0AC, 0x0, 1, 0, 1, .W, 0x00040010, false, [⟨31, 1, .rwh⟩, ⟨18, 1, .rw⟩, ⟨17, 1, .rw⟩, ⟨16, 1, .rw⟩, ⟨0, 16, .rw⟩]⟩,
  ⟨"ALIVE_CNT", 0x0B0, 0x0, 1, 0, 1, .W, 0x00000000, false, [⟨16, 16, .rwh⟩, ⟨0, 16, .rwh⟩]⟩,
  ⟨"ERR_OFFSET", 0x0B4, 0x0, 1, 0, 1, .W, 0x00000000, false, [⟨0, 32, .ro⟩]⟩]

/-- The registers of the LN page map. -/
def regsLN : List RegDef := [
  ⟨"CTRL", 0x080, 0x0, 1, 0, 1, .D, 0x00000000, true, [⟨31, 1, .rw⟩, ⟨30, 1, .wo⟩, ⟨28, 2, .rw⟩, ⟨24, 1, .rwh⟩, ⟨20, 3, .rwh⟩, ⟨16, 2, .rwh⟩, ⟨13, 1, .rw⟩, ⟨12, 1, .rw⟩, ⟨11, 1, .rw⟩, ⟨9, 1, .rwh⟩, ⟨5, 1, .rw⟩, ⟨4, 1, .rw⟩]⟩,
  ⟨"RATE", 0x084, 0x0, 1, 0, 1, .D, 0x00000000, true, [⟨0, 27, .rwh⟩]⟩,
  ⟨"STAT", 0x088, 0x0, 1, 0, 1, .D, 0x00000000, false, [⟨15, 1, .ro⟩, ⟨14, 1, .ro⟩, ⟨13, 1, .ro⟩, ⟨12, 1, .ro⟩, ⟨0, 4, .ro⟩]⟩,
  ⟨"TXFIR", 0x08C, 0x0, 1, 0, 1, .D, 0x00043308, false, [⟨31, 1, .ro⟩, ⟨16, 5, .rwh⟩, ⟨8, 6, .rwh⟩, ⟨0, 5, .rwh⟩]⟩,
  ⟨"RXEQ", 0x090, 0x0, 1, 0, 1, .D, 0x0000000C, false, [⟨24, 2, .rw⟩, ⟨16, 5, .rwh⟩, ⟨8, 2, .rw⟩, ⟨0, 4, .rw⟩]⟩,
  ⟨"DFE", 0x094, 0x4, 3, 0, 1, .D, 0x00000000, false, [⟨0, 32, .rwh⟩]⟩,
  ⟨"AN", 0x0A0, 0x0, 1, 0, 1, .D, 0x0000001F, false, [⟨31, 1, .ro⟩, ⟨16, 4, .ro⟩, ⟨0, 10, .rw⟩]⟩,
  ⟨"IDLE", 0x0A4, 0x0, 1, 0, 1, .D, 0x03E80190, false, [⟨31, 1, .ro⟩, ⟨30, 1, .ro⟩, ⟨16, 14, .ro⟩, ⟨0, 12, .rw⟩]⟩,
  ⟨"TREF", 0x0A8, 0x0, 1, 0, 1, .D, 0x000000A5, false, [⟨31, 1, .rw⟩, ⟨0, 12, .rw⟩]⟩,
  ⟨"PAT", 0x0AC, 0x0, 1, 0, 1, .D, 0x00000004, false, [⟨31, 1, .rw⟩, ⟨30, 1, .rw⟩, ⟨29, 1, .ro⟩, ⟨16, 2, .rw⟩, ⟨0, 3, .rw⟩]⟩,
  ⟨"USER_LO", 0x0B0, 0x0, 1, 0, 1, .D, 0x00000000, false, [⟨0, 32, .rw⟩]⟩,
  ⟨"USER_HI", 0x0B4, 0x0, 1, 0, 1, .D, 0x00000000, false, [⟨0, 32, .rw⟩]⟩,
  ⟨"INJ", 0x0B8, 0x0, 1, 0, 1, .D, 0x00010010, false, [⟨31, 1, .wo⟩, ⟨24, 2, .rw⟩, ⟨16, 6, .rw⟩, ⟨0, 6, .rw⟩]⟩,
  ⟨"ERRCNT_LO", 0x0BC, 0x0, 1, 0, 1, .D, 0x00000000, false, [⟨0, 32, .ro⟩]⟩,
  ⟨"ERRCNT_HI", 0x0C0, 0x0, 1, 0, 1, .D, 0x00000000, false, [⟨0, 16, .ro⟩]⟩,
  ⟨"RXFIFO", 0x0C4, 0x0, 1, 0, 1, .D, 0x80002400, false, [⟨31, 1, .rw⟩, ⟨16, 9, .ro⟩, ⟨0, 14, .rw⟩]⟩,
  ⟨"PAUSE", 0x0C8, 0x0, 1, 0, 1, .D, 0x00C00080, false, [⟨31, 1, .rw⟩, ⟨16, 9, .rw⟩, ⟨0, 9, .rw⟩]⟩,
  ⟨"PAUSE_SA_LO", 0x0CC, 0x0, 1, 0, 1, .D, 0x00000000, false, [⟨0, 32, .rw⟩]⟩,
  ⟨"PAUSE_SA_HI", 0x0D0, 0x0, 1, 0, 1, .D, 0xFFFF0000, false, [⟨16, 16, .rw⟩, ⟨0, 16, .rw⟩]⟩]

/-- The registers of the HLNK page map. -/
def regsHLNK : List RegDef := [
  ⟨"LINK_STAT", 0x080, 0x0, 1, 0, 1, .H, 0x00000000, false, [⟨31, 1, .ro⟩, ⟨16, 6, .ro⟩, ⟨8, 4, .ro⟩, ⟨0, 5, .ro⟩]⟩,
  ⟨"LINK_CTRL", 0x084, 0x0, 1, 0, 1, .H, 0x00000005, false, [⟨31, 1, .wo⟩, ⟨0, 4, .rw⟩]⟩,
  ⟨"MSIX_TRIG", 0x088, 0x0, 1, 0, 1, .H, 0x00000000, false, [⟨0, 11, .wo⟩]⟩]

/-- The registers of the DLK page map. -/
def regsDLK : List RegDef := [
  ⟨"XNG_ERR", 0x080, 0x0, 1, 0, 1, .W, 0x00000000, false, [⟨31, 1, .w1c⟩, ⟨30, 1, .ro⟩, ⟨28, 2, .ro⟩, ⟨25, 3, .ro⟩, ⟨19, 6, .ro⟩, ⟨15, 4, .ro⟩, ⟨0, 8, .ro⟩]⟩,
  ⟨"IF_ERR", 0x084, 0x0, 1, 0, 1, .W, 0x00000000, false, [⟨31, 1, .w1c⟩, ⟨30, 1, .ro⟩, ⟨29, 1, .ro⟩, ⟨24, 4, .ro⟩, ⟨20, 4, .ro⟩, ⟨0, 8, .ro⟩]⟩]

/-- The registers of the DLKH page map. -/
def regsDLKH : List RegDef := [
  ⟨"CA_ERR", 0x080, 0x0, 1, 0, 1, .W, 0x00000000, false, [⟨31, 1, .w1c⟩, ⟨0, 7, .ro⟩]⟩]

/-- The registers of the UCI page map. -/
def regsUCI : List RegDef := [
  ⟨"UCI_CFG", 0x080, 0x0, 1, 0, 1, .W, 0x00000000, true, [⟨31, 1, .ro⟩, ⟨0, 2, .rw⟩]⟩,
  ⟨"UCI_PARTNER", 0x084, 0x0, 1, 0, 1, .W, 0x00000000, false, [⟨16, 16, .ro⟩, ⟨0, 16, .ro⟩]⟩]

/-- The registers of the UCIM page map. -/
def regsUCIM : List RegDef := [
  ⟨"M_CTRL", 0x080, 0x0, 1, 0, 1, .W, 0x00000000, true, [⟨31, 1, .wo⟩, ⟨0, 1, .rw⟩]⟩,
  ⟨"M_TENANT", 0x084, 0x0, 1, 0, 1, .W, 0x00000000, true, [⟨0, 9, .ro⟩]⟩,
  ⟨"M_STAT", 0x088, 0x0, 1, 0, 1, .W, 0x00000000, false, [⟨29, 3, .ro⟩, ⟨24, 2, .ro⟩, ⟨12, 4, .ro⟩, ⟨8, 4, .ro⟩]⟩,
  ⟨"M_PCAP", 0x08C, 0x0, 1, 0, 1, .W, 0x00000000, false, [⟨24, 8, .ro⟩, ⟨16, 8, .ro⟩, ⟨8, 8, .ro⟩, ⟨0, 8, .ro⟩]⟩]

/-- The registers of the TQ page map. -/
def regsTQ : List RegDef := [
  ⟨"NODE", 0x080, 0x0, 1, 0, 1, .W, 0x00000000, false, [⟨31, 1, .rwh⟩, ⟨16, 3, .ro⟩, ⟨0, 14, .rwh⟩]⟩,
  ⟨"ELECT", 0x084, 0x0, 1, 0, 1, .W, 0x00000000, true, [⟨31, 1, .wo⟩, ⟨30, 1, .ro⟩, ⟨14, 1, .rw⟩, ⟨0, 8, .rw⟩]⟩,
  ⟨"SERIAL_LO", 0x088, 0x0, 1, 0, 1, .P, 0x00000000, false, [⟨0, 32, .ro⟩]⟩,
  ⟨"SERIAL_HI", 0x08C, 0x0, 1, 0, 1, .P, 0x00000000, false, [⟨0, 32, .ro⟩]⟩,
  ⟨"LEADER", 0x090, 0x0, 1, 0, 1, .W, 0x00000000, false, [⟨31, 1, .ro⟩, ⟨0, 14, .ro⟩]⟩,
  ⟨"RMT_TIMEOUT", 0x094, 0x0, 1, 0, 1, .W, 0x000005DC, false, [⟨0, 14, .rw⟩]⟩,
  ⟨"GAP_TIMEOUT", 0x098, 0x0, 1, 0, 1, .W, 0x000001F4, false, [⟨0, 14, .rw⟩]⟩,
  ⟨"RT_IDX", 0x09C, 0x0, 1, 0, 1, .W, 0x00000000, false, [⟨31, 1, .rw⟩, ⟨0, 14, .rw⟩]⟩,
  ⟨"RT_DATA", 0x0A0, 0x0, 1, 0, 1, .W, 0x0000001E, false, [⟨0, 5, .rwh⟩]⟩,
  ⟨"Q_SEL", 0x0A4, 0x0, 1, 0, 1, .W, 0x00000000, false, [⟨0, 12, .rw⟩]⟩,
  ⟨"Q_PEER", 0x0A8, 0x0, 1, 0, 1, .W, 0x00000000, false, [⟨16, 12, .rwl⟩, ⟨0, 14, .rwl⟩]⟩,
  ⟨"Q_CFG", 0x0AC, 0x0, 1, 0, 1, .W, 0x00000000, false, [⟨31, 1, .rwh⟩, ⟨30, 1, .ro⟩, ⟨20, 10, .rwl⟩, ⟨10, 10, .rwl⟩, ⟨0, 9, .rwl⟩]⟩,
  ⟨"Q_CRED", 0x0B0, 0x0, 1, 0, 1, .W, 0x00000010, false, [⟨24, 8, .ro⟩, ⟨16, 8, .ro⟩, ⟨0, 8, .rwl⟩]⟩,
  ⟨"Q_TXSEQ", 0x0B4, 0x0, 1, 0, 1, .W, 0x00000000, false, [⟨0, 24, .ro⟩]⟩,
  ⟨"Q_RXSEQ", 0x0B8, 0x0, 1, 0, 1, .W, 0x00000000, false, [⟨0, 24, .ro⟩]⟩,
  ⟨"PERR_LO", 0x0BC, 0x0, 1, 0, 1, .W, 0x00000000, false, [⟨0, 32, .ro⟩]⟩,
  ⟨"PERR_HI", 0x0C0, 0x0, 1, 0, 1, .W, 0x00000000, false, [⟨31, 1, .w1c⟩, ⟨23, 8, .ro⟩, ⟨11, 12, .ro⟩, ⟨0, 1, .ro⟩]⟩]

/-- The registers of the SPAN page map. -/
def regsSPAN : List RegDef := [
  ⟨"SP_CTRL", 0x080, 0x0, 1, 0, 1, .W, 0x00000000, true, [⟨31, 1, .rw⟩, ⟨0, 4, .rw⟩]⟩,
  ⟨"SP_LANES0", 0x084, 0x0, 1, 0, 1, .W, 0x00000000, true, [⟨0, 32, .rw⟩]⟩,
  ⟨"SP_LANES1", 0x088, 0x0, 1, 0, 1, .W, 0x00000000, true, [⟨0, 32, .rw⟩]⟩,
  ⟨"SP_STAT", 0x08C, 0x0, 1, 0, 1, .W, 0x00000000, false, [⟨29, 3, .ro⟩, ⟨16, 4, .ro⟩, ⟨0, 8, .ro⟩]⟩,
  ⟨"SP_NBR", 0x090, 0x0, 1, 0, 1, .W, 0x00000000, false, [⟨31, 1, .ro⟩, ⟨24, 5, .ro⟩, ⟨14, 1, .ro⟩, ⟨0, 14, .ro⟩]⟩]

/-- The registers of the EXP page map. -/
def regsEXP : List RegDef := [
  ⟨"EXP_OFFw", 0x100, 0x10, 32, 0, 1, .W, 0x00000000, false, [⟨31, 1, .rwl⟩, ⟨24, 6, .rwl⟩, ⟨0, 21, .rwl⟩]⟩,
  ⟨"EXP_LOCLw", 0x104, 0x10, 32, 0, 1, .W, 0x00000000, false, [⟨12, 20, .rwl⟩]⟩,
  ⟨"EXP_LOCHw", 0x108, 0x10, 32, 0, 1, .W, 0x00000000, false, [⟨0, 16, .rwl⟩]⟩,
  ⟨"EXP_TENw", 0x10C, 0x10, 32, 0, 1, .W, 0x00000000, false, [⟨9, 9, .rwl⟩, ⟨0, 9, .rwl⟩]⟩]

/-- The registers of the REF page map. -/
def regsREF : List RegDef := [
  ⟨"STRAP", 0x080, 0x0, 1, 0, 1, .P, 0x00000000, false, [⟨31, 1, .ro⟩, ⟨0, 3, .ro⟩]⟩,
  ⟨"DPLL_CTRL", 0x084, 0x0, 1, 0, 1, .W, 0x00000000, true, [⟨12, 2, .rw⟩, ⟨8, 2, .rw⟩, ⟨4, 2, .rw⟩, ⟨1, 1, .wo⟩, ⟨0, 1, .rw⟩]⟩,
  ⟨"DPLL_STAT", 0x088, 0x0, 1, 0, 1, .W, 0x00000F00, false, [⟨29, 3, .ro⟩, ⟨8, 4, .ro⟩, ⟨0, 1, .ro⟩]⟩,
  ⟨"REF_PRIO", 0x08C, 0x0, 1, 0, 1, .W, 0x00000000, true, [⟨0, 32, .rw⟩]⟩,
  ⟨"REF_STAT", 0x090, 0x0, 1, 0, 1, .W, 0x00000000, false, [⟨25, 1, .ro⟩, ⟨24, 1, .ro⟩, ⟨16, 8, .ro⟩, ⟨8, 8, .ro⟩, ⟨4, 1, .ro⟩, ⟨2, 2, .ro⟩, ⟨0, 2, .ro⟩]⟩,
  ⟨"QUAL", 0x094, 0x0, 1, 0, 1, .W, 0x00640064, false, [⟨16, 16, .rw⟩, ⟨0, 8, .rw⟩]⟩,
  ⟨"HO_FREQ", 0x098, 0x0, 1, 0, 1, .W, 0x00000000, false, [⟨0, 32, .ro⟩]⟩,
  ⟨"LOSS_CTRL", 0x09C, 0x0, 1, 0, 1, .W, 0x00000000, true, [⟨31, 1, .wo⟩, ⟨30, 1, .rw⟩, ⟨29, 1, .rw⟩, ⟨0, 16, .rw⟩]⟩,
  ⟨"LOSS_STAT", 0x0A0, 0x0, 1, 0, 1, .S, 0x00000000, false, [⟨31, 1, .ro⟩, ⟨30, 1, .w1c⟩, ⟨0, 16, .ro⟩]⟩]

/-- The registers of the ML page map. -/
def regsML : List RegDef := [
  ⟨"ML_CFGl", 0x080, 0x10, 64, 0, 1, .W, 0x00000000, true, [⟨31, 1, .rwh⟩, ⟨0, 22, .rw⟩]⟩,
  ⟨"ML_STATl", 0x084, 0x10, 64, 0, 1, .W, 0x00000000, false, [⟨29, 3, .ro⟩, ⟨0, 2, .ro⟩]⟩,
  ⟨"ML_THRl", 0x088, 0x10, 64, 0, 1, .W, 0x00000000, false, [⟨0, 4, .rw⟩]⟩,
  ⟨"LAN_DIVk", 0x500, 0x4, 24, 0, 1, .W, 0x00000000, true, [⟨0, 8, .rw⟩]⟩]

/-- The registers of the CLK page map. -/
def regsCLK : List RegDef := [
  ⟨"MUX_CTRL", 0x080, 0x0, 1, 0, 1, .W, 0x00000000, true, [⟨4, 1, .wo⟩, ⟨0, 1, .rw⟩]⟩,
  ⟨"MUX_STAT", 0x084, 0x0, 1, 0, 1, .W, 0x00000020, false, [⟨5, 1, .ro⟩, ⟨4, 1, .ro⟩, ⟨3, 1, .ro⟩, ⟨2, 1, .ro⟩, ⟨0, 1, .ro⟩]⟩,
  ⟨"GATE_BUSY", 0x088, 0x0, 1, 0, 1, .W, 0x00000000, false, [⟨31, 1, .w1c⟩, ⟨24, 4, .ro⟩, ⟨0, 12, .ro⟩]⟩,
  ⟨"FDIE_GATEm", 0x100, 0x4, 8, 0, 1, .W, 0x00000000, false, [⟨0, 32, .rw⟩]⟩]

/-- The registers of the CFG page map. -/
def regsCFG : List RegDef := [
  ⟨"STRAP", 0x080, 0x0, 1, 0, 1, .P, 0x00000000, false, [⟨31, 1, .ro⟩, ⟨0, 2, .ro⟩]⟩,
  ⟨"CFG_STAT", 0x084, 0x0, 1, 0, 1, .W, 0x00000000, false, [⟨31, 1, .ro⟩, ⟨30, 1, .ro⟩, ⟨29, 1, .ro⟩, ⟨16, 4, .ro⟩, ⟨15, 1, .ro⟩, ⟨0, 4, .ro⟩]⟩,
  ⟨"LOAD_ERR", 0x088, 0x0, 1, 0, 1, .W, 0x00000000, false, [⟨31, 1, .w1c⟩, ⟨28, 3, .ro⟩, ⟨16, 8, .ro⟩, ⟨0, 16, .ro⟩]⟩,
  ⟨"IMAGE_ID", 0x08C, 0x0, 1, 0, 1, .W, 0x00000000, false, [⟨0, 32, .ro⟩]⟩,
  ⟨"IMAGE_SVN", 0x090, 0x0, 1, 0, 1, .W, 0x00000000, false, [⟨0, 6, .ro⟩]⟩,
  ⟨"BOOT_TIME", 0x094, 0x0, 1, 0, 1, .W, 0x00000000, false, [⟨0, 32, .ro⟩]⟩,
  ⟨"DONE_CTRL", 0x098, 0x0, 1, 0, 1, .W, 0x00000000, true, [⟨31, 1, .rw⟩, ⟨0, 16, .rw⟩]⟩,
  ⟨"SEC_STAT", 0x09C, 0x0, 1, 0, 1, .P, 0x00000000, false, [⟨16, 6, .ro⟩, ⟨4, 4, .ro⟩, ⟨0, 4, .ro⟩]⟩,
  ⟨"PR_CTRL", 0x0A0, 0x0, 1, 0, 1, .W, 0x00000000, false, [⟨31, 1, .wo⟩, ⟨30, 1, .wo⟩, ⟨29, 1, .wo⟩, ⟨5, 3, .rw⟩, ⟨0, 5, .rw⟩]⟩,
  ⟨"PR_STAT", 0x0A4, 0x0, 1, 0, 1, .W, 0x00000000, false, [⟨31, 1, .ro⟩, ⟨28, 3, .ro⟩, ⟨26, 2, .ro⟩, ⟨5, 3, .ro⟩, ⟨0, 5, .ro⟩]⟩,
  ⟨"PR_SRC_LO", 0x0A8, 0x0, 1, 0, 1, .W, 0x00000000, false, [⟨0, 32, .rw⟩]⟩,
  ⟨"PR_SRC_HI", 0x0AC, 0x0, 1, 0, 1, .W, 0x00000000, false, [⟨0, 26, .rw⟩]⟩,
  ⟨"PR_RELEASE", 0x0B0, 0x0, 1, 0, 1, .W, 0x0000000A, false, [⟨0, 14, .rw⟩]⟩,
  ⟨"OWNER_KEYn_w", 0x100, 0x30, 4, 4, 12, .P, 0x00000000, false, [⟨0, 32, .ro⟩]⟩]

/-- The registers of the CFGH page map. -/
def regsCFGH : List RegDef := [
  ⟨"H_STAT", 0x080, 0x0, 1, 0, 1, .H, 0x00000000, false, [⟨31, 1, .ro⟩, ⟨28, 3, .ro⟩, ⟨8, 8, .ro⟩]⟩,
  ⟨"H_CTRL", 0x084, 0x0, 1, 0, 1, .H, 0x00000000, false, [⟨31, 1, .wo⟩, ⟨30, 1, .wo⟩]⟩,
  ⟨"H_DOORBELL", 0x088, 0x0, 1, 0, 1, .H, 0x00000000, false, [⟨31, 1, .wo⟩, ⟨16, 12, .wo⟩, ⟨0, 8, .wo⟩]⟩,
  ⟨"H_RCVD", 0x08C, 0x0, 1, 0, 1, .H, 0x00000000, false, [⟨0, 32, .ro⟩]⟩,
  ⟨"H_TIMEOUT", 0x090, 0x0, 1, 0, 1, .H, 0x00002710, false, [⟨0, 16, .rw⟩]⟩,
  ⟨"H_DATA", 0x800, 0x4, 512, 0, 1, .H, 0x00000000, false, [⟨0, 32, .wo⟩]⟩]

/-- The registers of the NVS page map. -/
def regsNVS : List RegDef := [
  ⟨"NVS_STAT", 0x080, 0x0, 1, 0, 1, .W, 0x00000000, false, [⟨0, 7, .ro⟩]⟩,
  ⟨"WIN_SEL", 0x084, 0x0, 1, 0, 1, .W, 0x00000000, false, [⟨0, 1, .rwl⟩]⟩,
  ⟨"UPD_CTRL", 0x088, 0x0, 1, 0, 1, .W, 0x00000000, false, [⟨31, 1, .wo⟩, ⟨30, 1, .wo⟩, ⟨29, 1, .wo⟩, ⟨28, 1, .wo⟩, ⟨0, 1, .rwl⟩]⟩,
  ⟨"UPD_STAT", 0x08C, 0x0, 1, 0, 1, .W, 0x00000000, false, [⟨31, 1, .ro⟩, ⟨28, 3, .ro⟩, ⟨26, 2, .ro⟩, ⟨16, 8, .ro⟩, ⟨0, 1, .ro⟩]⟩,
  ⟨"PTR_STAT", 0x090, 0x0, 1, 0, 1, .W, 0x00000000, false, [⟨31, 1, .ro⟩, ⟨30, 1, .ro⟩, ⟨0, 1, .ro⟩]⟩,
  ⟨"PTR_SEQ", 0x094, 0x0, 1, 0, 1, .W, 0x00000000, false, [⟨0, 32, .ro⟩]⟩,
  ⟨"INV_SECTe", 0x100, 0x4, 16, 0, 1, .W, 0x00000000, false, [⟨31, 1, .ro⟩, ⟨0, 13, .ro⟩]⟩]

/-- The registers of the PWR page map. -/
def regsPWR : List RegDef := [
  ⟨"PWR_CTRL", 0x080, 0x0, 1, 0, 1, .W, 0x00000001, false, [⟨1, 1, .rwl⟩, ⟨0, 1, .rwl⟩]⟩,
  ⟨"DOM_CMD", 0x084, 0x0, 1, 0, 1, .W, 0x00000000, false, [⟨31, 1, .wo⟩, ⟨30, 1, .rwl⟩, ⟨8, 2, .rwl⟩, ⟨0, 6, .rwl⟩]⟩,
  ⟨"DOM_STAT", 0x088, 0x0, 1, 0, 1, .W, 0x00000000, false, [⟨31, 1, .ro⟩, ⟨29, 2, .ro⟩, ⟨16, 8, .ro⟩, ⟨8, 2, .ro⟩, ⟨0, 6, .ro⟩]⟩,
  ⟨"DIE_PWR", 0x08C, 0x0, 1, 0, 1, .W, 0x00000000, false, [⟨0, 8, .ro⟩]⟩,
  ⟨"LAN_PWR", 0x090, 0x0, 1, 0, 1, .W, 0x00000000, false, [⟨0, 24, .ro⟩]⟩,
  ⟨"QUAD_PWR_LO", 0x094, 0x0, 1, 0, 1, .W, 0x00000000, false, [⟨0, 32, .ro⟩]⟩,
  ⟨"QUAD_PWR_HI", 0x098, 0x0, 1, 0, 1, .W, 0x00000000, false, [⟨0, 16, .ro⟩]⟩,
  ⟨"ALERT_SRC", 0x09C, 0x0, 1, 0, 1, .W, 0x00000000, false, [⟨5, 4, .ro⟩, ⟨0, 5, .w1c⟩]⟩,
  ⟨"ALERT_EN", 0x0A0, 0x0, 1, 0, 1, .W, 0x0000001F, false, [⟨0, 5, .rw⟩]⟩]

/-- The registers of the THM page map. -/
def regsTHM : List RegDef := [
  ⟨"THR_CTRL", 0x080, 0x0, 1, 0, 1, .W, 0x00080364, false, [⟨16, 4, .rwl⟩, ⟨8, 4, .rwl⟩, ⟨0, 7, .rwl⟩]⟩,
  ⟨"THM_STAT", 0x084, 0x0, 1, 0, 1, .W, 0x00000000, false, [⟨31, 1, .ro⟩, ⟨16, 8, .ro⟩, ⟨0, 16, .ro⟩]⟩,
  ⟨"ZONE_FCLKm", 0x0A0, 0x4, 8, 0, 1, .W, 0x00000000, true, [⟨0, 32, .rw⟩]⟩,
  ⟨"TEMPi", 0x100, 0x4, 164, 0, 1, .W, 0x00000000, false, [⟨0, 16, .ro⟩]⟩,
  ⟨"VMONj", 0x400, 0x4, 88, 0, 1, .W, 0x00000000, false, [⟨31, 1, .ro⟩, ⟨0, 16, .ro⟩]⟩]

/-- The registers of the RST page map. -/
def regsRST : List RegDef := [
  ⟨"RST_CAUSE", 0x080, 0x0, 1, 0, 1, .S, 0x01000000, false, [⟨24, 4, .ro⟩, ⟨16, 2, .ro⟩, ⟨0, 4, .ro⟩]⟩,
  ⟨"SYS_RESET", 0x084, 0x0, 1, 0, 1, .W, 0x00000000, false, [⟨0, 16, .wo⟩]⟩]

/-- The registers of the EMB page map. -/
def regsEMB : List RegDef := [
  ⟨"EMB_CTRL", 0x080, 0x0, 1, 0, 1, .E, 0x00000000, false, [⟨0, 1, .w1s⟩]⟩,
  ⟨"EMB_STAT", 0x084, 0x0, 1, 0, 1, .W, 0x00000000, false, [⟨31, 1, .ro⟩, ⟨30, 1, .ro⟩, ⟨29, 1, .ro⟩, ⟨28, 1, .ro⟩]⟩,
  ⟨"TAMPER0_CFG", 0x088, 0x0, 1, 0, 1, .E, 0x0000000A, false, [⟨31, 1, .rwl⟩, ⟨30, 1, .rwl⟩, ⟨29, 1, .rwl⟩, ⟨0, 8, .rwl⟩]⟩,
  ⟨"TAMPER1_CFG", 0x08C, 0x0, 1, 0, 1, .E, 0x0000000A, false, [⟨31, 1, .rwl⟩, ⟨30, 1, .rwl⟩, ⟨29, 1, .rwl⟩, ⟨0, 8, .rwl⟩]⟩,
  ⟨"TIME_LO", 0x090, 0x0, 1, 0, 1, .E, 0x00000000, false, [⟨0, 32, .ro⟩]⟩,
  ⟨"TIME_HI", 0x094, 0x0, 1, 0, 1, .E, 0x00000000, false, [⟨0, 32, .ro⟩]⟩,
  ⟨"KEK_CTRL", 0x098, 0x0, 1, 0, 1, .W, 0x00000000, false, [⟨31, 1, .wo⟩, ⟨30, 1, .wo⟩]⟩,
  ⟨"KEK_KCV", 0x09C, 0x0, 1, 0, 1, .E, 0x00000000, false, [⟨0, 32, .ro⟩]⟩,
  ⟨"LOG_STAT", 0x0A0, 0x0, 1, 0, 1, .E, 0x00000001, false, [⟨8, 8, .ro⟩, ⟨0, 7, .ro⟩]⟩,
  ⟨"LOG_IDX", 0x0A4, 0x0, 1, 0, 1, .W, 0x00000000, false, [⟨0, 6, .rw⟩]⟩,
  ⟨"LOG_TS_LO", 0x0A8, 0x0, 1, 0, 1, .E, 0x00000000, false, [⟨0, 32, .ro⟩]⟩,
  ⟨"LOG_TS_HI", 0x0AC, 0x0, 1, 0, 1, .E, 0x00000000, false, [⟨0, 32, .ro⟩]⟩,
  ⟨"LOG_EVT", 0x0B0, 0x0, 1, 0, 1, .E, 0x01000000, false, [⟨24, 8, .ro⟩, ⟨0, 24, .ro⟩]⟩,
  ⟨"KEK_Ww", 0x100, 0x4, 8, 0, 1, .W, 0x00000000, false, [⟨0, 32, .wo⟩]⟩]

/-- The registers of the ALM page map. -/
def regsALM : List RegDef := [
  ⟨"ALM_SUM", 0x080, 0x0, 1, 0, 1, .W, 0x00000000, false, [⟨0, 13, .w1c⟩]⟩,
  ⟨"FAULT_EN", 0x084, 0x0, 1, 0, 1, .W, 0x00000573, false, [⟨0, 13, .rw⟩]⟩,
  ⟨"GUAR_STAT", 0x088, 0x0, 1, 0, 1, .W, 0x00000000, false, [⟨31, 1, .ro⟩, ⟨4, 1, .ro⟩, ⟨3, 1, .ro⟩, ⟨2, 1, .ro⟩, ⟨1, 1, .ro⟩, ⟨0, 1, .ro⟩]⟩,
  ⟨"ADMIT_CTRL", 0x08C, 0x0, 1, 0, 1, .W, 0x00000000, false, [⟨31, 1, .wo⟩, ⟨28, 3, .rwl⟩, ⟨24, 4, .rwl⟩, ⟨8, 6, .rwl⟩, ⟨0, 4, .rwl⟩]⟩,
  ⟨"ADMIT_STAT", 0x090, 0x0, 1, 0, 1, .W, 0x00000000, false, [⟨31, 1, .ro⟩, ⟨28, 3, .ro⟩, ⟨27, 1, .ro⟩, ⟨25, 2, .ro⟩]⟩,
  ⟨"ADMIT_CFG", 0x094, 0x0, 1, 0, 1, .W, 0x0064000A, false, [⟨16, 16, .rwl⟩, ⟨0, 16, .rwl⟩]⟩,
  ⟨"Q_STAT", 0x098, 0x0, 1, 0, 1, .W, 0x00000000, false, [⟨31, 1, .wo⟩, ⟨0, 7, .ro⟩]⟩,
  ⟨"Q_REC", 0x09C, 0x0, 1, 0, 1, .W, 0x00000000, false, [⟨24, 8, .ro⟩, ⟨0, 16, .ro⟩]⟩,
  ⟨"Q_DETAIL", 0x0A0, 0x0, 1, 0, 1, .W, 0x00000000, false, [⟨0, 32, .ro⟩]⟩,
  ⟨"Q_TIME_LO", 0x0A4, 0x0, 1, 0, 1, .W, 0x00000000, false, [⟨0, 32, .ro⟩]⟩,
  ⟨"Q_TIME_HI", 0x0A8, 0x0, 1, 0, 1, .W, 0x00000000, false, [⟨0, 32, .ro⟩]⟩]

/-- The registers of the PG page map. PG_EVT is class W as a whole (R463, Table 19.3): for the block bits [4:0] of a lane page, which Table 12.11 calls class D, the model keeps
class W too, so that an event outlives the power-off of its quad (DESIGN CHOICE, log 135). -/
def regsPG : List RegDef := [
  ⟨"PG_ID", 0x000, 0x0, 1, 0, 1, .P, 0x00000000, false, [⟨16, 16, .ro⟩, ⟨8, 8, .ro⟩, ⟨0, 8, .ro⟩]⟩,
  ⟨"PG_CAP", 0x004, 0x0, 1, 0, 1, .P, 0x00000000, false, [⟨8, 8, .ro⟩, ⟨2, 1, .ro⟩, ⟨1, 1, .ro⟩, ⟨0, 1, .ro⟩]⟩,
  ⟨"PG_CTRL", 0x008, 0x0, 1, 0, 1, .W, 0x00000001, false, [⟨1, 1, .wo⟩, ⟨0, 1, .rw⟩]⟩,
  ⟨"PG_STAT", 0x00C, 0x0, 1, 0, 1, .W, 0x00000000, false, [⟨2, 1, .ro⟩, ⟨1, 1, .ro⟩, ⟨0, 1, .ro⟩]⟩,
  ⟨"PG_EVT", 0x010, 0x0, 1, 0, 1, .W, 0x00000000, false, [⟨31, 1, .w1c⟩, ⟨30, 1, .w1c⟩, ⟨29, 1, .w1c⟩, ⟨0, 16, .w1c⟩]⟩,
  ⟨"PG_EVT_EN", 0x014, 0x0, 1, 0, 1, .W, 0x00000000, false, [⟨0, 32, .rw⟩]⟩,
  ⟨"PG_LOCK", 0x018, 0x0, 1, 0, 1, .W, 0x00000000, false, [⟨31, 1, .ro⟩, ⟨30, 1, .ro⟩, ⟨29, 1, .ro⟩, ⟨16, 8, .ro⟩, ⟨0, 2, .wo⟩]⟩,
  ⟨"PG_REFUSE", 0x01C, 0x0, 1, 0, 1, .W, 0x00000000, false, [⟨31, 1, .w1c⟩, ⟨24, 5, .ro⟩, ⟨16, 8, .ro⟩, ⟨0, 12, .ro⟩]⟩,
  ⟨"TRB", 0x020, 0x4, 8, 0, 1, .W, 0x00000000, false, [⟨0, 16, .ro⟩]⟩,
  ⟨"TRB_CLR", 0x040, 0x0, 1, 0, 1, .W, 0x00000000, false, [⟨0, 1, .wo⟩]⟩,
  ⟨"RSV", 0x044, 0x4, 15, 0, 1, .W, 0x00000000, false, []⟩]

/-- The registers of the HOST page map. -/
def regsHOST : List RegDef := [
  ⟨"PATH_RD", 0x080, 0x0, 1, 0, 1, .W, 0x0000FF1F, true, [⟨8, 8, .rwl⟩, ⟨0, 5, .rwl⟩]⟩,
  ⟨"PATH_WR", 0x084, 0x0, 1, 0, 1, .W, 0x0000FF1F, true, [⟨8, 8, .rwl⟩, ⟨0, 5, .rwl⟩]⟩,
  ⟨"PF_APp_LO", 0x100, 0x20, 8, 0, 1, .W, 0x00000000, true, [⟨20, 12, .rwl⟩, ⟨0, 6, .rwl⟩]⟩,
  ⟨"PF_APp_HI", 0x104, 0x20, 8, 0, 1, .W, 0x00000000, true, [⟨0, 16, .rwl⟩]⟩,
  ⟨"VF_APp_LO", 0x108, 0x20, 8, 0, 1, .W, 0x00000000, true, [⟨20, 12, .rwl⟩, ⟨0, 6, .rwl⟩]⟩,
  ⟨"VF_APp_HI", 0x10C, 0x20, 8, 0, 1, .W, 0x00000000, true, [⟨0, 16, .rwl⟩]⟩,
  ⟨"AP_KIDp", 0x110, 0x20, 8, 0, 1, .W, 0x00000000, true, [⟨16, 10, .rwl⟩, ⟨0, 10, .rwl⟩]⟩,
  ⟨"MSIX_SIZEp", 0x114, 0x20, 8, 0, 1, .W, 0x00000000, true, [⟨16, 12, .rwl⟩, ⟨0, 12, .rwl⟩]⟩,
  ⟨"EVT_ROUTEr", 0x200, 0x4, 64, 0, 1, .W, 0x00000000, false, [⟨31, 1, .rwl⟩, ⟨16, 13, .rwl⟩, ⟨0, 11, .rwl⟩]⟩,
  ⟨"TEN_MAPi", 0x400, 0x4, 256, 0, 1, .W, 0x00000000, true, [⟨16, 9, .rwl⟩, ⟨0, 9, .rwl⟩]⟩]

/-- The registers of the I2CT page map. -/
def regsI2CT : List RegDef := [
  ⟨"I2C_CTRL", 0x080, 0x0, 1, 0, 1, .S, 0x0000005A, false, [⟨0, 7, .rwl⟩]⟩,
  ⟨"I2C_STAT", 0x084, 0x0, 1, 0, 1, .W, 0x00000000, false, [⟨0, 8, .ro⟩]⟩]

/-- The registers of the USBD page map. -/
def regsUSBD : List RegDef := [
  ⟨"USB_CTRL", 0x080, 0x0, 1, 0, 1, .W, 0x00000001, false, [⟨0, 1, .rw⟩]⟩,
  ⟨"USB_STAT", 0x084, 0x0, 1, 0, 1, .W, 0x00000000, false, [⟨31, 1, .ro⟩, ⟨0, 3, .ro⟩]⟩,
  ⟨"USB_IDS", 0x088, 0x0, 1, 0, 1, .P, 0x00000960, false, [⟨16, 16, .ro⟩, ⟨0, 16, .ro⟩]⟩]

/-- The registers of the JTG page map. -/
def regsJTG : List RegDef := [
  ⟨"JTG_CTRL", 0x080, 0x0, 1, 0, 1, .W, 0x00000001, false, [⟨0, 1, .rwl⟩]⟩]

/-- The registers of the MBX page map. -/
def regsMBX : List RegDef := [
  ⟨"MBX_INFO", 0x080, 0x0, 1, 0, 1, .W, 0x00000000, false, [⟨31, 1, .ro⟩, ⟨30, 1, .ro⟩, ⟨0, 16, .ro⟩]⟩,
  ⟨"MBX_TIMEOUT", 0x084, 0x0, 1, 0, 1, .W, 0x00000064, false, [⟨0, 14, .rwl⟩]⟩,
  ⟨"CH_CTRLc", 0x400, 0x100, 8, 0, 1, .W, 0x00000000, false, [⟨0, 3, .wo⟩]⟩,
  ⟨"CH_STATc", 0x404, 0x100, 8, 0, 1, .W, 0x00000000, false, [⟨31, 1, .ro⟩, ⟨16, 8, .ro⟩, ⟨0, 3, .ro⟩]⟩,
  ⟨"CH_REQc", 0x408, 0x100, 8, 0, 1, .W, 0x00000000, false, [⟨16, 16, .rw⟩, ⟨0, 8, .rw⟩]⟩,
  ⟨"CH_RSPc", 0x40C, 0x100, 8, 0, 1, .W, 0x00000000, false, [⟨24, 8, .ro⟩, ⟨0, 8, .ro⟩]⟩,
  ⟨"CH_DATAc_w", 0x480, 0x100, 8, 4, 32, .W, 0x00000000, false, [⟨0, 32, .rw⟩]⟩]

/-- The registers of the BIST page map. -/
def regsBIST : List RegDef := [
  ⟨"BOOT_CTRL", 0x080, 0x0, 1, 0, 1, .S, 0x00000000, false, [⟨0, 1, .rwl⟩]⟩,
  ⟨"BOOT_STAT", 0x084, 0x0, 1, 0, 1, .W, 0x00000000, false, [⟨31, 1, .ro⟩, ⟨30, 1, .ro⟩, ⟨28, 2, .ro⟩, ⟨0, 18, .ro⟩]⟩,
  ⟨"FAIL_DIE", 0x088, 0x0, 1, 0, 1, .W, 0x00000000, false, [⟨8, 8, .ro⟩, ⟨0, 8, .ro⟩]⟩,
  ⟨"FAIL_LAN", 0x08C, 0x0, 1, 0, 1, .W, 0x00000000, false, [⟨0, 24, .ro⟩]⟩,
  ⟨"FAIL_QUAD_LO", 0x090, 0x0, 1, 0, 1, .W, 0x00000000, false, [⟨0, 32, .ro⟩]⟩,
  ⟨"FAIL_QUAD_HI", 0x094, 0x0, 1, 0, 1, .W, 0x00000000, false, [⟨0, 16, .ro⟩]⟩,
  ⟨"FAIL_ENG", 0x098, 0x0, 1, 0, 1, .W, 0x00000000, false, [⟨16, 16, .ro⟩, ⟨8, 8, .ro⟩, ⟨4, 4, .ro⟩, ⟨0, 4, .ro⟩]⟩,
  ⟨"FAIL_PORT", 0x09C, 0x0, 1, 0, 1, .W, 0x00000000, false, [⟨4, 4, .ro⟩, ⟨3, 1, .ro⟩, ⟨2, 1, .ro⟩, ⟨0, 2, .ro⟩]⟩,
  ⟨"MF_STAT", 0x0A0, 0x0, 1, 0, 1, .W, 0x00000000, false, [⟨8, 8, .ro⟩, ⟨0, 8, .ro⟩]⟩,
  ⟨"MF_IDX", 0x0A4, 0x0, 1, 0, 1, .W, 0x00000000, false, [⟨0, 7, .rw⟩]⟩,
  ⟨"MF_LO", 0x0A8, 0x0, 1, 0, 1, .W, 0x00000000, false, [⟨0, 32, .ro⟩]⟩,
  ⟨"MF_HI", 0x0AC, 0x0, 1, 0, 1, .W, 0x00000000, false, [⟨0, 32, .ro⟩]⟩,
  ⟨"LB_LAST", 0x0B0, 0x0, 1, 0, 1, .W, 0x00000000, false, [⟨31, 1, .w1c⟩, ⟨27, 4, .ro⟩, ⟨21, 6, .ro⟩, ⟨0, 16, .ro⟩]⟩,
  ⟨"FB_CTRL", 0x0B4, 0x0, 1, 0, 1, .W, 0x00000000, false, [⟨31, 1, .wo⟩, ⟨30, 1, .rwl⟩, ⟨24, 4, .rwl⟩, ⟨0, 6, .rwl⟩]⟩,
  ⟨"FB_STAT", 0x0B8, 0x0, 1, 0, 1, .W, 0x00000000, false, [⟨31, 1, .ro⟩, ⟨28, 3, .ro⟩, ⟨24, 4, .ro⟩, ⟨16, 8, .ro⟩, ⟨0, 6, .ro⟩]⟩]

/-- The registers of the ATB page map. -/
def regsATB : List RegDef := [
  ⟨"ATB_CTRL", 0x080, 0x0, 1, 0, 1, .W, 0x00000000, false, [⟨31, 1, .rwl⟩, ⟨16, 2, .rwl⟩]⟩,
  ⟨"ATB0_SEL", 0x084, 0x0, 1, 0, 1, .W, 0x00000000, false, [⟨0, 9, .rwl⟩]⟩,
  ⟨"ATB1_SEL", 0x088, 0x0, 1, 0, 1, .W, 0x00000000, false, [⟨0, 9, .rwl⟩]⟩,
  ⟨"ATB_STAT", 0x08C, 0x0, 1, 0, 1, .W, 0x00000000, false, [⟨31, 1, .ro⟩, ⟨30, 1, .ro⟩, ⟨29, 1, .ro⟩]⟩]

/-- The registers of the DDRRMT page map. -/
def regsDDRRMT : List RegDef := [
  ⟨"RM_XOR", 0x080, 0x0, 1, 0, 1, .W, 0x00000000, false, [⟨0, 17, .rwl⟩]⟩,
  ⟨"RM_PERM0", 0x084, 0x0, 1, 0, 1, .W, 0x0A418820, false, [⟨25, 5, .rwl⟩, ⟨20, 5, .rwl⟩, ⟨15, 5, .rwl⟩, ⟨10, 5, .rwl⟩, ⟨5, 5, .rwl⟩, ⟨0, 5, .rwl⟩]⟩,
  ⟨"RM_PERM1", 0x088, 0x0, 1, 0, 1, .W, 0x16A4A0E6, false, [⟨25, 5, .rwl⟩, ⟨20, 5, .rwl⟩, ⟨15, 5, .rwl⟩, ⟨10, 5, .rwl⟩, ⟨5, 5, .rwl⟩, ⟨0, 5, .rwl⟩]⟩,
  ⟨"RM_PERM2", 0x08C, 0x0, 1, 0, 1, .W, 0x0107B9AC, false, [⟨20, 5, .rwl⟩, ⟨15, 5, .rwl⟩, ⟨10, 5, .rwl⟩, ⟨5, 5, .rwl⟩, ⟨0, 5, .rwl⟩]⟩,
  ⟨"EXCe_LOG", 0x090, 0x8, 16, 0, 1, .W, 0x00000000, false, [⟨31, 1, .rwl⟩, ⟨0, 17, .rwl⟩]⟩,
  ⟨"EXCe_PHYS", 0x094, 0x8, 16, 0, 1, .W, 0x00000000, false, [⟨0, 17, .rwl⟩]⟩]

/-- The controller block registers (Table 08.7), `base` bytes into the page; `ref` is the reset value of REF. -/
def regsCB (base : Nat) (ref : BitVec 32) : List RegDef := [
  ⟨"CB_STAT", base + 0x00, 0x0, 1, 0, 1, .W, 0x00000000, false, [⟨0, 3, .ro⟩]⟩,
  ⟨"PAGE_POL", base + 0x04, 0x0, 1, 0, 1, .W, 0x00000078, false, [⟨0, 10, .rw⟩]⟩,
  ⟨"PWR_POL", base + 0x08, 0x0, 1, 0, 1, .W, 0x00000190, false, [⟨16, 12, .rw⟩, ⟨0, 12, .rw⟩]⟩,
  ⟨"NREF", base + 0x0C, 0x0, 1, 0, 1, .W, 0x0001000C, false, [⟨16, 1, .rw⟩, ⟨8, 1, .rw⟩, ⟨0, 5, .rw⟩]⟩,
  ⟨"REF", base + 0x10, 0x0, 1, 0, 1, .W, ref, false, [⟨12, 4, .ro⟩, ⟨8, 4, .rw⟩, ⟨4, 1, .ro⟩, ⟨0, 2, .rw⟩]⟩,
  ⟨"TRAIN", base + 0x14, 0x0, 1, 0, 1, .W, 0x00640000, false, [⟨31, 1, .ro⟩, ⟨29, 2, .ro⟩, ⟨16, 12, .rw⟩, ⟨0, 1, .wo⟩]⟩,
  ⟨"ERR_LO", base + 0x18, 0x0, 1, 0, 1, .W, 0x00000000, false, [⟨6, 26, .ro⟩]⟩,
  ⟨"ERR_HI", base + 0x1C, 0x0, 1, 0, 1, .W, 0x00000000, false, [⟨31, 1, .w1c⟩, ⟨30, 1, .ro⟩, ⟨29, 1, .ro⟩, ⟨24, 4, .ro⟩, ⟨0, 16, .ro⟩]⟩,
  ⟨"ECC_CTRL", base + 0x20, 0x0, 1, 0, 1, .W, 0x00000001, false, [⟨0, 1, .rw⟩]⟩,
  ⟨"RSV", base + 0x24, 0x4, 7, 0, 1, .W, 0x00000000, false, []⟩]

/-! ### The pages (Table 19.1, R464) -/

/-- The page kinds (R464), each with its header. -/
inductive PageKind where
  | dev0 | cfg | cfgh | nvs | clkRef | clkMl | clkCtl | pwr | thm | rst | emb | key | keySlt | alm | stop | sc | dc | dir
  | hbmStk | hbmPc | ddrCtl | ddrRmt | ime | scrub | eccF | eccMnt | eccDram | repair | chk | lane | dlk | dlkH | uci | uciM
  | tq | tqSpan | tqExp | fabCtl | fabXng | fabMem | fabPrt | fabSlt | engCtl | engSr | lan | host | hostLnk | i2ct | usbd
  | jtg | mbx | bist | atb
deriving DecidableEq, Repr

/-- One row of the page map: the kind, its first page, the distance between instances, how many instances, a second distance
and count for kinds laid out in two steps (the instance number is then `count2 * outer + inner`). -/
structure PageRow where
  kind : PageKind
  base : Nat
  stride : Nat
  count : Nat
  stride2 : Nat
  count2 : Nat
deriving DecidableEq, Repr

/-- The populated page slots (Table 19.1 and the page rule of each chapter). -/
def pageRows : List PageRow := [
  ⟨.dev0, 0x0000, 0, 1, 0, 1⟩, ⟨.cfg, 0x0010, 0, 1, 0, 1⟩, ⟨.cfgh, 0x0011, 0, 1, 0, 1⟩, ⟨.nvs, 0x0012, 0, 1, 0, 1⟩,
  ⟨.clkRef, 0x0040, 0, 1, 0, 1⟩, ⟨.clkMl, 0x0041, 0, 1, 0, 1⟩, ⟨.clkCtl, 0x0042, 0, 1, 0, 1⟩,
  ⟨.pwr, 0x0080, 0, 1, 0, 1⟩, ⟨.thm, 0x0081, 0, 1, 0, 1⟩, ⟨.rst, 0x0082, 0, 1, 0, 1⟩, ⟨.emb, 0x0083, 0, 1, 0, 1⟩,
  ⟨.key, 0x00C0, 0, 1, 0, 1⟩, ⟨.keySlt, 0x00C1, 1, 4, 0, 1⟩, ⟨.alm, 0x00C8, 0, 1, 0, 1⟩,
  ⟨.stop, 0x0100, 1, 64, 0, 1⟩, ⟨.sc, 0x0200, 1, 32, 0, 1⟩, ⟨.dc, 0x0220, 1, 8, 0, 1⟩, ⟨.dir, 0x0228, 0, 1, 0, 1⟩,
  ⟨.hbmStk, 0x0300, 0x10, 4, 0, 1⟩, ⟨.hbmPc, 0x0301, 0x10, 4, 1, 8⟩, ⟨.ddrCtl, 0x0340, 8, 4, 0, 1⟩,
  ⟨.ddrRmt, 0x0341, 8, 4, 0, 1⟩, ⟨.ime, 0x0360, 0, 1, 0, 1⟩, ⟨.scrub, 0x0380, 1, 8, 0, 1⟩, ⟨.eccF, 0x0388, 1, 8, 0, 1⟩,
  ⟨.eccMnt, 0x0390, 0, 1, 0, 1⟩, ⟨.eccDram, 0x0391, 0, 1, 0, 1⟩, ⟨.repair, 0x0392, 0, 1, 0, 1⟩,
  ⟨.chk, 0x03C0, 1, 16, 0, 1⟩, ⟨.lane, 0x0400, 1, 192, 0, 1⟩, ⟨.dlk, 0x0500, 1, 8, 0, 1⟩, ⟨.dlkH, 0x0508, 0, 1, 0, 1⟩,
  ⟨.uci, 0x0520, 0, 1, 0, 1⟩, ⟨.uciM, 0x0521, 1, 4, 0, 1⟩, ⟨.tq, 0x0540, 0, 1, 0, 1⟩, ⟨.tqSpan, 0x0541, 1, 24, 0, 1⟩,
  ⟨.tqExp, 0x0560, 0, 1, 0, 1⟩, ⟨.fabCtl, 0x0600, 0x20, 8, 0, 1⟩, ⟨.fabXng, 0x0601, 0x20, 8, 0, 1⟩,
  ⟨.fabMem, 0x0602, 0x20, 8, 0, 1⟩, ⟨.fabPrt, 0x0603, 0x20, 8, 1, 8⟩, ⟨.fabSlt, 0x060B, 0x20, 8, 0, 1⟩,
  ⟨.engCtl, 0x0700, 2, 96, 0, 1⟩, ⟨.engSr, 0x0701, 2, 96, 0, 1⟩, ⟨.lan, 0x07C0, 1, 24, 0, 1⟩, ⟨.host, 0x0800, 0, 1, 0, 1⟩,
  ⟨.hostLnk, 0x0801, 0, 1, 0, 1⟩, ⟨.i2ct, 0x0802, 0, 1, 0, 1⟩, ⟨.usbd, 0x0803, 0, 1, 0, 1⟩, ⟨.jtg, 0x0804, 0, 1, 0, 1⟩,
  ⟨.mbx, 0x0805, 0, 1, 0, 1⟩, ⟨.bist, 0x0810, 0, 1, 0, 1⟩, ⟨.atb, 0x0811, 0, 1, 0, 1⟩]

/-- Where `d = stride * i + stride2 * j` with `i < count` and `j < count2`, the number `count2 * i + j`. -/
def gridIndex (stride count stride2 count2 d : Nat) : Option Nat :=
  let i := if stride = 0 then 0 else d / stride
  let r := if stride = 0 then d else d % stride
  if count ≤ i then none
  else if stride2 = 0 then (if r = 0 then some i else none)
  else if r % stride2 = 0 ∧ r / stride2 < count2 then some (count2 * i + r / stride2) else none

/-- The instance of a page row that a page slot is. -/
def PageRow.inst (r : PageRow) (p : Nat) : Option Nat :=
  if p < r.base then none else gridIndex r.stride r.count r.stride2 r.count2 (p - r.base)

/-- The kind and the instance of a page slot; none for a reserved or unpopulated one (R462). -/
def pageOf (p : Nat) : Option (PageKind × Nat) :=
  pageRows.findSome? fun r => (r.inst p).map fun i => (r.kind, i)

/-- The first page of a kind: PG_ID.TYPE (R464). -/
def PageKind.base (k : PageKind) : Nat := ((pageRows.find? fun r => r.kind = k).map PageRow.base).getD 0

/-! Page numbers. -/
def Pg.dev0 : Nat := 0x0000
def Pg.cfg : Nat := 0x0010
def Pg.cfgh : Nat := 0x0011
def Pg.nvs : Nat := 0x0012
def Pg.clkRef : Nat := 0x0040
def Pg.clkMl : Nat := 0x0041
def Pg.clkCtl : Nat := 0x0042
def Pg.pwr : Nat := 0x0080
def Pg.thm : Nat := 0x0081
def Pg.rst : Nat := 0x0082
def Pg.emb : Nat := 0x0083
def Pg.key : Nat := 0x00C0
def Pg.keySlt (g : Nat) : Nat := 0x00C1 + g
def Pg.alm : Nat := 0x00C8
def Pg.stop (n : Nat) : Nat := 0x0100 + n
def Pg.sc (n : Nat) : Nat := 0x0200 + n
def Pg.dc (m : Nat) : Nat := 0x0220 + m
def Pg.dir : Nat := 0x0228
def Pg.hbmStk (n : Nat) : Nat := 0x0300 + 0x10 * n
def Pg.hbmPc (n g : Nat) : Nat := 0x0301 + 0x10 * n + g
def Pg.ddrCtl (c : Nat) : Nat := 0x0340 + 8 * c
def Pg.ddrRmt (c : Nat) : Nat := 0x0341 + 8 * c
def Pg.ime : Nat := 0x0360
def Pg.scrub (k : Nat) : Nat := 0x0380 + k
def Pg.eccF (m : Nat) : Nat := 0x0388 + m
def Pg.eccMnt : Nat := 0x0390
def Pg.eccDram : Nat := 0x0391
def Pg.repair : Nat := 0x0392
def Pg.chk (k : Nat) : Nat := 0x03C0 + k
def Pg.lane (l : Nat) : Nat := 0x0400 + l
def Pg.dlk (m : Nat) : Nat := 0x0500 + m
def Pg.dlkH : Nat := 0x0508
def Pg.uci : Nat := 0x0520
def Pg.uciM (u : Nat) : Nat := 0x0521 + u
def Pg.tq : Nat := 0x0540
def Pg.span (n : Nat) : Nat := 0x0541 + n
def Pg.tqExp : Nat := 0x0560
def Pg.fabCtl (m : Nat) : Nat := 0x0600 + 0x20 * m
def Pg.fabXng (m : Nat) : Nat := 0x0601 + 0x20 * m
def Pg.fabMem (m : Nat) : Nat := 0x0602 + 0x20 * m
def Pg.fabPrt (m p : Nat) : Nat := 0x0603 + 0x20 * m + p
def Pg.fabSlt (m : Nat) : Nat := 0x060B + 0x20 * m
def Pg.engCtl (n : Nat) : Nat := 0x0700 + 2 * n
def Pg.engSr (n : Nat) : Nat := 0x0701 + 2 * n
def Pg.lan (k : Nat) : Nat := 0x07C0 + k
def Pg.host : Nat := 0x0800
def Pg.hostLnk : Nat := 0x0801
def Pg.i2ct : Nat := 0x0802
def Pg.usbd : Nat := 0x0803
def Pg.jtg : Nat := 0x0804
def Pg.mbx : Nat := 0x0805
def Pg.bist : Nat := 0x0810
def Pg.atb : Nat := 0x0811

/-- The header registers and the registers of a page kind. The three kinds of ECC page share one map (R263); FRM_CTRL, FRM_STAT
and FRM_LAST hold no field outside ECC_Fm. ILV is DDR0_CTL's alone (Table 08.9). -/
def kindRegs : PageKind → Nat → List RegDef
  | .dev0, _ => regsDEV0 | .cfg, _ => regsCFG | .cfgh, _ => regsCFGH | .nvs, _ => regsNVS | .clkRef, _ => regsREF
  | .clkMl, _ => regsML | .clkCtl, _ => regsCLK | .pwr, _ => regsPWR | .thm, _ => regsTHM | .rst, _ => regsRST
  | .emb, _ => regsEMB | .key, _ => regsKEY | .keySlt, _ => regsSLT | .alm, _ => regsALM | .stop, _ => regsSTOP
  | .sc, _ => regsSC | .dc, _ => regsDC | .dir, _ => regsDIR | .hbmStk, _ => regsSTK
  | .hbmPc, _ => regsCB 0x080 0x800 ++ regsCB 0x0C0 0x800 ++ regsCB 0x100 0x800 ++ regsCB 0x140 0x800
  | .ddrCtl, c => (if c = 0 then regsDDR else regsDDR.map fun r => if r.name = "ILV" then { r with fields := [] } else r)
      ++ regsCB 0x100 0x801 ++ regsCB 0x140 0x801
  | .ddrRmt, _ => regsDDRRMT | .ime, _ => regsIME | .scrub, _ => regsSCR | .eccF, _ => regsECC
  | .eccMnt, _ => regsECC.map noFrm | .eccDram, _ => regsECC.map noFrm
  | .repair, _ => regsREP | .chk, _ => regsCHK | .lane, _ => regsLN | .dlk, _ => regsDLK
  | .dlkH, _ => regsDLKH | .uci, _ => regsUCI | .uciM, _ => regsUCIM | .tq, _ => regsTQ | .tqSpan, _ => regsSPAN
  | .tqExp, _ => regsEXP | .fabCtl, _ => regsFABCTL | .fabXng, _ => regsFABXNG | .fabMem, _ => regsFABMEM
  | .fabPrt, _ => regsFABPRT | .fabSlt, _ => regsFABSLT | .engCtl, _ => regsENG | .engSr, _ => regsENGSR | .lan, _ => regsLAN
  | .host, _ => regsHOST | .hostLnk, _ => regsHLNK | .i2ct, _ => regsI2CT | .usbd, _ => regsUSBD | .jtg, _ => regsJTG
  | .mbx, _ => regsMBX | .bist, _ => regsBIST | .atb, _ => regsATB
where
  noFrm (r : RegDef) : RegDef :=
    if r.name = "FRM_CTRL" ∨ r.name = "FRM_STAT" ∨ r.name = "FRM_LAST" then { r with fields := [], reset := 0 } else r

/-- Whether the register definition occupies the byte offset, and as which of its instances. -/
def RegDef.inst (r : RegDef) (off : Nat) : Option Nat :=
  if off < r.off then none else gridIndex r.stride r.count r.stride2 r.count2 (off - r.off)

/-- The register of a page kind at a byte offset: its definition and instance. -/
def regAt (k : PageKind) (i off : Nat) : Option (RegDef × Nat) :=
  (if off < 0x080 then regsPG else kindRegs k i).findSome? fun r => (r.inst off).map fun n => (r, n)

/-- The block event bits a page kind defines (R463): the other bits of PG_EVT [15:0] are reserved.
DESIGN CHOICE (log 3): the spec names the events FAULT, PASS_END, FRAME, LIST_BAD and XNG_DBE and gives them no bit; they stand at bit 0. -/
def PageKind.evtMask : PageKind → Word
  | .stop => 0x3F | .ime => 0x3 | .chk => 0x7 | .lane => 0x1F | .uciM => 0x7 | .tq => 0xF | .tqSpan => 0x3 | .clkRef => 0x1F
  | .clkCtl => 0x3 | .cfg => 0x1F | .mbx => 0xFF | .fabMem => 0x1 | .hbmPc => 0x1 | .ddrCtl => 0x1 | .engCtl => 0x1
  | .scrub => 0x1 | .eccF => 0x1 | .dlk => 0x1 | .repair => 0x1
  | _ => 0

/-- Which trouble counters a page kind uses (PG_CAP.TRB_USED; the trouble counter table of each chapter). -/
def PageKind.trbUsed : PageKind → Word
  | .fabMem => 0x1F | .fabPrt => 0xF | .engCtl => 0x3F | .lan => 0x7 | .stop => 0xFF | .sc => 0x3F | .dc => 0xF | .dir => 0x1
  | .hbmPc => 0x3F | .ddrCtl => 0x3F | .hbmStk => 0x1 | .ime => 0x1F | .scrub => 0x3 | .eccF => 0x3F | .eccMnt => 0x1
  | .eccDram => 0x1 | .repair => 0x7 | .chk => 0x3F | .lane => 0xFF | .hostLnk => 0xFF | .dlk => 0xF | .dlkH => 0x1
  | .uciM => 0x1F | .tq => 0xFF | .tqSpan => 0x1F | .clkRef => 0xF | .clkMl => 0x3 | .clkCtl => 0x7 | .cfg => 0xF
  | .cfgh => 0x3 | .nvs => 0x3F | .pwr => 0x7 | .thm => 0x3 | .rst => 0x7 | .emb => 0x1 | .alm => 0x3F | .i2ct => 0xF
  | .usbd => 0x7 | .jtg => 0x3 | .mbx => 0x7 | .bist => 0x1F
  | _ => 0

/-- Block soft reset acts on the engine control and the lane pages (R463). -/
def PageKind.srst : PageKind → Bool
  | .engCtl => true | .lane => true | _ => false

/-- A page is lockable when one of its registers holds an RWL field (PG_CAP.LOCKABLE). -/
def PageKind.lockable (k : PageKind) : Bool := (kindRegs k 0).any fun r => r.fields.any fun f => f.acc = .rwl

/-- The key of a register in the register map. -/
def regKey (page off : Nat) : Nat := page * 1024 + off / 4

end Sys2Proof.Machine
end

