-- ==== Sys2Proof/Machine/Bits.lean ====
section
/-!
DEFINITION. Bit fields, sign extension, byte order and narrowing: the helpers every chapter's meanings share.
-/
namespace Sys2Proof.Machine

/-- Bits [lo + n - 1 : lo] of a word, as a number. -/
def fieldOf {w : Nat} (v : BitVec w) (lo n : Nat) : Nat := (v.toNat >>> lo) % 2 ^ n

/-- A word whose bits [lo + n - 1 : lo] are replaced by the low n bits of x. -/
def withField {w : Nat} (v : BitVec w) (lo n : Nat) (x : Nat) : BitVec w :=
  (v &&& ~~~((BitVec.ofNat w (2 ^ n - 1)) <<< lo)) ||| ((BitVec.ofNat w (x % 2 ^ n)) <<< lo)

/-- Byte i of a word, byte 0 the least significant. -/
def byteOf {w : Nat} (v : BitVec w) (i : Nat) : Byte := BitVec.ofNat 8 (v.toNat >>> (8 * i))

/-- A word put together from its bytes, byte 0 the least significant (least significant byte first in memory). -/
def ofBytes (w : Nat) (l : List Byte) : BitVec w := BitVec.ofNat w (l.foldr (fun b acc => acc * 256 + b.toNat) 0)

/-- The bytes of a word, the least significant first. -/
def toBytes {w : Nat} (n : Nat) (v : BitVec w) : List Byte := (List.range n).map (byteOf v)

/-- Bytes of `new` where the byte enable is set, bytes of `old` elsewhere; lanes of `lane` bits. -/
def mergeLanes {w : Nat} (lane n : Nat) (be : Nat) (old new : BitVec w) : BitVec w :=
  (List.range n).foldl (fun v i => if be.testBit i then withField v (lane * i) lane (fieldOf new (lane * i) lane) else v) old

/-- An integer as the nearest w-bit two's complement number (saturation). -/
def satInt (w : Nat) (x : Int) : Int :=
  if x < -(2 : Int) ^ (w - 1) then -(2 : Int) ^ (w - 1) else if (2 : Int) ^ (w - 1) - 1 < x then (2 : Int) ^ (w - 1) - 1 else x

/-- Whether an integer lies in the range of w-bit two's complement numbers. -/
def fitsInt (w : Nat) (x : Int) : Bool := decide (-(2 : Int) ^ (w - 1) ≤ x) && decide (x ≤ (2 : Int) ^ (w - 1) - 1)

/-- The low w bits of an integer. -/
def lowBits (w : Nat) (x : Int) : BitVec w := BitVec.ofInt w x

/-- The number of bits directly below the sign bit of a w-bit value that equal the sign bit (R78). -/
def leadingSigns (w : Nat) (v : BitVec w) : Nat :=
  go (w - 1)
where
  go : Nat → Nat
    | 0 => 0
    | n + 1 => if v.getLsbD n = v.getLsbD (w - 1) then go n + 1 else 0

/-- A field of the value written. -/
def wf (v : Word) (x : Fld) : Nat := fieldOf v x.lo x.width
def wb (v : Word) (x : Fld) : Bool := wf v x != 0

end Sys2Proof.Machine
end

