-- ==== Sys2Proof/Machine/Aes.lean ====
section
/-!
DEFINITION. The ciphers the spec names: AES-256 (FIPS 197), its XTS mode (IEEE 1619, R218) and AES Key Wrap (NIST SP 800-38F, R230).
Bytes are lists, the first byte first.
-/
namespace Sys2Proof.Machine

/-- Multiplication by x in GF(2^8) with AES's polynomial. -/
def aesX (b : Nat) : Nat := if b < 128 then 2 * b else (2 * b) ^^^ 0x11B

/-- Multiplication in GF(2^8). -/
def aesMul (a b : Nat) : Nat :=
  ((List.range 8).foldl (fun (acc : Nat × Nat) i => (if b.testBit i then acc.1 ^^^ acc.2 else acc.1, aesX acc.2)) (0, a)).1

/-- The inverse in GF(2^8), 0 for 0: the 254th power. -/
def aesInv (a : Nat) : Nat :=
  let sq (x : Nat) : Nat := aesMul x x
  let a2 := sq a
  let a4 := sq a2
  let a8 := sq a4
  let a16 := sq a8
  let a32 := sq a16
  let a64 := sq a32
  aesMul (sq a64) (aesMul a64 (aesMul a32 (aesMul a16 (aesMul a8 (aesMul a4 a2)))))

/-- The S-box: inverse, then the affine map. -/
def aesSub (a : Nat) : Nat :=
  let b := aesInv a
  let r (n : Nat) : Nat := ((b <<< n) ||| (b >>> (8 - n))) % 256
  b ^^^ r 1 ^^^ r 2 ^^^ r 3 ^^^ r 4 ^^^ 0x63

/-- The inverse S-box: the affine map undone, then the inverse. -/
def aesSubInv (a : Nat) : Nat :=
  let r (n : Nat) : Nat := ((a <<< n) ||| (a >>> (8 - n))) % 256
  aesInv (r 1 ^^^ r 3 ^^^ r 6 ^^^ 0x05)

def xorBytes (a b : List Nat) : List Nat := a.zipWith (· ^^^ ·) b

/-- One word of the key schedule after the words so far (the latest first). -/
def aesNextWord (ws : List (List Nat)) : List Nat :=
  let i := ws.length
  let t := ws.headD []
  let t := if i % 8 = 0 then
      xorBytes ((t.rotateLeft 1).map aesSub) [(List.range (i / 8 - 1)).foldl (fun c _ => aesX c) 1, 0, 0, 0]
    else if i % 8 = 4 then t.map aesSub else t
  xorBytes (ws.getD 7 []) t

/-- The 15 round keys of AES-256. -/
def aesKeys (key : List Nat) : List (List Nat) :=
  let first := (List.range 8).map fun i => (key.drop (4 * i)).take 4
  let ws := ((List.range 52).foldl (fun ws _ => aesNextWord ws :: ws) first.reverse).reverse
  (List.range 15).map fun i => ((ws.drop (4 * i)).take 4).flatten

/-- ShiftRows and its inverse; the state is stored column by column. -/
def aesShift (st : List Nat) : List Nat := (List.range 16).map fun i => st.getD ((i + 4 * (i % 4)) % 16) 0
def aesUnshift (st : List Nat) : List Nat := (List.range 16).map fun i => st.getD ((i + 12 * (i % 4)) % 16) 0

/-- MixColumns with the first row of its matrix. -/
def aesMix (row : List Nat) (st : List Nat) : List Nat :=
  (List.range 16).map fun i =>
    (List.range 4).foldl (fun acc j => acc ^^^ aesMul (row.getD ((j + 4 - i % 4) % 4) 0) (st.getD (4 * (i / 4) + j) 0)) 0

/-- AES-256 encryption of a 16-byte block. -/
def aesEnc (key : List Nat) (block : List Nat) : List Nat :=
  let ks := aesKeys key
  let k (i : Nat) : List Nat := ks.getD i []
  let st := (List.range 13).foldl (fun st i => xorBytes (aesMix [2, 3, 1, 1] (aesShift (st.map aesSub))) (k (i + 1))) (xorBytes block (k 0))
  xorBytes (aesShift (st.map aesSub)) (k 14)

/-- AES-256 decryption of a 16-byte block. -/
def aesDec (key : List Nat) (block : List Nat) : List Nat :=
  let ks := aesKeys key
  let k (i : Nat) : List Nat := ks.getD i []
  let st := (List.range 13).foldl (fun st i =>
    aesMix [14, 11, 13, 9] (xorBytes ((aesUnshift st).map aesSubInv) (k (13 - i)))) (xorBytes block (k 14))
  xorBytes ((aesUnshift st).map aesSubInv) (k 0)

/-! ### XTS (R218) -/

/-- The bytes of a number, the least significant first. -/
def natBytes (n x : Nat) : List Nat := (List.range n).map fun i => x / 2 ^ (8 * i) % 256
/-- The number of bytes, the least significant first. -/
def bytesNat (l : List Nat) : Nat := l.foldr (fun b acc => acc * 256 + b) 0

/-- Multiplication by α of a tweak, as a little-endian number. -/
def xtsAlpha (t : Nat) : Nat := if t < 2 ^ 127 then 2 * t else ((2 * t) % 2 ^ 128) ^^^ 0x87

/-- XTS over a 64-byte data unit with the block cipher `f`, keys K1 and K2 and its data unit sequence number. -/
def xts (f : List Nat → List Nat → List Nat) (k1 k2 : BitVec 256) (dusn : Nat) (line : BitVec 512) : BitVec 512 :=
  let t0 := bytesNat (aesEnc (natBytes 32 k2.toNat) (natBytes 16 dusn))
  let key := natBytes 32 k1.toNat
  let blocks := (List.range 4).map fun j =>
    let t := natBytes 16 ((List.range j).foldl (fun t _ => xtsAlpha t) t0)
    xorBytes (f key (xorBytes (natBytes 16 (fieldOf line (128 * j) 128)) t)) t
  BitVec.ofNat 512 (bytesNat blocks.flatten)

def xtsEnc : BitVec 256 → BitVec 256 → Nat → BitVec 512 → BitVec 512 := xts aesEnc
def xtsDec : BitVec 256 → BitVec 256 → Nat → BitVec 512 → BitVec 512 := xts aesDec

/-! ### Key Wrap (R230) -/

/-- The unwrap of KW: n + 1 blocks of 8 bytes under the KEK; the 8 n bytes, or none where the integrity check fails. -/
def kwUnwrap (n : Nat) (kek : BitVec 256) (wrapped : List Nat) : Option (List Nat) :=
  let key := natBytes 32 kek.toNat
  let r0 := (List.range n).map fun i => (wrapped.drop (8 * (i + 1))).take 8
  let (a, r) := (List.range (6 * n)).foldl (fun (acc : List Nat × List (List Nat)) s =>
      let t := 6 * n - s
      let i := (t - 1) % n
      let b := aesDec key (xorBytes acc.1 (natBytes 8 t).reverse ++ acc.2.getD i [])
      (b.take 8, acc.2.set i (b.drop 8))) (wrapped.take 8, r0)
  if a = List.replicate 8 0xA6 then some r.flatten else none

end Sys2Proof.Machine
end

