-- ==== Sys2Proof/Machine/Crc.lean ====
section
/-!
DEFINITION. Cyclic checks with the parameters of Table 11.1 (R266, R267).
-/
namespace Sys2Proof.Machine

/-- A polynomial's parameters: width, generator, initial value, input and output reflected, final XOR. -/
structure CrcPoly where
  width : Nat
  gen : Nat
  init : Nat
  refl : Bool
  xorOut : Nat

/-- Table 11.1. -/
def crcPoly : Nat → CrcPoly
  | 0 => ⟨16, 0x1021, 0xFFFF, false, 0⟩
  | 1 => ⟨32, 0x04C11DB7, 0xFFFFFFFF, true, 0xFFFFFFFF⟩
  | 2 => ⟨32, 0x1EDC6F41, 0xFFFFFFFF, true, 0xFFFFFFFF⟩
  | _ => ⟨64, 0x42F0E1EBA9EA3693, 0xFFFFFFFFFFFFFFFF, true, 0xFFFFFFFFFFFFFFFF⟩

/-- One bit into the check register, which shifts towards its most significant bit. -/
def CrcPoly.bit (p : CrcPoly) (reg : Nat) (b : Bool) : Nat :=
  let out := reg.testBit (p.width - 1) != b
  let r := (2 * reg) % 2 ^ p.width
  if out then r ^^^ p.gen else r

/-- One byte: with reflected input bit 0 comes first, else bit 7 (R267). -/
def CrcPoly.byte (p : CrcPoly) (reg : Nat) (b : Byte) : Nat :=
  (List.range 8).foldl (fun r i => p.bit r (b.getLsbD (if p.refl then i else 7 - i))) reg

/-- Bytes in order. The register is looked at before the next byte comes, so that Lean's kernel, too, works byte by byte. -/
def CrcPoly.bytes (p : CrcPoly) : List Byte → Nat → Nat
  | [], reg => reg
  | b :: l, reg => match p.byte reg b with
    | 0 => p.bytes l 0
    | n + 1 => p.bytes l (n + 1)

theorem CrcPoly.bytes_eq (p : CrcPoly) (l : List Byte) (reg : Nat) : p.bytes l reg = l.foldl p.byte reg := by
  induction l generalizing reg with
  | nil => rfl
  | cons b l ih =>
    rw [List.foldl_cons, ← ih, CrcPoly.bytes]
    cases p.byte reg b <;> rfl

/-- The low n bits of a number in reverse order. -/
def reverseBits (n x : Nat) : Nat := (List.range n).foldl (fun acc i => 2 * acc + (x.testBit i).toNat) 0

/-- The result from the register after the last byte. -/
def CrcPoly.result (p : CrcPoly) (reg : Nat) : Nat := (if p.refl then reverseBits p.width reg else reg) ^^^ p.xorOut

/-- The check over bytes. -/
def crcOf (poly : Nat) (l : List Byte) : Nat :=
  let p := crcPoly poly
  p.result (p.bytes l p.init)

end Sys2Proof.Machine
end

