-- ==== Sys2Proof/Config.lean ====
section
/-!
DEFINITION. What the spec leaves open, as constants without a body: nothing in Lean can evaluate one or prove a value of it, so a
theorem holds for every choice. `freeLine` is the source of free values: a step that needs one applies it to the
counter `State.free` and advances the counter.
-/
namespace Sys2Proof.Config
open Sys2Proof.Machine

/-- Free values: what the spec leaves undefined after a step (log 1). -/
opaque freeLine : Nat → BitVec 512

/-- The SECDED column of data bit j of a memory kind's code: the syndrome that names an error in that bit. Table 10.1 names the
codes (43,36), (72,64), (137,128), (490,480), (47,40), (39,32) and (266,256); the spec gives none of their matrices (log 5). -/
opaque eccColumn : (dataBits j : Nat) → Nat

/-- The Reed-Solomon codes of DRAM, RS(6,4) for HBM and RS(10,8) for DDR5 (R212, R213); the spec gives neither field polynomial nor
generator (log 6). The check symbols that data bit i of a codeword adds. -/
opaque rsColumn : (hbm : Bool) → (bit : Nat) → BitVec 16

/-- The fixed poison pattern of codeword i of a line (R214, log 6). -/
opaque poisonPattern : (hbm : Bool) → (i : Nat) → BitVec 16

/-- The tag of a cache line and the entry of a directory hold what R175 lists; the spec gives no layout (log 36). The 32 bits of target 6, 7 or 8 for a line and
the values held with it. -/
opaque tagBits : (target line : Nat) → (held : List Nat) → Nat

/-- The BCH code of the NV store corrects four and detects five bits per block (Table 10.1); the spec gives no generator (log 33). The check bits
of a block's data, and the bits that a difference of the check bits names (512 and above: check bits), if it names at most four. -/
opaque bchCheck : (data : BitVec 512) → BitVec 64
opaque bchLocate : (diff : BitVec 64) → Option (List Nat)

/-- What configuration frames mean is Poltivon's; the spec gives no bit of a frame a meaning (log 34). The design that the frames of a die declare. -/
opaque dieDesign : (die : Nat) → (frames : List Byte) → DieDesign

/-- MEMINIT and ENGINE sections: the spec names what they initialise and gives no layout (log 34). A die's memories as (deep, memory, word,
data), a lantern's as (memory, index, data): memory 0 the lantern's, 1 to 4 the data memories of its engines, 5 to 8 their program memories. -/
opaque memInit : (die : Nat) → (bytes : List Byte) → List (Bool × Nat × Nat × DWord)
opaque engineInit : (lantern : Nat) → (bytes : List Byte) → List (Nat × Nat × BitVec 128)

/-- The management ROM's check of Havolet's signature on the firmware, whose key and layout the spec does not give (R393, log 34). -/
opaque firmwareSigned : (bytes : List Byte) → Bool

/-- The carry out of a cell of a site's carry chain from its carry in and the two outputs of its LUT; the spec names the chain and gives no
function (R35, log 130). -/
opaque carryCell : (carryIn first second : Bool) → Bool

/-- The value of a loop of combinational user logic, of which the spec says nothing (log 130). -/
opaque loopValue : (ns : Nat) → Bool

/-- The activations of a bank after which a controller's memory requires a refresh management command, if it requires any (R207, log 19). -/
opaque rfmThreshold : (ctrl : Nat) → Option Nat

/-- The rows of a bank and the ranks that the devices fitted on a DDR5 channel have, which the controller cannot read (R527, log 138). -/
opaque ddrFittedRows : (ch : Nat) → Nat
opaque ddrFittedRanks : (ch : Nat) → Nat

/-- The fuses of the identification register: the stepping, the manufacturer's identity (R495, log 150). -/
opaque idStepping : BitVec 4
opaque idMaker : BitVec 11

/-- What a scan of the boundary register meets: the levels at the pins, and the bits that the tester shifts in at TDI (log 133). -/
opaque pinLevels : (free : Nat) → List (BPin × Bool)
opaque scanBits : (free : Nat) → List (BPin × Bool)

/-- The nominal voltage of VDD_HBM in mV: "per HBM3E" (Table 17.1), which the spec does not quote (log 38). -/
opaque vddHbm : Nat

end Sys2Proof.Config
end

