-- ==== Sys2Proof/Machine/Codes.lean ====
section
/-!
DEFINITION. The linear codes of the memories (R212, R213, R242). The spec gives no matrix of theirs (log 5, log 6), so the columns are opaque; it does say what
the codes correct and detect, so a choice of columns that did not would be no code of the spec's, and the model then falls back on one that does.
-/
namespace Sys2Proof.Machine

/-! ### SECDED (R242, Table 10.1) -/

/-- The syndromes of single errors: of the c check bits, each its own bit, and of the data bits. -/
def secdedPoints (c : Nat) (cols : List Nat) : List Nat := (List.range c).map (2 ^ ·) ++ cols

/-- Columns that correct every single error and detect every double error. -/
abbrev SecdedOk (n c : Nat) (cols : List Nat) : Prop :=
  cols.length = n ∧ (secdedPoints c cols).Nodup ∧ (∀ a ∈ secdedPoints c cols, 0 < a ∧ a < 2 ^ c) ∧
    ∀ a ∈ secdedPoints c cols, ∀ b ∈ secdedPoints c cols, a ≠ b → a ^^^ b ∉ secdedPoints c cols

/-- Whether a number of c bits has an odd number of them set. -/
def oddWeight (c x : Nat) : Bool := (List.range c).foldl (fun b p => b ^^ x.testBit p) false

/-- Columns that are some code: of odd weight, and no single bits. -/
def secdedSome (n c : Nat) : List Nat :=
  ((List.range (2 ^ c)).filter fun x => oddWeight c x && !((List.range c).map (2 ^ ·)).contains x).take n

/-- The columns of the code of n data bits and c check bits. -/
def secdedCols (n c : Nat) : List Nat :=
  let cols := (List.range n).map (Config.eccColumn n)
  if SecdedOk n c cols then cols else secdedSome n c

/-- The check bits of a code's data. -/
def eccCheck (n c data : Nat) : Nat := (List.range n).foldl (fun x j => if data.testBit j then x ^^^ (secdedCols n c).getD j 0 else x) 0

/-- What a checker finds. -/
inductive EccResult where
  | clean | corrected (data : Nat) | uncorrectable
deriving DecidableEq, Repr

/-- Decodes a SECDED codeword of `n` data bits and `c` check bits from its syndrome: 0 is clean, a syndrome with one bit set
names a check bit, the column of a data bit names that bit, anything else is uncorrectable (R242). -/
def eccDecode (n c data syn : Nat) : EccResult :=
  if syn = 0 then .clean
  else if (List.range c).any (fun p => syn == 2 ^ p) then .corrected data
  else match (secdedCols n c).findIdx? (· == syn) with
    | some j => .corrected (data ^^^ 2 ^ j)
    | none => .uncorrectable

/-! ### Reed-Solomon (R212, R213) -/

/-- The symbols of data in a codeword: four for HBM, eight for DDR5; two check symbols follow. -/
def rsBytes (hbm : Bool) : Nat := if hbm then 4 else 8

/-- The syndrome of error e in symbol k of a code of n data symbols. -/
def rsSyn (n : Nat) (cols : List Nat) (k e : Nat) : Nat :=
  if k < n then (List.range 8).foldl (fun x b => if e.testBit b then x ^^^ cols.getD (8 * k + b) 0 else x) 0 else e * 2 ^ (8 * (k - n))

/-- The errors of one symbol. -/
def rsErrors (n : Nat) : List (Nat × Nat) := (List.range (n + 2)).flatMap fun k => (List.range 255).map fun e => (k, e + 1)

/-- Columns of the data bits that correct every error of one symbol. -/
abbrev RsOk (n : Nat) (cols : List Nat) : Prop :=
  cols.length = 8 * n ∧ ((rsErrors n).map fun x => rsSyn n cols x.1 x.2).Nodup ∧ ∀ x ∈ rsErrors n, 0 < rsSyn n cols x.1 x.2 ∧ rsSyn n cols x.1 x.2 < 65536

/-- Multiplication by x in GF(2^8). -/
def gfX (b : Nat) : Nat := if b < 128 then 2 * b else (2 * b) ^^^ 0x11D

/-- Columns that are some code: check symbols the sum of the data symbols and their sum weighted with the powers of x. -/
def rsSome (n : Nat) : List Nat :=
  (List.range (8 * n)).map fun i => 2 ^ (i % 8) + 256 * (List.range (i / 8)).foldl (fun b _ => gfX b) (2 ^ (i % 8))

/-- The columns of a code. -/
def rsCols (hbm : Bool) : List Nat :=
  let n := rsBytes hbm
  let cols := (List.range (8 * n)).map fun i => (Config.rsColumn hbm i).toNat
  if RsOk n cols then cols else rsSome n

/-- The check symbols of a codeword's data. -/
def rsCheck (hbm : Bool) (data : Nat) : Nat :=
  (List.range (8 * rsBytes hbm)).foldl (fun x j => if data.testBit j then x ^^^ (rsCols hbm).getD j 0 else x) 0

/-- The one symbol in error and its error value that a syndrome names, if it names one. -/
def rsCorrect (hbm : Bool) (syn : Nat) : Option (Nat × Nat) :=
  (rsErrors (rsBytes hbm)).find? fun x => rsSyn (rsBytes hbm) (rsCols hbm) x.1 x.2 == syn

end Sys2Proof.Machine
end

