-- ==== Sys2Proof/Machine/Map.lean ====
section
/-!
DEFINITION. Finite maps from numbers (`KMap`): a list of pairs with strictly rising keys. `mget`, `mput` and `mdel` read, write and
remove one key; `mgetD` and `mputD` are a memory whose unlisted cells read as `d`: writing `d` removes the entry, so
that equal memories are equal data.
-/
namespace Sys2Proof.Machine

/-- The entry of key `i`, if any. -/
def mget {α : Type} : KMap α → Nat → Option α
  | [], _ => none
  | (k, v) :: m, i => if k = i then some v else mget m i

/-- Writes the entry of key `i`, keeping the keys in order. -/
def mput {α : Type} : KMap α → Nat → α → KMap α
  | [], i, v => [(i, v)]
  | (k, w) :: m, i, v =>
    if i < k then (i, v) :: (k, w) :: m else if k = i then (i, v) :: m else (k, w) :: mput m i v

/-- Removes the entry of key `i`. -/
def mdel {α : Type} : KMap α → Nat → KMap α
  | [], _ => []
  | (k, w) :: m, i => if k = i then mdel m i else (k, w) :: mdel m i

/-- The keys rise strictly. -/
abbrev KMap.sorted {α : Type} (m : KMap α) : Prop := m.Pairwise (fun a b => a.1 < b.1)

/-- A memory read: an unlisted cell reads as `d`. -/
def mgetD {α : Type} (d : α) (m : KMap α) (i : Nat) : α := (mget m i).getD d

/-- A memory write: a cell that reads as `d` is not listed. -/
def mputD {α : Type} [DecidableEq α] (d : α) (m : KMap α) (i : Nat) (v : α) : KMap α :=
  if v = d then mdel m i else mput m i v

/-- The canonical form of a memory whose unlisted cells read as `d`: keys rise strictly, no entry equals `d`. -/
abbrev KMap.wf {α : Type} [DecidableEq α] (d : α) (m : KMap α) : Prop := KMap.sorted m ∧ ∀ e ∈ m, e.2 ≠ d

/-- Keeps the entries whose key satisfies `p`. -/
def mkeep {α : Type} (p : Nat → Bool) (m : KMap α) : KMap α := m.filter fun e => p e.1

/-- Applies `f` to every entry's value. -/
def mmap {α : Type} (f : Nat → α → α) (m : KMap α) : KMap α := m.map fun e => (e.1, f e.1 e.2)

end Sys2Proof.Machine
end

