-- ==== Sys2Proof/Machine/Ops.lean ====
section
/-!
DEFINITION. The named operations over registers: reading and writing a register or a field, what a register holds at reset, events
and trouble counters, MSI-X vectors, alarms, free values and codeword decoding. Every chapter's meanings use these.
-/
namespace Sys2Proof.Machine

/-- The outcome of a command. -/
abbrev Out := Host.Outcome State Fault Refusal

/-! ### Registers -/

/-- The interface types of an attachment point in STOP_INFO.IFTYPE, four bits an interface (Tables 06.1 and 06.13). -/
def ifTypes (n : Nat) : Word :=
  if n < 56 then (if n % 7 < 4 then 0x211 else if n % 7 = 4 then 0x3 else if n % 7 = 5 then 0x44 else 0x4)
  else if n = 56 then 0x5 else if n = 57 then 0x6 else if n = 58 then 0x87 else if n = 59 then 0xA9 else 0xB

/-- The interface states at a cold power-up (R165): mantle interfaces ON, those of fabric dies and lanterns OFF, the partner die's OFF on a
part with the -U option. -/
def ifStates (n : Nat) (ucie : Bool) : Word :=
  if n < 56 then (if n % 7 < 4 then 0x144 else if n % 7 = 5 then 0x44 else 0x4)
  else if n < 58 then 0x1 else if n < 60 then 0x11 else if ucie then 0x4 else 0x0

/-- The registers whose reset value differs between the instances of one definition (Tables 06.12, 09.9, 19.11). -/
def instReset (partId : Word) (serial : BitVec 64) (k : PageKind) (i n off : Nat) : Option Word :=
  match k with
  | .dev0 => if off = 0x080 then some partId else none
  | .tq => if off = 0x088 then some (serial.setWidth 32) else if off = 0x08C then some (serial.extractLsb' 32 32) else none
  -- the ember domain starts with its alarm latch set (R434)
  | .key => if off = 0x088 then some 2 else none
  | .keySlt =>
    if off % 8 = 0 then (if off ≥ 0x080 then (if i = 0 ∧ n = 0 then some 0x32 else some 0) else none)
    else if off ≥ 0x080 then (if i = 0 ∧ n = 0 then some 0 else some 0x3FE00) else none
  | .stop =>
    if off = 0x080 then some (ifTypes i)
    else if off = 0x084 then some (ifStates i (partId.getLsbD 7))
    else if off = 0x104 then some 0xFFFFFFFF
    else if off = 0x108 then some 0xE003FE00
    else if off ≥ 0x100 then some 0
    else none
  | .host => if 0x400 ≤ off then some (BitVec.ofNat 32 ((2 * n + 1) * 0x10000 + 2 * n)) else none
  | _ => none

/-- What a register holds after its reset: the value of its table, or for a register that takes its value from the fuses or the image, what
the fuses (`fuses`) or the running image (`image`) give it. -/
def regResetOf (fuses image : KMap Word) (partId : Word) (serial : BitVec 64) (pg off : Nat) : Word :=
  match pageOf pg with
  | none => 0
  | some (k, i) =>
    match regAt k i off with
    | none => 0
    | some (r, n) =>
      let v := (mget fuses (regKey pg off)).getD ((instReset partId serial k i n off).getD r.reset)
      if r.image then mgetD v image (regKey pg off) else v

/-- The reset value of a register of this part under its running image. -/
def State.regReset (s : State) (pg off : Nat) : Word := regResetOf s.fuses s.design.regs s.partId s.serialNo pg off

/-- The content of a register. -/
def State.reg (s : State) (pg off : Nat) : Word := (mget s.regs (regKey pg off)).getD (s.regReset pg off)

/-- Writes the content of a register. -/
def State.setReg (s : State) (pg off : Nat) (v : Word) : State := { s with regs := mput s.regs (regKey pg off) v }

/-- The content of a field. -/
def State.fld (s : State) (pg : Nat) (f : Fld) : Nat := fieldOf (s.reg pg f.off) f.lo f.width

/-- Whether a one-bit field is 1. -/
def State.bit (s : State) (pg : Nat) (f : Fld) : Bool := s.fld pg f != 0

/-- Writes a field, leaving the register's other bits. -/
def State.setFld (s : State) (pg : Nat) (f : Fld) (n : Nat) : State :=
  s.setReg pg f.off (withField (s.reg pg f.off) f.lo f.width n)

/-- A field of a controller block or another repeated group, `base` bytes further on. -/
def Fld.sh (f : Fld) (base : Nat) : Fld := { f with off := f.off + base }

/-- A unit is held in reset after self-test (R21): bit n of a FAIL field of BIST. -/
def State.heldBit (s : State) (f : Fld) (n : Nat) : Bool := (s.fld Pg.bist f).testBit n

/-- An instruction is in force under which the boundary register drives the pins, DONE low among them (R497). -/
def pinInstruction (t : Byte) : Bool := decide (3 ≤ t.toNat) && decide (t.toNat ≤ 7)
def State.pinTest (s : State) : Bool := pinInstruction s.mgmt.tap

/-- The cell of a pin: what it drives, what it has captured. -/
def State.cell (s : State) (p : BPin) : Bool := ((s.mgmt.bsr.find? fun e => e.1 == p).map Prod.snd).getD false
def State.captured (s : State) (p : BPin) : Bool := ((s.mgmt.bsrIn.find? fun e => e.1 == p).map Prod.snd).getD false

/-! ### Free values -/

/-- A free value: nothing constrains it. -/
def State.freeLine (s : State) : Line := Config.freeLine s.free

/-- The next free value will be another one. -/
def State.useFree (s : State) : State := { s with free := s.free + 1 }

/-! ### Output -/

/-- Records what the block sends out of itself. -/
def State.emit (s : State) (e : Emit) : State := { s with out := e :: s.out }

/-! ### MSI-X (R309) and page events (R471, R483) -/

/-- A function's state. At reset every enable is 0, as PCI Express resets them. -/
def HostFn.reset : HostFn := ⟨false, false, false, false, 0, 0, 0⟩

def State.fn (s : State) (f : Nat) : HostFn := (mget s.fns f).getD HostFn.reset
def State.setFn (s : State) (f : Nat) (v : HostFn) : State := { s with fns := mput s.fns f v }

/-- The physical function a function belongs to: functions 0 to 7 are PF 0 to 7, then follow the 63 VFs of each (R31). -/
def pfOf (f : Nat) : Nat := if f < 8 then f else (f - 8) / 63

/-- The MSI-X table size of function f (Table 19.12). -/
def State.msixSize (s : State) (f : Nat) : Nat :=
  if f < 8 then s.fld Pg.host (Fld.HOST_MSIX_SIZE_PF f) else s.fld Pg.host (Fld.HOST_MSIX_SIZE_VF (pfOf f))

/-- The function and the table index of a global vector, looked for from function `f` on among `n` functions. -/
def State.vectorFn (s : State) : (n f g : Nat) → Option (Nat × Nat)
  | 0, _, _ => none
  | n + 1, f, g => if g < s.msixSize f then some (f, g) else s.vectorFn n (f + 1) (g - s.msixSize f)

/-- Adds one to a trouble counter, which stops at 0xFFFF and raises TRB_SAT there (R459). -/
def State.trbRaw (s : State) (pg k : Nat) : State :=
  let c := s.fld pg (Fld.PG_TRB_CNT k)
  if c < 0xFFFF then
    let s := s.setFld pg (Fld.PG_TRB_CNT k) (c + 1)
    if c + 1 = 0xFFFF then s.setFld pg Fld.PG_PG_EVT_TRB_SAT 1 else s
  else s

/-- Word w of the MSI-X table of function f: four words a vector (address low and high, data, control with the mask in bit 0; PCI Express sets the mask
at reset, log 28). -/
def State.msixWord (s : State) (f w : Nat) : Word := mgetD (if w % 4 = 3 then 1 else 0) s.host.table (f * 8192 + w)
def State.vectorMasked (s : State) (f j : Nat) : Bool := (s.msixWord f (4 * j + 3)).getLsbD 0
def State.msixMessage (s : State) (f j : Nat) : Emit :=
  .msix f j (s.msixWord f (4 * j + 1) ++ s.msixWord f (4 * j)) (s.msixWord f (4 * j + 2))

/-- A trigger of global vector g (R309): sent, left pending under a mask or Bus Master Enable 0, or ignored and counted. -/
def State.msix (s : State) (g : Nat) : State :=
  match s.vectorFn 512 0 g with
  | none => s.trbRaw Pg.hostLnk 6
  | some (f, j) =>
    let fn := s.fn f
    if !fn.msixEn then s.trbRaw Pg.hostLnk 6
    else if fn.busMaster && !fn.msixMask && !s.vectorMasked f j then s.emit (s.msixMessage f j)
    else if s.msixPend.contains g then s else { s with msixPend := g :: s.msixPend }

/-- Whether a page's event output is driven: an event bit and its enable are both set (R483). -/
def State.evtOut (s : State) (pg : Nat) : Bool :=
  (s.reg pg Reg.PG_PG_EVT &&& s.reg pg Reg.PG_PG_EVT_EN) != 0

/-- The host port raises the vector of every route that names the page (R483). -/
def State.routeEvt (s : State) (pg : Nat) : State :=
  (List.range 64).foldl (fun s r =>
    if s.bit Pg.host (Fld.HOST_EVT_ROUTE_EN r) && s.fld Pg.host (Fld.HOST_EVT_ROUTE_PAGE r) == pg then
      s.msix (s.fld Pg.host (Fld.HOST_EVT_ROUTE_VECTOR r)) else s) s

/-- Follows a change of a page's events or enables: the routes act when its output goes from low to high. -/
def State.evtEdge (before after : State) (pg : Nat) : State :=
  if !before.evtOut pg && after.evtOut pg then after.routeEvt pg else after

/-- Raises an event bit of a page. -/
def State.raise (s : State) (pg : Nat) (f : Fld) : State := s.evtEdge (s.setFld pg f 1) pg

/-- Counts in trouble counter k of a page (R459). -/
def State.trb (s : State) (pg k : Nat) : State := s.evtEdge (s.trbRaw pg k) pg

/-- Counts n events. -/
def State.trbN (s : State) (pg k : Nat) : Nat → State
  | 0 => s
  | n + 1 => (s.trb pg k).trbN pg k n

/-! ### Alarms (R456) -/

/-- An alarm: its ALM_SUM bit is set and a record is appended, or counted as dropped when the queue holds 64; an alarm of
codes 2 to 10 starts the hold-off (Table 18.9). -/
def State.alarm (s : State) (code page : Nat) (detail : Word) : State :=
  let s := s.setReg Pg.alm Reg.ALM_ALM_SUM (s.reg Pg.alm Reg.ALM_ALM_SUM ||| (1 : Word) <<< code)
  let s := if s.alarms.length < 64 then { s with alarms := s.alarms ++ [⟨code, page, detail, s.ns⟩] } else s.trb Pg.alm 0
  if 2 ≤ code ∧ code ≤ 10 then s.setFld Pg.alm Fld.ALM_GUAR_STAT_HOLDOFF 1 else s

/-- A level alarm begins: it is raised once, until its condition ends. -/
def State.levelAlarm (s : State) (code page : Nat) (detail : Word) (unit : Nat) : State :=
  if s.levelAlarms.contains (code, unit) then s
  else { s.alarm code page detail with levelAlarms := (code, unit) :: s.levelAlarms }

/-- The condition of a level alarm ends. -/
def State.levelEnd (s : State) (code unit : Nat) : State :=
  { s with levelAlarms := s.levelAlarms.filter (· ≠ (code, unit)) }

/-! ### Codewords (R242) -/

/-- A memory is in raw mode (R254): target, instance, memory within the instance. -/
def State.isRaw (s : State) (target inst mem : Nat) : Bool := s.integ.rawMode.contains (target, inst, mem)

/-- A word just written, with valid check bits. -/
def EccWord.ok (d : DWord) : EccWord := ⟨d, 0⟩

/-- Decodes a 64-bit word with 8 check bits. -/
def EccWord.decode (w : EccWord) : EccResult := eccDecode 64 8 w.data.toNat w.syn.toNat

end Sys2Proof.Machine
end

