-- ==== Sys2Proof/Machine/DramMap.lean ====
section
/-!
DEFINITION. Where a line lives: its home slice (R174) and its DRAM controller with the local index (R200, R201); the controllers' blocks of
registers (R216).
-/
namespace Sys2Proof.Machine

/-- The home slice of a line, from its line address a[47:6] (R174). -/
def homeSlice (line : Nat) : Nat :=
  (List.range 8).foldl (fun x i => x ^^^ (line >>> (5 * i)) % 32) 0

/-- The first line of the DDR5 range. -/
def ddrBase : Nat := 0x002000000000 / 64
/-- The lines of the HBM range. -/
def hbmLines : Nat := 0x001800000000 / 64

/-- The HBM pseudo-channel and the local index of a line (R200). -/
def hbmPlace (line : Nat) : Nat × Nat :=
  (((line ^^^ (line >>> 7) ^^^ (line >>> 14) ^^^ (line >>> 21)) % 128), (line >>> 7) % 2 ^ 24)

/-- The channels of an interleave set (Table 08.10). -/
def ilvChannels (set : Nat) : Nat := if set = 0 then 0 else if set = 1 then 1 else if set = 2 then 2 else 4

/-- A DDR5 channel's capacity in GiB for its density and ranks (Table 08.1). -/
def chCapGiB (cfg : Word) : Nat :=
  match fieldOf cfg 0 2, fieldOf cfg 4 2 with
  | 0, 2 => 64 | 0, _ => 32 | 1, _ => 48 | _, _ => 64

/-- The rows of a bank (Table 08.1). -/
def ddrRows (cfg : Word) : Nat := match fieldOf cfg 0 2 with | 0 => 65536 | 1 => 98304 | _ => 131072

/-- The configuration of channel c in force (R199, R201). -/
def State.chCfg (s : State) (ch : Nat) : Word := mgetD 0 s.dram.cfgs ch

/-- The lines of the populated DDR5 range, by the interleave set in force (R201). -/
def State.ddrLines (s : State) : Nat := ilvChannels s.dram.ilv * chCapGiB (s.chCfg 0) * 2 ^ 24

/-- The subchannel, numbered 2c + s, and the local index of a line of the DDR5 range (R201). -/
def ddrPlace (n : Nat) (o : Nat) : Nat × Nat :=
  let b (i : Nat) : Nat := (o >>> i) % 2
  -- o counts lines: bit i of the byte offset is bit i - 6 here
  if n = 4 then (2 * ((o % 4) ^^^ (o >>> 8) % 4) + (b 2 ^^^ b 10), o >>> 3)
  else if n = 2 then (2 * (b 0 ^^^ b 8) + (b 1 ^^^ b 9), o >>> 2)
  else (b 0 ^^^ b 8, o >>> 1)

/-- The controller (pseudo-channels 0 to 127, then subchannels) and local index of a line, if it is DRAM that is populated. -/
def State.dramPlace (s : State) (line : Nat) : Option (Nat × Nat) :=
  if line < hbmLines then some (hbmPlace line)
  else if ddrBase ≤ line ∧ line < ddrBase + s.ddrLines then
    let (c, j) := ddrPlace (ilvChannels s.dram.ilv) (line - ddrBase)
    some (128 + c, j)
  else none

/-- The line a controller stores at a local index (the inverse of `dramPlace`). -/
def State.lineOf (s : State) (c j : Nat) : Nat :=
  if c < 128 then
    -- j = line >> 7; the low seven bits follow from the pseudo-channel
    128 * j + (c ^^^ (j ^^^ (j >>> 7) ^^^ (j >>> 14)) % 128)
  else
    let sc := c - 128
    let ch := sc / 2
    let n := ilvChannels s.dram.ilv
    let b (i : Nat) : Nat := (j >>> i) % 2
    ddrBase + (if n = 4 then 8 * j + 4 * (sc % 2 ^^^ b 7) + (ch ^^^ (j >>> 5) % 4)
      else if n = 2 then 4 * j + 2 * (sc % 2 ^^^ b 7) + (ch ^^^ b 6)
      else 2 * j + (sc % 2 ^^^ b 7))

/-- The page and the offset of a controller's block of registers (R216). -/
def cbPage (c : Nat) : Nat := if c < 128 then Pg.hbmPc (c / 32) (c % 32 / 4) else Pg.ddrCtl ((c - 128) / 2)
def cbBase (c : Nat) : Nat := if c < 128 then 0x080 + 0x40 * (c % 4) else 0x100 + 0x40 * (c % 2)

/-- A field of a controller's block. -/
def State.cb (s : State) (c : Nat) (f : Fld) : Nat := s.fld (cbPage c) (f.sh (cbBase c))
def State.setCb (s : State) (c : Nat) (f : Fld) (n : Nat) : State := s.setFld (cbPage c) (f.sh (cbBase c)) n

/-- A controller serves requests: ready, in power-down or in self-refresh (CB_STAT.STATE); not while it trains (R211), not in self-refresh while SYSREF is lost, nor before it
has retrained after a source failure (R369, R370). -/
def State.cbServes (s : State) (c : Nat) : Bool :=
  let st := s.cb c Fld.CB_CB_STAT_STATE
  (st == 2 || st == 3 || (st == 4 && !s.clk.lost)) && s.cb c Fld.CB_TRAIN_BUSY == 0 && !s.clk.failed && !s.clk.retrain.contains c

end Sys2Proof.Machine
end

