-- ==== Sys2Proof/Machine/Flits.lean ====
section
/-!
DEFINITION. The flits of the ring network: their bits (R142, R143), the transit and injection queues (R154, R155), the ring cycle (R156) and the replay (R162). Nothing
of it can be seen from outside (R164). A command by which a transfer reaches its destination takes the flit there from wherever it stands: how long
its hops take is left to the sender of the commands; ring cycles move it on as time passes (DESIGN CHOICE, log 136).
-/
namespace Sys2Proof.Machine

/-! ### Bits (R142 to R145) -/

def Vc.no : Vc → Nat
  | .req => 0 | .rsp => 1 | .post => 2 | .mgmt => 3

/-- The number of a status (Table 06.5). -/
def Status.no : Status → Nat
  | .ok => 0 | .busError => 1 | .domainOff => 2 | .poison => 3

/-- CRC-32C over bits [639:32], the byte of bits [39:32] first (which byte comes first is not said: DESIGN CHOICE, log 136). -/
def flitCrc (body : BitVec 608) : Nat := crcOf 2 ((List.range 76).map fun i => BitVec.ofNat 8 (fieldOf body (8 * i) 8))

/-- The header fields of a flit, but for VC and addresses of its route. -/
structure FlitHead where
  typ : Nat
  tid : BitVec 9
  kid : BitVec 10
  tag : Nat
  len : Nat
  addr : Nat

/-- A flit's 640 bits (Table 06.2). -/
def flitWord (h : FlitHead) (vc : Vc) (dst src : Nat) (payload : Line) : BitVec 640 :=
  let body : BitVec 608 := BitVec.ofNat 4 h.typ ++ BitVec.ofNat 2 vc.no ++ BitVec.ofNat 6 dst ++ BitVec.ofNat 6 src ++ h.tid ++ h.kid ++ BitVec.ofNat 8 h.tag
    ++ BitVec.ofNat 3 h.len ++ BitVec.ofNat 48 h.addr ++ payload
  body ++ BitVec.ofNat 32 (flitCrc body)

/-- The check of R162. -/
def flitSound (w : BitVec 640) : Bool := fieldOf w 0 32 == flitCrc (BitVec.ofNat 608 (fieldOf w 32 608))

/-- The VCs of a type (Tables 06.3 and 07.3): a reserved type has none. -/
def flitTypeOk (typ : Nat) (vc : Vc) : Bool :=
  match typ, vc with
  | 0x0, .req | 0x0, .mgmt | 0x1, .req | 0x1, .mgmt | 0x2, .post => true
  | 0x4, .rsp | 0x4, .mgmt | 0x5, .rsp | 0x5, .mgmt | 0x6, .rsp => true
  | 0x8, .req | 0xA, .req | 0xE, .req | 0x9, .rsp | 0xB, .rsp | 0xC, .rsp | 0xD, .rsp => true
  | _, _ => false

/-! ### Segments -/

/-- Whether a flit from `a` to `b` on ring r crosses the segment of ring r that leaves `stop`. -/
def crosses (a b r stop : Nat) : Bool :=
  if r % 2 = 0 then decide ((stop + 64 - a) % 64 < (b + 64 - a) % 64) else decide ((a + 64 - stop) % 64 < (a + 64 - b) % 64)

/-- The attachment point before `stop` on ring r, whose segment leads to it, and the one after it. -/
def segBefore (stop r : Nat) : Nat := if r % 2 = 0 then (stop + 63) % 64 else (stop + 1) % 64
def segAfter (stop r : Nat) : Nat := if r % 2 = 0 then (stop + 1) % 64 else (stop + 63) % 64

/-- SEG_FAIL bit r. -/
def State.segFailed (s : State) (stop r : Nat) : Bool := (s.fld (Pg.stop stop) Fld.STOP_SEG_FAIL_SEG).testBit r

/-- No failed segment lies between two attachment points on a ring. -/
def State.pathOpen (s : State) (a b r : Nat) : Bool := (List.range 64).all fun st => !(crosses a b r st && s.segFailed st r)

/-! ### Routes (R151, R163, R442) -/

/-- The ring pair and direction of R151. -/
def baseRing (a b : Nat) : Nat × Nat :=
  let p := (a / 8) ^^^ (a % 8) ^^^ (b / 8) ^^^ (b % 8)
  let h := (b + 64 - a) % 64
  (p, if h < 32 ∨ (h = 32 ∧ a < b) then 0 else 1)

/-- The ring of a flow, as an attachment point that knows of some failed segments chooses it (R151, R163, R442). -/
def routeIn (known : List (Nat × Nat × Nat)) (a b : Nat) : Nat :=
  let (p, d) := baseRing a b
  let free (r : Nat) : Bool := !(known.any fun k => k.1 == a && k.2.2 == r && crosses a b r k.2.1)
  let cands := (List.range 8).flatMap fun i => let q := (p + i) % 8; [2 * q + d, 2 * q + (1 - d)]
  (cands.find? free).getD (2 * p + d)
def State.route (s : State) (a b : Nat) : Nat := routeIn s.rings.known a b

/-- The segment being readmitted. -/
def State.admitSeg (s : State) : Option (Nat × Nat) :=
  match s.pairs.cmd with | some (3, 2, stop, sub) => some (stop, sub) | _ => none

/-- A flow whose route will change, at an attachment point that holds such flows (step 2). -/
def State.flowHeld (s : State) (a b : Nat) : Bool :=
  match s.admitSeg with
  | none => false
  | some (stop, r) =>
    s.pairs.held.contains a && s.route a b != routeIn (s.rings.known.filter (· ≠ (a, stop, r))) a b

/-! ### Queues (R154, R155) -/

/-- The entries of a transit queue and of an ejection queue (Table 06.7). -/
def Vc.transit : Vc → Nat
  | .mgmt => 4 | _ => 8
def Vc.eject : Vc → Nat
  | .mgmt => 8 | _ => 32

/-- The entries taken of the transit queue of a ring and VC. -/
def State.transit (s : State) (stop ring : Nat) (vc : Vc) : Nat :=
  ((s.rings.flits.filter fun f => f.at_ == some stop && f.ring == ring && f.vc == vc).map fun f => f.words.length).sum

/-- R155: two free entries for a flit to be injected, three for a masked line write. An injected flit stands in the transit queue of its own attachment point first
(DEDUCED, log 136). -/
def State.mayEnter (s : State) (stop ring : Nat) (vc : Vc) (n : Nat) : Bool := decide (s.transit stop ring vc + n + 1 ≤ vc.transit)

/-- The key of an interface. -/
def ifKey (stop ifc : Nat) : Nat := 4 * stop + ifc

/-- The key of an interface's pacing on a VC: of delivery to its end point, or of what its end point issues. -/
def paceKey (stop ifc : Nat) (vc : Vc) (own : Bool) : Nat := (ifKey stop ifc * 4 + vc.no) * 2 + (if own then 1 else 0)

/-- The credit ramp of a readmitted interface lets the next flit of a VC pass (R452). -/
def State.mayPace (s : State) (stop ifc : Nat) (vc : Vc) (own : Bool) : Bool := mgetD 0 s.rings.paced (paceKey stop ifc vc own) == 0

/-- So many flits of a VC have passed: the next is admitted an interval later, 64 ring cycles in the ramp's first step (R452). -/
def State.pace (s : State) (stop ifc : Nat) (vc : Vc) (own : Bool) (n : Nat) : State :=
  match mget s.pairs.ramps (ifKey stop ifc) with
  | some r => { s with rings.paced := mput s.rings.paced (paceKey stop ifc vc own) (n * 2 ^ r) }
  | none => s

/-- A request of its end point, for which it needs a request credit (R452). -/
def Flit.asks (f : Flit) : Bool := f.vc != .rsp && (match f.ref with | .ans _ => false | _ => true)

/-- A flit has left its end point's interface. -/
def State.boarded (s : State) (f : Flit) : State := if f.asks then s.pace f.src f.srcIf f.vc true f.words.length else s

/-- Two flits of one flow and VC (R159). -/
def Flit.sameFlow (f g : Flit) : Bool := f.src == g.src && f.srcIf == g.srcIf && f.dst == g.dst && f.dstIf == g.dstIf && f.vc == g.vc

/-- A flit of the interface and VC waits for injection. -/
def State.injWaits (s : State) (stop ifc : Nat) (vc : Vc) : Bool :=
  s.rings.flits.any fun f => f.at_.isNone && !f.again && f.src == stop && f.srcIf == ifc && f.vc == vc

/-- A flit that no ring carries yet may be injected: its way is open, no readmission holds its flow (Table 18.4), and R155 and R452 permit it. -/
def State.mayBoard (s : State) (f : Flit) : Bool :=
  !f.again && (!f.asks || s.mayPace f.src f.srcIf f.vc true) && s.pathOpen f.src f.dst f.ring && !s.flowHeld f.src f.dst && s.mayEnter f.src f.ring f.vc f.words.length

/-- A flit is issued: injected at once where it may be and no earlier one of its interface and VC waits, else it waits in the injection queue, or with the end point. One
for a failed segment that its source does not know of is discarded there, to be sent again (R443). -/
def State.launch (s : State) (f : Flit) : State :=
  let f := { f with at_ := none, again := !s.pathOpen f.src f.dst f.ring }
  let now := s.mayBoard f && !s.injWaits f.src f.srcIf f.vc
  let s := if now then s.boarded f else s
  { s with rings.flits := s.rings.flits ++ [{ f with at_ := if now then some f.src else none }] }

def State.flit (s : State) (ref : FlitRef) : Option Flit := s.rings.flits.find? fun f => decide (f.ref = ref)

/-- A flit may reach its destination: the earlier ones of its flow have (R159); one not injected yet is injected by then (R155); and
pacing admits it to its end point (R452). -/
def State.mayLand (s : State) (ref : FlitRef) : Bool :=
  match s.flit ref with
  | none => true
  | some f =>
    (s.rings.flits.takeWhile fun g => decide (g.ref ≠ ref)).all (fun g => !g.sameFlow f)
      && s.mayPace f.dst f.dstIf f.vc false
      && (if f.at_.isSome then !f.again else s.mayBoard f)

/-- A flit has left the ring. -/
def State.landed (s : State) (ref : FlitRef) : State :=
  let s := match s.flit ref with
    | some f => (if f.at_.isNone then s.boarded f else s).pace f.dst f.dstIf f.vc false f.words.length
    | none => s
  { s with rings.flits := s.rings.flits.eraseP fun f => decide (f.ref = ref) }

/-- The destination finds a flit's bits bad: a type that its VC does not carry (Table 06.14, TRB5). -/
def Flit.badType (f : Flit) : Bool := f.words.any fun w => !flitTypeOk (fieldOf w 636 4) f.vc

/-! ### The ring cycle (R156) -/

/-- The order in which the VCs are served: MGMT first, then RSP, POST and REQ after the one served last. -/
def vcOrder (last : Vc) : List Vc :=
  .mgmt :: (match last with | .rsp => [.post, .req, .rsp] | .post => [.req, .rsp, .post] | _ => [.rsp, .post, .req])

/-- The first flit of the VC order that satisfies `p`, the oldest of its VC. -/
def pickFlit (last : Vc) (l : List Flit) (p : Flit → Bool) : Option Flit :=
  (vcOrder last).findSome? fun vc => (l.filter fun f => f.vc == vc).find? p

/-- The flit changes in the list. -/
def putFlit (l : List Flit) (old new : Flit) : List Flit :=
  let i := l.idxOf old
  l.set i new

/-- One ring cycle of an attachment point on one ring, by the queues as they stood when the cycle began (R155, R156): a replay that is awaited comes first (R162); then a transit
flit, against a free entry of the next transit queue, or, where a starved injection has the right of way, a flit to be injected; else an injection. -/
def State.ringSlot (s0 s : State) (stop ring : Nat) : State :=
  let key := 16 * stop + ring
  let last := (mget s0.rings.served key).getD .req
  let next := segAfter stop ring
  let mine := s0.rings.flits.filter fun f => f.ring == ring
  let send (s : State) (f : Flit) (g : Flit) (onto : Bool) : State :=
    let hist := mgetD [] s.rings.sent key
    { s with rings.flits := putFlit s.rings.flits f g, rings.served := mput s.rings.served key f.vc,
             rings.sent := if onto then mput s.rings.sent key ((f.words.reverse ++ hist).take 16) else s.rings.sent }
  match mine.find? fun f => f.again && f.at_ == some next with
  | some f => { s with rings.flits := putFlit s.rings.flits f { f with again := false } }
  | none =>
    let onward := pickFlit last (mine.filter fun f => f.at_ == some stop && f.dst != stop && !f.again)
      fun f => decide (s0.transit next ring f.vc + f.words.length ≤ f.vc.transit)
    let enter := pickFlit last (mine.filter fun f => f.at_.isNone && f.src == stop)
      fun f => s0.mayBoard f
        && !((s0.rings.flits.takeWhile (· ≠ f)).any fun g => g.at_.isNone && !g.again && g.src == stop && g.srcIf == f.srcIf && g.vc == f.vc)
    let inject (s : State) (f : Flit) : State :=
      send { s.boarded f with rings.starved := s.rings.starved.filter (· ≠ (stop, ring)) } f { f with at_ := some stop } false
    let forward (s : State) (f : Flit) : State :=
      { send s f { f with at_ := some next } true with rings.crcFails := mdel s.rings.crcFails key }
    if s0.segFailed stop ring then s
    else match onward, enter with
      | some f, some g => if s0.rings.starved.contains (stop, ring) || (f.vc != .mgmt && g.vc == .mgmt) then inject s g else forward s f
      | some f, none => forward s f
      | none, some g => inject s g
      | none, none => s

/-- One cycle of the rings. -/
def State.ringCycle (s : State) : State :=
  (s.rings.flits.flatMap fun f => match f.at_ with
    | some p => [(p, f.ring), (segBefore p f.ring, f.ring)]
    | none => [(f.src, f.ring)]).eraseDups.foldl (fun t p => s.ringSlot t p.1 p.2) s

/-- The pacing of R452 after so many ring cycles. -/
def pacedOn (l : KMap Nat) (n : Nat) : KMap Nat := (l.map fun e => (e.1, e.2 - n)).filter fun e => e.2 != 0

/-- So many cycles of the rings. -/
def State.ringCycles (s : State) : Nat → State
  | 0 => s
  | n + 1 => if s.rings.flits.isEmpty then s else s.ringCycle.ringCycles n

/-- A flit that has just come to `stop` on a ring failed its check: it and those after it are discarded until the replay, which the sender's store gives, has arrived (R162). -/
def State.flitFailed (s : State) (stop ring : Nat) : State :=
  let words := mgetD [] s.rings.sent (16 * segBefore stop ring + ring)
  match s.rings.flits.find? fun f => f.at_ == some stop && f.ring == ring && f.words.any fun w => words.head? == some w with
  | none => s
  | some f => { s with rings.flits := putFlit s.rings.flits f { f with again := true } }

end Sys2Proof.Machine
end

