-- ==== Sys2Proof/Machine/Ring.lean ====
section
/-!
DEFINITION. The ring network's shared operations (chapter 06): end points and interface states, the checks at injection, decode, access
windows, routes, tags, and how a transaction is injected, answered and ended.
-/
namespace Sys2Proof.Machine

/-! ### End points (Table 06.1) -/

/-- What stands behind an interface of an attachment point. -/
inductive EpKind where
  | port (p : Nat) | slice (n : Nat) | dcache (m : Nat) | lantern (k : Nat) | host | tequel | mgmt | nv | scrub | check
  | partner (u : Nat) | none
deriving DecidableEq, Repr

/-- The end point of an interface (Table 06.1). -/
def epKind (stop ifc : Nat) : EpKind :=
  let m := stop / 7
  let j := stop % 7
  if stop < 56 then
    if j < 4 then (if ifc < 2 then .port (8 * m + 2 * j + ifc) else if ifc = 2 then .slice (4 * m + j) else .none)
    else if j = 4 then (if ifc = 0 then .dcache m else .none)
    else if j = 5 then (if ifc < 2 then .lantern (3 * m + ifc) else .none)
    else (if ifc = 0 then .lantern (3 * m + 2) else .none)
  else if stop = 56 then (if ifc = 0 then .host else .none)
  else if stop = 57 then (if ifc = 0 then .tequel else .none)
  else if stop = 58 then (if ifc = 0 then .mgmt else if ifc = 1 then .nv else .none)
  else if stop = 59 then (if ifc = 0 then .scrub else if ifc = 1 then .check else .none)
  else (if ifc = 0 then .partner (stop - 60) else .none)

/-- The attachment point and interface of a ring port, a home slice, a die cache, a lantern. -/
def portAt (p : Nat) : Nat × Nat := (7 * (p / 8) + p % 8 / 2, p % 2)
def sliceAt (n : Nat) : Nat × Nat := (7 * (n / 4) + n % 4, 2)
def dcacheAt (m : Nat) : Nat × Nat := (7 * m + 4, 0)
def lanternAt (k : Nat) : Nat × Nat := (7 * (k / 3) + 5 + k % 3 / 2, k % 3 % 2)

/-- The interface states of Table 06.8: 0 UNUSED, 1 ON, 2 GATED, 3 SNUFFING, 4 OFF, 5 ABSENT, 6 QUARANTINE. -/
def State.ifState (s : State) (stop ifc : Nat) : Nat := fieldOf (s.reg (Pg.stop stop) Reg.STOP_IF_STAT) (4 * ifc) 4
/-- An interface changes its state; one that is ON has its WICK answered. -/
def State.setIfState (s : State) (stop ifc n : Nat) : State :=
  let s : State := if n = 1 then { s with wicks := s.wicks.filter (· ≠ .iface (Fin.ofNat 64 stop) (Fin.ofNat 4 ifc)) } else s
  s.setReg (Pg.stop stop) Reg.STOP_IF_STAT (withField (s.reg (Pg.stop stop) Reg.STOP_IF_STAT) (4 * ifc) 4 n)

/-! ### Checks at injection (R148 to R150) -/

/-- The size in bytes of an access of a length code (Table 06.4). -/
def lenBytes (len : Nat) : Nat := if len = 0 ∨ len = 7 then 64 else 2 ^ (len - 1)

/-- Check 2 of R149: aligned to its size; the masked length code for writes only (R144). -/
def lenOk (typ : ReqType) (addr : Nat) (len : Nat) : Bool :=
  addr % lenBytes len == 0 && (len != 7 || typ == .wr || typ == .wrp)

/-- The destination of a physical address (Table 06.6): attachment point, interface, and whether VC MGMT carries it; none where the
address lies in no mapped range or its unit is absent (R27, R28, R61). -/
def State.destOf (s : State) (a : Nat) : Option (Nat × Nat × Bool) :=
  let d : Option (Nat × Nat × Bool) :=
    if a.testBit 47 then some (57, 0, false)
    else if a < 0x001800000000 ∨ (0x002000000000 ≤ a ∧ a < 0x006000000000) then
      match s.dramPlace (a / 64) with
      | some (c, _) =>
        if s.cb c Fld.CB_CB_STAT_STATE = 6 then none
        else some ((sliceAt (homeSlice (a / 64))).1, 2, false)
      | none => none
    else if 0x008000000000 ≤ a ∧ a < 0x010000000000 then
      (s.design.windows.find? fun w => a / 2 ^ w.log = w.base / 2 ^ w.log).map fun w => (w.stop, w.ifc, false)
    else if 0x010000000000 ≤ a ∧ a < 0x010002000000 then some (58, 0, true)
    else if 0x010010000000 ≤ a ∧ a < 0x010020000000 then some (58, 1, false)
    else if 0x010020000000 ≤ a ∧ a < 0x010023000000 then
      let off := a % 0x80000
      if off < 0x10000 ∨ 0x40000 ≤ off then
        let (st, i) := lanternAt ((a - 0x010020000000) / 0x80000 / 4)
        some (st, i, false)
      else none
    else if 0x010023000000 ≤ a ∧ a < 0x010024800000 then
      let (st, i) := lanternAt ((a - 0x010023000000) / 0x100000)
      some (st, i, false)
    else none
  match d with
  | some (st, i, m) => if s.ifState st i = 5 then none else some (st, i, m)
  | none => none

/-- An address in the HBM or DDR5 range (R173). -/
def cacheable (a : Nat) : Bool := decide (a < 0x001800000000) || (decide (0x002000000000 ≤ a) && decide (a < 0x006000000000))

/-- An access window admits a tenant's access to an address (R150). -/
def State.admits (s : State) (stop : Nat) (tid : Nat) (a : Nat) (write : Bool) : Bool :=
  (List.range 16).any fun w =>
    let pg := Pg.stop stop
    s.bit pg (Fld.STOP_WIN_TEN_EN w) && decide (s.fld pg (Fld.STOP_WIN_BASE_BASE w) ≤ a / 65536)
      && decide (a / 65536 ≤ s.fld pg (Fld.STOP_WIN_LIMIT_LIMIT w))
      && (tid &&& s.fld pg (Fld.STOP_WIN_TEN_MASK w) == s.fld pg (Fld.STOP_WIN_TEN_TID w) &&& s.fld pg (Fld.STOP_WIN_TEN_MASK w))
      && s.bit pg (if write then Fld.STOP_WIN_TEN_W w else Fld.STOP_WIN_TEN_R w)

/-- The checks of R149 in their order: the destination, or none where one fails. A CMO is checked as a write of one line (R192). -/
def State.checkReq (s : State) (stop : Nat) (typ : ReqType) (tid : BitVec 9) (r : EpReq) : Option (Nat × Nat × Bool) :=
  let a := fieldOf r.addr 0 48
  let len := match typ with | .clean | .flush => 0 | _ => r.len.toNat
  if fieldOf r.addr 58 6 ≠ 0 ∨ !lenOk typ a len then none
  else match s.destOf a with
    | none => none
    | some (st, i, m) => if m || s.admits stop tid.toNat a (typ != .rd) then some (st, i, m) else none

/-! ### Transactions -/

/-- The number of a class. -/
def TxnClass.no : TxnClass → Nat
  | .req => 0 | .post => 1 | .mgmt => 2
/-- The tags of a class (R147). -/
def TxnClass.pool : TxnClass → Nat
  | .mgmt => 16 | _ => 256
/-- The key of a transaction. -/
def TxnKey.no (t : TxnKey) : Nat := (t.src.val * 3 + t.cls.no) * 256 + t.tag.val

def State.txn (s : State) (t : TxnKey) : Option Txn := mget s.rings.txns t.no
def State.setTxn (s : State) (t : TxnKey) (x : Txn) : State := { s with rings.txns := mput s.rings.txns t.no x }
def State.delTxn (s : State) (t : TxnKey) : State :=
  { s with rings.txns := mdel s.rings.txns t.no, rings.flits := s.rings.flits.filter fun f => f.ref != .req t.no && f.ref != .ans t.no }

/-- The transactions of a source and class whose source still waits. -/
def State.liveCount (s : State) (src : Nat) (c : TxnClass) : Nat :=
  ((List.range c.pool).filter fun g => (mget s.rings.txns ((src * 3 + c.no) * 256 + g)).any Txn.live).length

/-- POOLS shows the free tags and posted slots. -/
def State.syncPools (s : State) (src : Nat) : State :=
  let pg := Pg.stop src
  ((s.setFld pg Fld.STOP_POOLS_REQ_FREE (256 - s.liveCount src .req)).setFld pg Fld.STOP_POOLS_POST_FREE
    (256 - s.liveCount src .post)).setFld pg Fld.STOP_POOLS_MGMT_FREE (16 - s.liveCount src .mgmt)

/-- A free tag of a pool, the lowest: a tag whose transaction ended at its source and whose answer is still on its way is used last. -/
def State.freeTag (s : State) (src : Nat) (c : TxnClass) : Option Nat :=
  let at_ (g : Nat) := mget s.rings.txns ((src * 3 + c.no) * 256 + g)
  match (List.range c.pool).find? fun g => (at_ g).isNone with
  | some g => some g
  | none => (List.range c.pool).find? fun g => (at_ g).all fun x => !x.live

/-- The bytes an access names: of its length code at its offset, or those enabled in a masked write (R144, R145). -/
def accBytes (len : BitVec 3) (ofs : Nat) (be : BitVec 64) : Nat :=
  if len = 7 then be.toNat else if len = 0 then 2 ^ 64 - 1 else (2 ^ lenBytes len.toNat - 1) * 2 ^ ofs

/-- The bytes an access names within its line. -/
def Txn.bytes (x : Txn) : Nat := accBytes x.len (x.addr.toNat % 64) x.be

/-- The data of an access at its place in the line, the other payload bytes zero (R144); a masked line write carries its line whole. -/
def placed (len : BitVec 3) (ofs : Nat) (data : Line) : Line := if len = 7 then data else mergeLanes 8 64 (accBytes len ofs 0) 0 data

/-- The VC that carries the request of a class, and the one of its answer (R143, R153). -/
def TxnClass.vc : TxnClass → Vc
  | .req => .req | .post => .post | .mgmt => .mgmt
def TxnClass.vcBack : TxnClass → Vc
  | .mgmt => .mgmt | _ => .rsp

/-- The flits of a request (Table 06.3): a masked line write takes two, the second with the byte enables (R145); a posted write on MGMT is a WR (R153). -/
def Txn.requestWords (x : Txn) (t : TxnKey) : List (BitVec 640) :=
  let h : FlitHead := ⟨match x.typ with | .rd => 0 | .wrp => (if t.cls = .mgmt then 1 else 2) | .clean | .flush => 0xE | _ => 1, x.tid, x.kid, t.tag.val,
    match x.typ with | .clean => 0 | .flush => 1 | _ => x.len.toNat, x.addr.toNat⟩
  let w (p : Line) := flitWord h t.cls.vc x.dst t.src.val p
  if x.len = 7 ∧ x.typ ≠ .clean ∧ x.typ ≠ .flush then [w x.data, w (x.be.setWidth 512)] else [w (match x.typ with | .wr | .wrp => x.data | _ => 0)]

/-- The flit of an answer: RDATA, WACK or PACK, with its status (Tables 06.3, 06.5). -/
def Txn.answerWord (x : Txn) (t : TxnKey) (st : Status) (data : Line) : BitVec 640 :=
  let typ := if t.cls = .post then 6 else if x.typ = .rd then 4 else 5
  flitWord ⟨typ, x.tid, x.kid, t.tag.val, x.len.toNat, st.no⟩ t.cls.vcBack t.src.val x.dst
    (if typ = 6 then (x.kid ++ x.addr).setWidth 512 else if typ = 4 then data else 0)

/-- The class of a request (R147, R153): MGMT carries everything to the management window, and test traffic: what an interface in QUARANTINE issues, and what the
management controller sends to one (R450; the latter DEDUCED, log 136). -/
def State.classOf (s : State) (stop ifc : Nat) (typ : ReqType) (d : Nat × Nat × Bool) : TxnClass :=
  if d.2.2 || s.ifState stop ifc == 6 || (decide (epKind stop ifc = .mgmt) && s.ifState d.1 d.2.1 == 6) then .mgmt
  else if typ = .wrp then .post else .req

/-! ### Injection queues (Table 06.7) -/

/-- The injection queue of an interface for the VC of a class. -/
def State.epQ (s : State) (key : Nat) : TxnClass → List EpEntry
  | .req => mgetD [] s.rings.epReq key
  | .post => mgetD [] s.rings.epPost key
  | .mgmt => mgetD [] s.rings.epMgmt key
def State.setEpQ (s : State) (key : Nat) (c : TxnClass) (l : List EpEntry) : State :=
  match c with
  | .req => { s with rings.epReq := mputD [] s.rings.epReq key l }
  | .post => { s with rings.epPost := mputD [] s.rings.epPost key l }
  | .mgmt => { s with rings.epMgmt := mputD [] s.rings.epMgmt key l }

/-- The queue a request waits in, by the VC that will carry it. -/
def State.queueOf (s : State) (stop ifc : Nat) (typ : ReqType) (addr : Nat) : TxnClass :=
  s.classOf stop ifc typ ((s.destOf (addr % 2 ^ 48)).getD (0, 3, false))

/-- An end point hands a request over. -/
def State.handIn (s : State) (stop ifc : Nat) (e : EpEntry) : State :=
  let c := s.queueOf stop ifc e.typ e.r.addr.toNat
  s.setEpQ (ifKey stop ifc) c (s.epQ (ifKey stop ifc) c ++ [e])

/-- The entries of the injection queue of a class (Table 06.7). -/
def TxnClass.room : TxnClass → Nat
  | .mgmt => 2 | _ => 4

/-! ### Fences (R160) -/

/-- A fence of an interface begins, and BUSY shows it: the requests handed over before it stand before it. One in progress already goes on, with its port's tag. -/
def State.fenceStart (s : State) (stop ifc : Nat) (tag : Option Byte) : State :=
  let key := ifKey stop ifc
  if (mget s.rings.fences key).isSome then s
  else
    { s with rings.fences := mput s.rings.fences key tag,
             rings.fenced := mput s.rings.fenced key ((s.epQ key .req).length, (s.epQ key .post).length, (s.epQ key .mgmt).length) }.setFld (Pg.stop stop) Fld.STOP_FENCE_BUSY
      (s.fld (Pg.stop stop) Fld.STOP_FENCE_BUSY ||| 2 ^ ifc)

/-- The requests that a queue of an interface holds before its fence. -/
def State.beforeFence (s : State) (key : Nat) (c : TxnClass) : Nat :=
  let f := mgetD (0, 0, 0) s.rings.fenced key
  min (match c with | .req => f.1 | .post => f.2.1 | .mgmt => f.2.2) (s.epQ key c).length

/-- A request leaves its interface's queue. -/
def State.popHead (s : State) (key : Nat) (c : TxnClass) : State :=
  let f := mgetD (0, 0, 0) s.rings.fenced key
  let f := match c with | .req => (f.1 - 1, f.2) | .post => (f.1, f.2.1 - 1, f.2.2) | .mgmt => (f.1, f.2.1, f.2.2 - 1)
  { s.setEpQ key c ((s.epQ key c).drop 1) with rings.fenced := if (mget s.rings.fences key).isSome then mput s.rings.fenced key f else s.rings.fenced }

/-! ### Injection -/

/-- Where the request at the head of a queue goes: checked under R149, but for a CMO that a die cache forwards, whose port's request has been (R150, R192). -/
def State.headDest (s : State) (stop ifc : Nat) (e : EpEntry) : Option (Nat × Nat × Bool) :=
  match epKind stop ifc, e.typ with
  | .dcache _, .clean | .dcache _, .flush => s.destOf (fieldOf e.r.addr 0 48)
  | _, _ => s.checkReq stop e.typ e.tid e.r

/-- Injects a checked request (R147, R148): the flit's fields are written, a tag is drawn; none where no tag is free, the ring has no room (R155), pacing
holds it back (R452), or an earlier flit of the interface and VC waits. A flit for a failed segment that its source does not know of is discarded there (Table 18.2, step 4). -/
def State.inject (s : State) (stop : Fin 64) (ifc : Nat) (e : EpEntry) (d : Nat × Nat × Bool) : Option State :=
  let c := s.classOf stop ifc e.typ d
  match s.freeTag stop c with
  | none => none
  | some g =>
    let a := fieldOf e.r.addr 0 48
    let ring := s.route stop d.1
    let t : TxnKey := ⟨stop, c, Fin.ofNat 256 g⟩
    let x : Txn := {
      ifc := ifc, epTag := e.r.tag, who := e.r.who.toNat, typ := e.typ, addr := BitVec.ofNat 48 a,
      kid := if cacheable a then BitVec.ofNat 10 (fieldOf e.r.addr 48 10) else 0, tid := e.tid,
      len := e.r.len, data := placed e.r.len (a % 64) e.r.data, be := e.r.be, poison := e.poison, dst := d.1, dstIf := d.2.1, ring := ring, ringBack := s.route d.1 stop,
      phase := if s.pathOpen stop d.1 ring then .flying else .lost, seq := s.rings.seq, aseq := 0, live := true }
    let words := x.requestWords t
    if s.injWaits stop ifc c.vc || !s.mayPace stop ifc c.vc true || !s.mayEnter stop ring c.vc words.length then none
    else
      let s := s.setTxn t x
      let s := if x.phase = .flying then s.launch ⟨.req t.no, ring, c.vc, stop, ifc, d.1, d.2.1, words, none, false⟩ else s
      some (({ s with rings.seq := s.rings.seq + 1, rings.lastIf := mput s.rings.lastIf (stop.val * 3 + c.no) ifc, rings.starved := s.rings.starved.filter (· ≠ (stop.val, ring)) }).syncPools stop)

/-- The request at the head of an interface's queue of a class passes its checks: it waits for a tag. -/
def State.headWaits (s : State) (stop ifc : Nat) (c : TxnClass) : Bool :=
  (s.epQ (ifKey stop ifc) c).head?.any fun e => (s.headDest stop ifc e).isSome

/-- While a pool has fewer free tags than interfaces wait for one, they go in round-robin order after the interface that took the previous one
(R147). -/
def State.turnOk (s : State) (stop ifc : Nat) (c : TxnClass) : Bool :=
  let waits (j : Nat) : Bool := j != ifc && s.headWaits stop j c
  let others := ([0, 1, 2, 3].filter waits).length
  if others < c.pool - s.liveCount stop c then true
  else
    let last := mgetD 3 s.rings.lastIf (stop * 3 + c.no)
    ((List.range 4).map fun i => (last + 1 + i) % 4).find? (fun j => j == ifc || waits j) == some ifc

/-- The attachment point or the end point answers a request that has arrived (R146, R161); an answer DOMAIN_OFF counts in TRB2 of the
attachment point that gives it (Table 06.14). -/
def State.answer (s : State) (t : TxnKey) (st : Status) (data : Line) : State :=
  match s.txn t with
  | none => s
  | some x =>
    if (match x.phase with | .answered _ _ => true | _ => false) then s
    else
    let s := if st = .domainOff then s.trb (Pg.stop x.dst) 2 else s
    let data := if x.typ = .rd then placed x.len (x.addr.toNat % 64) data else 0
    let ring := s.route x.dst t.src
    if !s.pathOpen x.dst t.src ring then s.setTxn t { x with phase := .lost }
    else
      let s := { (s.landed (.req t.no)).setTxn t { x with phase := .answered st data, aseq := s.rings.seq, ringBack := ring } with rings.seq := s.rings.seq + 1 }
      s.launch ⟨.ans t.no, ring, t.cls.vcBack, x.dst, x.dstIf, t.src, x.ifc, [x.answerWord t st data], none, false⟩

/-- A posted write's failure reaches its interface's error queue; counted in TRB3 (R149, R158, R161). -/
def State.errEntry (s : State) (stop ifc : Nat) (addr : PhysAddr) (kid : BitVec 10) (st : Status) : State :=
  let q := mgetD [] s.rings.errq (ifKey stop ifc)
  { s with rings.errq := mput s.rings.errq (ifKey stop ifc) (q ++ [(addr, kid, st)]) }.trb (Pg.stop stop) 3

/-- A refusal at injection (R149): counted in TRB0, PG_EVT.REFUSED. -/
def State.refuseReq (s : State) (stop : Nat) : State := (s.trb (Pg.stop stop) 0).raise (Pg.stop stop) Evt.STOP_REFUSED

/-- A flit that arrives shows its segments sound: the CRC failures in a row on them are forgotten. -/
def State.ringSound (s : State) (a b r : Nat) : State :=
  { s with rings.crcFails := s.rings.crcFails.filter fun e =>
      !(e.1 % 16 == r && crosses a b r (if r % 2 = 0 then (e.1 / 16 + 63) % 64 else (e.1 / 16 + 1) % 64)) }

/-- An attachment point takes new requests of an interface: no fence is in progress (R160), the interface is in service. -/
def State.mayIssue (s : State) (stop ifc : Nat) : Bool :=
  (mget s.rings.fences (ifKey stop ifc)).isNone && (let st := s.ifState stop ifc; st == 1 || st == 2 || st == 6)

/-- The requests an interface has handed over are injected: also while it is snuffed (R166), not while the rings stand still (R370) or boundary
scan has the pins (R164). -/
def State.mayInject (s : State) (stop ifc : Nat) : Bool :=
  let st := s.ifState stop ifc
  (st == 1 || st == 2 || st == 3 || st == 6) && !s.clk.failed && !s.pinTest

/-- The open transactions of an interface. -/
def State.ifOpen (s : State) (stop ifc : Nat) : Bool :=
  s.rings.txns.any fun e => e.1 / 768 == stop && e.2.ifc == ifc && e.2.live

/-- The requests delivered to an interface and not answered. -/
def State.ifUnanswered (s : State) (stop ifc : Nat) : Bool :=
  s.rings.txns.any fun e => e.2.dst == stop && e.2.dstIf == ifc && decide (e.2.phase = .delivered)

/-- The flits in the ejection queue of an attachment point's VC: the requests that an interface has been given and has not taken (Table 06.7). -/
def State.ejected (s : State) (stop : Nat) (c : TxnClass) : Nat :=
  (s.rings.txns.filter fun e => e.2.dst == stop && e.1 / 256 % 3 == c.no && decide (e.2.phase = .delivered)
    && (match epKind stop e.2.dstIf with | .lantern _ | .nv => true | _ => false)).length
    + (if c = .post then (s.rings.posted.filter fun e => e.2.dst == stop).length else 0)

/-- The key of a transaction from its number. -/
def txnKeyOf (n : Nat) : TxnKey :=
  ⟨Fin.ofNat 64 (n / 768), match n / 256 % 3 with | 0 => .req | 1 => .post | _ => .mgmt, Fin.ofNat 256 (n % 256)⟩

/-! ### Injection order (R156) -/

/-- INJECTION_STARVATION: a flit has waited 7 cycles for a ring: the attachment point holds the next transit flit and injects in that slot
(R156). -/
def execInjectionStarvation (stop : Fin 64) (ring : Fin 16) (s : State) : Out :=
  if s.rings.starved.contains (stop.val, ring.val) then .next s
  else .next { s with rings.starved := (stop.val, ring.val) :: s.rings.starved }

end Sys2Proof.Machine
end

