-- ==== Sys2Proof/Machine/Keys.lean ====
section
/-!
DEFINITION. The key store: slots, the slot check, security alarms, loading and the edge of slot states (chapter 09).
-/
namespace Sys2Proof.Machine

/-- A slot's page and index (R239). -/
def slotPg (k : Nat) : Nat := Pg.keySlt (k / 256)
/-- A slot's state (Table 09.2: 0 EMPTY, 1 LOADED, 2 ACTIVE, 3 ROTATING) and class (1 MEM, 2 LINK, 3 CLEAR). -/
def State.slotState (s : State) (k : Nat) : Nat := s.fld (slotPg k) (Fld.SLT_CFG_STATE (k % 256))
def State.setSlotState (s : State) (k n : Nat) : State := s.setFld (slotPg k) (Fld.SLT_CFG_STATE (k % 256)) n
def State.slotClass (s : State) (k : Nat) : Nat := s.fld (slotPg k) (Fld.SLT_CFG_CLASS (k % 256))

/-- A tenant belongs to a slot's owner set (R223). -/
def State.slotOwns (s : State) (k tid : Nat) : Bool :=
  let mask := s.fld (slotPg k) (Fld.SLT_OWN_OWN_MASK (k % 256))
  tid &&& mask == s.fld (slotPg k) (Fld.SLT_OWN_OWN_TID (k % 256)) &&& mask

/-- The slot check (R227, Table 09.3): the reason of the first test that fails. -/
def State.slotCheck (s : State) (mem : Bool) (k : Nat) (tid : Nat) : Option Nat :=
  let st := s.slotState k
  let cls := s.slotClass k
  if st = 0 then some 1 else if st = 1 then some 2 else if st = 3 then some 3
  else if !(cls == 3 || cls == (if mem then 1 else 2)) then some 4
  else if !s.slotOwns k tid then some 5
  else none

/-- A security alarm (R228): PG_EVT.VIOL, the counter of its path (path 3, a failed unwrap, counts as the failed load), the record of
the first refusal, the alarm. -/
def State.violation (s : State) (path slot tid src reason : Nat) : State :=
  let pg := Pg.ime
  let s := s.raise pg Evt.IME_VIOL
  let s := if path < 3 then s.trb pg path else s
  let s := if s.bit pg Fld.IME_VIOL_REC_VALID then s
    else
      let s := s.setFld pg Fld.IME_VIOL_REC_REASON reason
      let s := s.setFld pg Fld.IME_VIOL_REC_SLOT slot
      let s := s.setFld pg Fld.IME_VIOL_REC_TENANT tid
      let s := s.setFld pg Fld.IME_VIOL_REC_SRC src
      let s := s.setFld pg Fld.IME_VIOL_REC_PATH path
      s.setFld pg Fld.IME_VIOL_REC_VALID 1
  s.alarm 11 pg (BitVec.ofNat 32 (path * 2 ^ 30 + slot))

/-- The key pair a slot holds: K1 below K2. -/
def State.slotPair (s : State) (k : Nat) : BitVec 512 := (mget s.keys.pair k).getD 0
def State.slotKeys (s : State) (k : Nat) : BitVec 256 × BitVec 256 :=
  let p := s.slotPair k
  (p.setWidth 256, (p >>> 256).setWidth 256)

/-- A data unit under slot k with a key pair: unaltered through slot 0, else XTS (R218, R224). -/
def unitEnc (k : Nat) (pair : BitVec 512) (dusn : Nat) (d : Line) : Line :=
  if k = 0 then d else xtsEnc (pair.setWidth 256) ((pair >>> 256).setWidth 256) dusn d
def unitDec (k : Nat) (pair : BitVec 512) (dusn : Nat) (d : Line) : Line :=
  if k = 0 then d else xtsDec (pair.setWidth 256) ((pair >>> 256).setWidth 256) dusn d

/-- A line as it leaves for DRAM or arrives from it: unaltered through slot 0, else XTS under the slot's keys with the line address as
tweak (R218, R219, R224). -/
def State.lineEnc (s : State) (k line : Nat) (d : Line) : Line :=
  unitEnc k (s.slotPair k) line d
def State.lineDec (s : State) (k line : Nat) (d : Line) : Line :=
  unitDec k (s.slotPair k) line d

/-- Zeroises a slot's keys: it becomes EMPTY; slot 0 keeps its class (R233, R235, R237). -/
def State.zeroSlot (s : State) (k : Nat) : State :=
  let s := { s.setSlotState k 0 with keys.pair := mdel s.keys.pair k }
  if k = 0 then s else s.setFld (slotPg k) (Fld.SLT_CFG_CLASS (k % 256)) 0

/-! ### Loading (R230, R231) -/

/-- START of a load. -/
def effKeyLoad (s : State) : State := s.setFld Pg.key Fld.KEY_LOAD_STAT_BUSY 1

/-- The 80 bytes of the WRAP registers. -/
def State.wrapBytes (s : State) : List Nat := (List.range 20).flatMap fun w => natBytes 4 (s.fld Pg.key (Fld.KEY_WRAP_BYTES w))

/-- The outcome of a load: RESULT and, for a success, the class and the key pair (R231, Table 09.4). -/
def State.loadResult (s : State) (slot : Nat) : Nat × Option (Nat × BitVec 512) :=
  match s.keys.kek with
  | none => (2, none)
  | some kek =>
    if s.slotState slot ≠ 0 ∨ slot = 0 then (3, none)
    else match kwUnwrap 9 kek s.wrapBytes with
      | none => (4, none)
      | some p =>
        let hdr := bytesNat (p.take 8)
        let cls := hdr / 2 ^ 40 % 4
        let k1 := bytesNat ((p.drop 8).take 32)
        let k2 := bytesNat (p.drop 40)
        if hdr ≠ 1 * 2 ^ 48 + cls * 2 ^ 40 + slot ∨ (cls ≠ 1 ∧ cls ≠ 2) then (5, none)
        else if k1 = k2 then (6, none)
        else (1, some (cls, BitVec.ofNat 512 (k2 * 2 ^ 256 + k1)))

/-- KEY_LOAD_COMPLETE: RESULT is given and the WRAP registers read 0 again; a success takes the slot to LOADED; a failure counts in
IME.TRB4, and a failed unwrap raises a security alarm (R228, R230, R231). -/
def execKeyLoadComplete (s : State) : Out :=
  if !s.bit Pg.key Fld.KEY_LOAD_STAT_BUSY then .next s
  else
    let slot := s.fld Pg.key Fld.KEY_LOAD_CTRL_SLOT
    let (res, won) := s.loadResult slot
    let s := (s.setFld Pg.key Fld.KEY_LOAD_STAT_BUSY 0).setFld Pg.key Fld.KEY_LOAD_STAT_RESULT res
    let s := (List.range 20).foldl (fun s w => s.setFld Pg.key (Fld.KEY_WRAP_BYTES w) 0) s
    match won with
    | some (cls, pair) =>
      let s := { s with keys.pair := mput s.keys.pair slot pair }
      .next ((s.setFld (slotPg slot) (Fld.SLT_CFG_CLASS (slot % 256)) cls).setSlotState slot 1)
    | none =>
      let s := s.trb Pg.ime 4
      .next (if res = 4 then s.violation 3 slot 0 58 0 else s)

/-! ### Activation and disabling (R229, R232, R233) -/

/-- ACTIVATE is accepted for a LOADED slot and for slot 0 when EMPTY. -/
def State.mayActivate (s : State) (k : Nat) : Bool := s.slotState k == 1 || (k == 0 && s.slotState k == 0)
/-- DISABLE is accepted for an ACTIVE or LOADED slot while no purge runs. -/
def State.mayDisable (s : State) (k : Nat) : Bool :=
  (s.slotState k == 1 || s.slotState k == 2) && !s.bit Pg.ime Fld.IME_PURGE_STAT_BUSY

/-- CMD = ACTIVATE: the change takes effect at the next edge (R229). -/
def effActivate (k : Nat) (s : State) : State := { s with keys.edge := s.keys.edge ++ [(k, false)] }

/-- CMD = DISABLE: the purge begins; ROTATING at the next edge (R229, R233). -/
def effDisable (k : Nat) (s : State) : State :=
  let pg := Pg.ime
  let s := ((s.setFld pg Fld.IME_PURGE_STAT_BUSY 1).setFld pg Fld.IME_PURGE_STAT_PHASE 1).setFld pg Fld.IME_PURGE_STAT_SLOT k
  { s with keys.edge := s.keys.edge ++ [(k, true)], keys.purge := some ⟨k, s.slotClass k != 2, if s.keys.edge.contains (k, false) then 2 else s.slotState k, []⟩ }

/-- SLOT_STATE_EDGE: the changes accepted take effect everywhere at one edge (R229). -/
def execSlotStateEdge (s : State) : Out :=
  let s' := s.keys.edge.foldl (fun s e =>
    if e.2 then (if s.slotState e.1 == 1 || s.slotState e.1 == 2 then s.setSlotState e.1 3 else s)
    else if s.mayActivate e.1 then s.setSlotState e.1 2 else s) s
  .next { s' with keys.edge := [] }

/-- A purge ends (Table 09.5, step 5). -/
def State.purgeDone (s : State) (k : Nat) : State :=
  let pg := Pg.ime
  let s := { s.zeroSlot k with keys.purge := none }
  ((s.setFld pg Fld.IME_PURGE_STAT_BUSY 0).setFld pg Fld.IME_PURGE_STAT_PHASE 0).raise pg Evt.IME_PURGED

end Sys2Proof.Machine
end

