-- ==== Sys2Proof/Machine/Dram.lean ====
section
/-!
DEFINITION. The DRAM controllers (chapter 08): codes and poison, queues, rows and neighbour refresh, refresh, power-down, training.
-/
namespace Sys2Proof.Machine

/-! ### Codes (R212 to R214) -/

/-- Codewords of a line: 16 of 4 bytes (HBM), 8 of 8 (DDR5). -/
def rsWords (hbm : Bool) : Nat := if hbm then 16 else 8

/-- The stored difference of codeword i, with the poison pattern where it lies on the line. -/
def DramLine.diffAt (hbm : Bool) (l : DramLine) (i : Nat) : BitVec 16 :=
  BitVec.ofNat 16 (fieldOf l.diff (16 * i) 16) ^^^ (if l.marked then Config.poisonPattern hbm i else 0)

/-- Corrects every codeword, with its difference given: the data, whether a symbol was corrected, and the symbol (15 where the
codewords differ); none where a codeword has more than one symbol in error. -/
def rsDecode (hbm : Bool) (data : Line) (diff : Nat → BitVec 16) : Option (Line × Option Nat) :=
  (List.range (rsWords hbm)).foldl (fun acc i =>
    match acc with
    | none => none
    | some (d, sym) =>
      if diff i = 0 then some (d, sym)
      else match rsCorrect hbm (diff i).toNat with
        | none => none
        | some (k, e) =>
          let n := rsBytes hbm
          let d := if k < n then
              let lo := 8 * (n * i + k)
              withField d lo 8 (fieldOf d lo 8 ^^^ e)
            else d
          some (d, some (match sym with | none => k % 16 | some k' => if k' = k % 16 then k' else 15))) (some (data, none))

/-- What a controller's decode of a line finds (R214). -/
inductive DramResult where
  | good (data : Line)
  | corrected (data : Line) (symbol : Nat)
  | poisoned
  | uncorrectable
deriving DecidableEq, Repr

/-- The decode of a stored line as a whole (R214). A marked line never decodes under the first rule while a codeword of it has no further error, since a marked codeword lies
at a distance of 2 or more from every codeword, nor when every codeword has the same one. -/
def DramLine.decode (hbm : Bool) (l : DramLine) : DramResult :=
  let err (i : Nat) : Nat := fieldOf l.diff (16 * i) 16
  let fixed := (List.range (rsWords hbm)).any fun i => err i == 0
  let same := (List.range (rsWords hbm)).all fun i => err i == err 0
  let first := if l.marked && (fixed || same) then none else rsDecode hbm l.data (l.diffAt hbm)
  match first with
  | some (d, none) => .good d
  | some (d, some k) => .corrected d k
  | none =>
    let unmarked := ({ l with marked := !l.marked } : DramLine).diffAt hbm
    if (rsDecode hbm l.data unmarked).isSome then .poisoned else .uncorrectable

/-- Counts an error of a controller and records it (R214); nothing in raw mode (R257). -/
def State.dramError (s : State) (c line trb symbol : Nat) : State :=
  if s.isRaw (if c < 128 then 0xB else 0xC) (if c < 128 then c else c - 128) 0 then s
  else
    let s := s.trb (cbPage c) trb
    if s.cb c Fld.CB_ERR_HI_VALID = 1 then s
    else
      let s := s.setCb c Fld.CB_ERR_LO_ADDR_LO (line % 2 ^ 26)
      let s := s.setCb c Fld.CB_ERR_HI_ADDR_HI (line / 2 ^ 26)
      let s := s.setCb c Fld.CB_ERR_HI_UE (if trb = 0 then 0 else 1)
      let s := s.setCb c Fld.CB_ERR_HI_POIS (if trb = 2 then 1 else 0)
      let s := s.setCb c Fld.CB_ERR_HI_SYMBOL symbol
      s.setCb c Fld.CB_ERR_HI_VALID 1

/-! ### Rows (R204 to R206) -/

/-- The configuration in force of a subchannel's channel. -/
def State.cfgOf (s : State) (c : Nat) : Word := s.chCfg ((c - 128) / 2)

/-- The ranks of a controller. -/
def State.rankCount (s : State) (c : Nat) : Nat := if 128 ≤ c ∧ fieldOf (s.cfgOf c) 4 2 = 2 then 2 else 1

/-- The bank (with stack ID or rank) and row of a local index (R200, R201). -/
def State.bankRow (s : State) (c j : Nat) : Nat × Nat :=
  if c < 128 then ((j / 16) % 16 + 16 * (j / 2 ^ 22), (j / 256) % 16384)
  else if s.rankCount c = 2 then ((j / 128) % 32 + 32 * ((j / 4096) % 2), j / 8192)
  else ((j / 128) % 32, j / 4096)

/-- The rank of a local index, and that of a bank. -/
def State.rankOf (s : State) (c j : Nat) : Nat := if s.rankCount c = 2 then (j / 4096) % 2 else 0
def State.bankRank (s : State) (c b : Nat) : Nat := if s.rankCount c = 2 then b / 32 else 0

/-- The rows of a controller's banks. -/
def State.bankRows (s : State) (c : Nat) : Nat := if c < 128 then 16384 else ddrRows (s.cfgOf c)

def bankKey (c b : Nat) : Nat := 128 * c + b

/-- A register of a remap table (Table 08.11). -/
def State.remapReg (s : State) (c x : Nat) : Word :=
  if c < 128 then s.reg (Pg.hbmStk (c / 32)) (0x100 + x) else s.reg (Pg.ddrRmt ((c - 128) / 2)) (0x080 + x)

/-- The physical row of a logical row (R206). -/
def State.physRow (s : State) (c row : Nat) : Nat :=
  let exc := (List.range 16).find? fun e =>
    let r := s.remapReg c (0x10 + 8 * e)
    r.getLsbD 31 && fieldOf r 0 17 == row
  match exc with
  | some e => fieldOf (s.remapReg c (0x14 + 8 * e)) 0 17
  | none =>
    let perm (j : Nat) : Nat := fieldOf (s.remapReg c (4 + 4 * (j / 6))) (5 * (j % 6)) 5
    ((List.range 17).foldl (fun acc j => acc + (row.testBit (perm j)).toNat * 2 ^ j) 0) ^^^ fieldOf (s.remapReg c 0) 0 17

/-- The logical row that lies at a physical row (R206): the exceptions the other way round, else the permutation undone. -/
def State.logRow (s : State) (c row : Nat) : Nat :=
  let exc := (List.range 16).find? fun e => (s.remapReg c (0x10 + 8 * e)).getLsbD 31 && fieldOf (s.remapReg c (0x14 + 8 * e)) 0 17 == row
  match exc with
  | some e => fieldOf (s.remapReg c (0x10 + 8 * e)) 0 17
  | none =>
    let perm (j : Nat) : Nat := fieldOf (s.remapReg c (4 + 4 * (j / 6))) (5 * (j % 6)) 5
    let r := row ^^^ fieldOf (s.remapReg c 0) 0 17
    (List.range 17).foldl (fun acc j => acc + (r.testBit j).toNat * 2 ^ perm j) 0

/-- The neighbours of a physical row that lie in the bank (R205). -/
def neighbours (rows dist row : Nat) : List Nat :=
  ((List.range (dist + 1)).flatMap fun k => (if k + 1 ≤ row then [row - (k + 1)] else []) ++ [row + (k + 1)]).filter (· < rows)

/-- An ACT of a (logical) row: counted where the device requires refresh management (R207); while NREF.EN is 1 it draws the random event of probability 2^-K, upon which the row
becomes the bank's aggressor (R205). -/
def State.act (s : State) (c b row : Nat) : State :=
  let key := bankKey c b
  let s : State := { s with dram.acts := if (Config.rfmThreshold c).isSome then mput s.dram.acts key (mgetD 0 s.dram.acts key + 1) else s.dram.acts }
  if s.cb c Fld.CB_NREF_EN = 1 then
    let hit := s.freeLine.toNat % 2 ^ s.cb c Fld.CB_NREF_K == 0
    { s.useFree with dram.aggr := if hit then mput s.dram.aggr key row else s.dram.aggr }
  else s

/-- The neighbour refreshes of a bank that is precharged: each is an ACT of the neighbour, counted in TRB4, and may make it the next aggressor, whose neighbours then follow; `fuel`
bounds such chains (log 138). -/
def State.nref (s : State) (c b : Nat) : (fuel : Nat) → State
  | 0 => s
  | n + 1 =>
    match mget s.dram.aggr (bankKey c b) with
    | none => s
    | some row =>
      let l := neighbours (s.bankRows c) (s.cb c Fld.CB_NREF_DIST) (s.physRow c row)
      let s : State := { s with dram.aggr := mdel s.dram.aggr (bankKey c b) }
      (l.foldl (fun s p => (s.trb (cbPage c) 4).act c b (s.logRow c p)) s).nref c b n

/-- A precharge: a marked aggressor's neighbours are refreshed first (R205); a refresh management command the device's threshold asks for follows (R207). -/
def State.precharge (s : State) (c b : Nat) : State :=
  let key := bankKey c b
  let s := s.nref c b 16
  { s with dram.openRow := mdel s.dram.openRow key, dram.aggr := mdel s.dram.aggr key,
           dram.acts := if (Config.rfmThreshold c).any (· ≤ mgetD 0 s.dram.acts key) then mdel s.dram.acts key else s.dram.acts }

/-- Closes the banks of a controller that satisfy `p`. -/
def State.prechargeIf (s : State) (c : Nat) (p : Nat → Bool) : State :=
  (s.dram.openRow.filter fun e => e.1 / 128 == c && p (e.1 % 128)).foldl (fun s e => s.precharge c (e.1 % 128)) s
def State.prechargeAll (s : State) (c : Nat) : State := s.prechargeIf c fun _ => true
def State.prechargeRank (s : State) (c r : Nat) : State := s.prechargeIf c fun b => s.bankRank c b == r

/-! ### Owed refreshes (R208) -/

/-- The refreshes that a rank owes. -/
def State.owes (s : State) (c r : Nat) : Nat := mgetD 0 s.dram.owed (2 * c + r)

/-- A rank owes n refreshes; PENDING shows the rank that owes most (one register stands for the ranks of a controller: DESIGN CHOICE, log 138). -/
def State.setOwed (s : State) (c r n : Nat) : State :=
  let s : State := { s with dram.owed := mputD 0 s.dram.owed (2 * c + r) n }
  s.setCb c Fld.CB_REF_PENDING (max (s.owes c 0) (s.owes c 1))

/-- A rank issues n of the refreshes it owes, its banks closed first; forced ones count in TRB3. -/
def State.refreshRank (s : State) (c r n : Nat) (forced : Bool) : State :=
  if n = 0 then s
  else
    let s := (s.prechargeRank c r).setOwed c r (s.owes c r - n)
    if forced then s.trbN (cbPage c) 3 n else s

/-- The state shown for a stack or a channel over its controllers: training while one trains; a channel is failed if either failed; ready
when one is ready; else what they share (Table 08.10). -/
def groupState (ddr : Bool) (l : List Nat) : Nat :=
  if l.any (· == 1) then 1
  else if ddr && l.any (· == 5) then 5
  else if l.any (· == 2) then 2
  else if l.all (· == 4) then 4
  else if l.any (fun x => x == 3 || x == 4) then 3
  else if l.any (· == 5) then 5
  else if l.any (· == 6) then 6
  else 0

/-- STK_STAT.STATE or CH_STAT.STATE follows the controllers. -/
def State.syncGroup (s : State) (c : Nat) : State :=
  if c < 128 then
    let k := c / 32
    s.setFld (Pg.hbmStk k) Fld.STK_STK_STAT_STATE
      (groupState false ((List.range 32).map fun i => s.cb (32 * k + i) Fld.CB_CB_STAT_STATE))
  else
    let k := (c - 128) / 2
    s.setFld (Pg.ddrCtl k) Fld.DDR_CH_STAT_STATE
      (groupState true ((List.range 2).map fun i => s.cb (128 + 2 * k + i) Fld.CB_CB_STAT_STATE))

/-- The state of a controller from those of its ranks: power-down and self-refresh show when all ranks are in them. -/
def State.syncRanks (s : State) (c : Nat) : State :=
  let st := (List.range (s.rankCount c)).map fun r => mgetD 0 s.dram.rankPd (2 * c + r)
  (s.setCb c Fld.CB_CB_STAT_STATE (if st.all (· == 2) then 4 else if st.all (· != 0) then 3 else 2)).syncGroup c

/-- A request brings its rank out of power-down or self-refresh; the rank owes nothing after self-refresh (R209). -/
def State.rankUp (s : State) (c r : Nat) : State :=
  match mget s.dram.rankPd (2 * c + r) with
  | none => s
  | some p =>
    let s := { s with dram.rankPd := mdel s.dram.rankPd (2 * c + r) }
    (if p = 2 then s.setOwed c r 0 else s).syncRanks c

/-- An access to the array: the rank is up, the row open; an ACT waits for the refreshes owed beyond POSTPONE_MAX; with
IDLE_NS = 0 the row closes at once (R204, R205, R208, R209). -/
def State.arrayAccess (s : State) (c j : Nat) : State :=
  let r := s.rankOf c j
  let s := s.rankUp c r
  let (b, row) := s.bankRow c j
  let key := bankKey c b
  let s := if mget s.dram.openRow key = some row then s
    else
      let s := s.refreshRank c r (s.owes c r - s.cb c Fld.CB_REF_POSTPONE_MAX) true
      let s := s.precharge c b
      { s with dram.openRow := mput s.dram.openRow key row }.act c b row
  if s.cb c Fld.CB_PAGE_POL_IDLE_NS = 0 then s.precharge c b else s

/-- ROW_IDLE_TIMEOUT: the bank's idle timer reaches IDLE_NS: the open row is closed (R204). -/
def execRowIdleTimeout (c : Fin 136) (bank : Fin 96) (s : State) : Out :=
  if (mget s.dram.openRow (bankKey c bank)).isSome then .next (s.precharge c bank) else .next s

/-! ### Queues and lines (R203, R214, R215, R528) -/

def dramKey (c j : Nat) : Nat := c * 2 ^ 32 + j

/-- Lines that wait to be read from a controller (R203). -/
def State.reads (s : State) (c : Nat) : List Nat := mgetD [] s.dram.rq c

/-- Writes of the queue reach the array: above 48 lines, or all when no read waits (R203). -/
def State.drainBy (s : State) (c : Nat) (readWaits : Bool) : (fuel : Nat) → State
  | 0 => s
  | n + 1 =>
    match mgetD [] s.dram.wq c with
    | [] => s
    | (j, l) :: rest =>
      if s.cbServes c && (!readWaits || decide (48 < rest.length + 1)) then
        let s := s.arrayAccess c j
        ({ s with dram.line := mput s.dram.line (dramKey c j) l, dram.wq := mputD [] s.dram.wq c rest }).drainBy c readWaits n
      else s
def State.drain (s : State) (c : Nat) : State := s.drainBy c (!(s.reads c).isEmpty) 64

/-- A write enters the queue; one to a line that is queued replaces it in place (R203). A write drops the line's noted correction
(R243). -/
def State.enqueue (s : State) (c j : Nat) (l : DramLine) : State :=
  let q := mgetD [] s.dram.wq c
  let q := if q.any fun e => e.1 == j then q.map fun e => if e.1 == j then (j, l) else e else q ++ [(j, l)]
  { s with dram.wq := mputD [] s.dram.wq c q, dram.corr := mdel s.dram.corr (dramKey c j) }

/-- The codewords of a line leaving its home: encrypted under its recorded key ID; under an EMPTY slot an all-zero poisoned line, counted
in IME.TRB3 (R215, R237); the poison pattern on a poisoned line (R214). -/
def State.encodeLine (s : State) (w : WbLine) : DramLine × State :=
  if s.slotState w.kid.toNat = 0 ∧ w.kid ≠ 0 then (⟨0, 0, true⟩, s.trb Pg.ime 3)
  else (⟨s.lineEnc w.kid.toNat w.line w.data, 0, w.poison⟩, s)

/-- The contents of a DDR5 line are undefined where CH_CFG declares more rows than the devices fitted have (R527). -/
def State.overDeclared (s : State) (c : Nat) : Bool := decide (128 ≤ c) && decide (Config.ddrFittedRows ((c - 128) / 2) < ddrRows (s.cfgOf c))

/-- A line as the array holds it. One that nothing has written holds what its cells held: free codewords, the same at every read from then on (R528); one of an
over-declared channel is free at every read. -/
def State.cells (s : State) (c j : Nat) : DramLine × State :=
  match if s.overDeclared c then none else mget s.dram.line (dramKey c j) with
  | some l => (l, s)
  | none =>
    let d := s.freeLine
    let s := s.useFree
    let e := s.freeLine.setWidth 256
    let s := s.useFree
    let l : DramLine := ⟨d, e, false⟩
    (l, { s with dram.line := mput s.dram.line (dramKey c j) l })

/-- A line read by its controller, as ciphertext, and whether it is POISON, which passes on as it is (R214, R215). -/
def State.fetchLine (s : State) (c j line : Nat) : Line × Bool × State :=
  let hbm := decide (c < 128)
  let (l, s) := match (mgetD [] s.dram.wq c).find? fun e => e.1 == j with
    | some e => (e.2, s)
    | none => (s.arrayAccess c j).cells c j
  match l.decode hbm with
  | .good d => (d, false, s)
  | .corrected d k =>
    let s := s.dramError c line 0 k
    let raw := s.isRaw (if hbm then 0xB else 0xC) (if hbm then c else c - 128) 0
    (d, false, if s.cb c Fld.CB_ECC_CTRL_CORR_WB = 1 ∧ !raw then
      { s with dram.corr := mput s.dram.corr (dramKey c j) ⟨d, 0, l.marked⟩ } else s)
  | .poisoned => (l.data, true, s.dramError c line 2 15)
  | .uncorrectable => (l.data, true, s.dramError c line 1 15)

/-- DRAM_CORRECTED_WRITE_BACK: a corrected line is written back while CORR_WB is 1, unless a write reached it first (R214); not in raw mode (R257). -/
def execDramCorrectedWriteBack (line : LineAddr) (s : State) : Out :=
  match s.dramPlace line.toNat with
  | none => .next s
  | some (c, j) =>
    match mget s.dram.corr (dramKey c j) with
    | none => .next s
    | some l =>
      let s := { s with dram.corr := mdel s.dram.corr (dramKey c j) }
      if s.cb c Fld.CB_ECC_CTRL_CORR_WB = 1 ∧ s.cbServes c ∧ !s.isRaw (if c < 128 then 0xB else 0xC) (if c < 128 then c else c - 128) 0 then
        .next { s.arrayAccess c j with dram.line := mput s.dram.line (dramKey c j) l }
      else .next s

/-! ### Refresh (R207, R208) -/

/-- A rank has a queued request. -/
def State.rankBusy (s : State) (c r : Nat) : Bool :=
  (mgetD [] s.dram.wq c).any (fun e => s.rankOf c e.1 == r)
    || (s.reads c).any fun l => match s.dramPlace l with | some (_, j) => s.rankOf c j == r | none => false

/-- The ranks of a controller. -/
def State.ranks (s : State) (c : Nat) : List Nat := List.range (s.rankCount c)

/-- The controller works its DRAM, in power-down or not. -/
def State.cbRuns (s : State) (c : Nat) : Bool := let st := s.cb c Fld.CB_CB_STAT_STATE; 2 ≤ st && st ≤ 4

/-- REFRESH_TICK: one tREFI passes: in the all-bank modes each rank that is not in self-refresh owes one refresh more, up to POSTPONE_MAX + 1 (R208, R209). -/
def execRefreshTick (c : Fin 136) (s : State) : Out :=
  if !s.cbRuns c ∨ s.cb c Fld.CB_REF_MODE = 2 then .next s
  else
    .next ((s.ranks c).foldl (fun s r =>
      if mget s.dram.rankPd (2 * c + r) = some 2 then s else s.setOwed c r (min (s.owes c r + 1) (s.cb c Fld.CB_REF_POSTPONE_MAX + 1))) s)

/-- A refresh of mode 0b10 takes the next bank of an HBM pseudo-channel, the next bank of every bank group of a DDR5 rank (Table 08.2; their order, and that the two low bits of
a bank number tell the banks of a group apart: DESIGN CHOICE, log 138). -/
def State.bankRefresh (s : State) (c : Nat) : State :=
  let n := mgetD 0 s.dram.refBank c
  let s := s.prechargeIf c fun b => if c < 128 then b == n % 48 else b % 4 == n % 4
  { s with dram.refBank := mputD 0 s.dram.refBank c ((n + 1) % (if c < 128 then 48 else 4)) }

/-- REFRESH: a rank that owes more than POSTPONE_MAX issues a refresh, counted in TRB3, and so does one that owes any and has no queued request (R208). In mode 0b10 the next
banks are refreshed. -/
def execRefresh (c : Fin 136) (s : State) : Out :=
  if !s.cbRuns c then .next s
  else if s.cb c Fld.CB_REF_MODE = 2 then .next (if s.cb c Fld.CB_CB_STAT_STATE = 4 then s else s.bankRefresh c)
  else
    .next ((s.ranks c).foldl (fun s r =>
      let forced := decide (s.cb c Fld.CB_REF_POSTPONE_MAX < s.owes c r)
      if s.owes c r = 0 ∨ (!forced && s.rankBusy c r) then s else s.refreshRank c r 1 forced) s)

/-- A write of REF: in mode 0b10 nothing is postponed and PENDING reads 0; where POSTPONE_MAX is lowered, the refreshes owed beyond POSTPONE_MAX + 1 are issued at once, so that
PENDING never exceeds it (R208). -/
def effRef (c mode : Nat) (s : State) : State :=
  [0, 1].foldl (fun s r =>
    if mode = 2 then s.setOwed c r 0 else s.refreshRank c r (s.owes c r - (s.cb c Fld.CB_REF_POSTPONE_MAX + 1)) true) s

/-- MR4_POLL: a DDR5 rank's mode register says whether its refresh rate is doubled (R207). HBM stacks report through their thermal
sensor (`State.hbmHot`). -/
def execMr4Poll (c : Fin 136) (doubled : Bool) (s : State) : Out :=
  if 128 ≤ c.val ∧ s.cbServes c then .next (s.setCb c Fld.CB_REF_TEMP_2X doubled.toNat) else .next s

/-- TEMP_2X of a stack's controllers follows its thermal sensor (R207). -/
def State.hbmHot (s : State) (k : Nat) (hot : Bool) : State :=
  (List.range 32).foldl (fun s i => s.setCb (32 * k + i) Fld.CB_REF_TEMP_2X hot.toNat) s

/-! ### Power-down and self-refresh (R209) -/

/-- POWER_DOWN_ENTRY: a rank without queued request, owed refresh or training enters power-down after PD_NS; its banks close first, neighbour refreshes before. -/
def execPowerDownEntry (c : Fin 136) (rank : Fin 2) (s : State) : Out :=
  if !s.cbServes c || decide (s.rankCount c ≤ rank.val) || s.cb c Fld.CB_PWR_POL_PD_NS == 0 || s.rankBusy c rank
      || s.owes c rank != 0 || (mget s.dram.rankPd (2 * c.val + rank.val)).isSome then .next s
  else
    let s := s.prechargeRank c rank
    .next ({ s with dram.rankPd := mput s.dram.rankPd (2 * c.val + rank.val) 1 }.syncRanks c)

/-- A rank enters self-refresh, every refresh it owes made up first (R209). -/
def State.selfRefresh (s : State) (c r : Nat) : State :=
  let s := (s.prechargeRank c r).setOwed c r 0
  { s with dram.rankPd := mput s.dram.rankPd (2 * c + r) 2 }.syncRanks c

/-- SELF_REFRESH_ENTRY: a rank in power-down enters self-refresh after SR_US. -/
def execSelfRefreshEntry (c : Fin 136) (rank : Fin 2) (s : State) : Out :=
  if s.cb c Fld.CB_PWR_POL_SR_US == 0 || mget s.dram.rankPd (2 * c.val + rank.val) != some 1 then .next s else .next (s.selfRefresh c rank)

/-! ### Training (R210, R211) -/

/-- RESOURCES of the image being loaded, or running, marks a unit by its bit (Table 16.8). -/
def State.unitUsed (s : State) (bit : Nat) : Bool := (s.boot.loading.or s.boot.running).any fun i => i.resources.getLsbD bit

/-- INITIAL_TRAINING: a controller that is off begins, within a start-up, to train its memory, which the image declares, a DDR5 one only where CH_CFG.POP is 1; SPEED
comes into force, and with the first DDR5 controller that initialises the CH_CFGs and ILV of all (R198, R199, R201, R210). -/
def execInitialTraining (c : Fin 136) (s : State) : Out :=
  let ddr := decide (128 ≤ c.val)
  let ch := (c.val - 128) / 2
  if s.cb c Fld.CB_CB_STAT_STATE ≠ 0 ∨ s.boot.loading.isNone ∨ !s.unitUsed (if ddr then 92 + ch else 88 + c.val / 32)
      ∨ (ddr ∧ s.fld (Pg.ddrCtl ch) Fld.DDR_CH_CFG_POP = 0) then .next s
  else
    let first := (List.range 8).all fun i => let st := s.cb (128 + i) Fld.CB_CB_STAT_STATE; st == 0 || st == 6
    let s : State := if !ddr then s.setFld (Pg.hbmStk (c.val / 32)) Fld.STK_STK_STAT_RATE_ACT (s.fld (Pg.hbmStk (c.val / 32)) Fld.STK_SPEED_RATE)
      else if first then
        { s with dram.ilv := s.fld (Pg.ddrCtl 0) Fld.DDR_ILV_SET, dram.cfgs := [0, 1, 2, 3].map fun k => (k, s.reg (Pg.ddrCtl k) Reg.DDR_CH_CFG) }
      else s
    .next ((s.setCb c Fld.CB_CB_STAT_STATE 1).syncGroup c)

/-- DRAM_TRAINING_END: the controller is ready, or FAILED with the step recorded and TRAIN_FAIL raised (R210), at step 3 where a declared rank is not fitted (R527); the stack's lane test reports
lanes repaired and spares left. -/
def execDramTrainingEnd (c : Fin 136) (failStep : Fin 9) (spares repaired : BitVec 8) (s : State) : Out :=
  if s.cb c Fld.CB_CB_STAT_STATE ≠ 1 then .next s
  else
    let hbm := decide (c.val < 128)
    let failStep : Nat := if !hbm && decide (Config.ddrFittedRanks ((c.val - 128) / 2) < s.rankCount c) then 3 else failStep
    let stk := Pg.hbmStk (c.val / 32)
    let s := if hbm then
        let s := (s.setFld stk Fld.STK_LANE_REP_SPARES spares.toNat).setFld stk Fld.STK_LANE_REP_REPAIRED
          (min 255 (s.fld stk Fld.STK_LANE_REP_REPAIRED + repaired.toNat))
        s.trbN stk 0 repaired.toNat
      else s
    let s := s.setCb c Fld.CB_CB_STAT_STATE (if failStep = 0 then 2 else 5)
    let s := if failStep = 0 then s
      else
        let s := if hbm then s.setFld stk Fld.STK_STK_STAT_FAIL_STEP failStep
          else s.setFld (Pg.ddrCtl ((c.val - 128) / 2)) Fld.DDR_CH_STAT_FAIL_STEP failStep
        s.raise (cbPage c) Evt.DDR_TRAIN_FAIL
    .next (s.syncGroup c)

/-- TRAIN.START: training is due now, in a controller that works its DRAM; BUSY holds requests back until it has ended (R211). -/
def effTrainStart (c : Nat) (s : State) : State := if s.cbRuns c then s.setCb c Fld.CB_TRAIN_BUSY 1 else s

/-- PERIODIC_TRAINING: due by PERIOD_MS or START: the banks close, the result is recorded; a failure counts in TRB5 and raises TRAIN_FAIL;
HBM lanes repaired count in HBMs_STK.TRB0 (R211). Due during self-refresh, it runs at the exit, which a request starts (R209). -/
def execPeriodicTraining (c : Fin 136) (ok : Bool) (repaired : Fin 8) (s : State) : Out :=
  if !s.cbRuns c ∨ (s.cb c Fld.CB_TRAIN_BUSY = 0 ∧ s.cb c Fld.CB_TRAIN_PERIOD_MS = 0) then .next s
  else if s.cb c Fld.CB_CB_STAT_STATE = 4 ∧ !(s.ranks c).any (fun r => s.rankBusy c r) then .next (effTrainStart c s)
  else
    let s := (s.ranks c).foldl (fun s r => if mget s.dram.rankPd (2 * c + r) = some 2 then s.rankUp c r else s) s
    let s := { s.prechargeAll c with clk.retrain := s.clk.retrain.filter (· ≠ c.val) }
    let s := (s.setCb c Fld.CB_TRAIN_BUSY 0).setCb c Fld.CB_TRAIN_RESULT (if ok then 1 else 2)
    let stk := Pg.hbmStk (c.val / 32)
    let s := if c.val < 128 then
        let s := (s.setFld stk Fld.STK_LANE_REP_REPAIRED (min 255 (s.fld stk Fld.STK_LANE_REP_REPAIRED + repaired.val))).setFld stk
          Fld.STK_LANE_REP_SPARES (s.fld stk Fld.STK_LANE_REP_SPARES - repaired.val)
        s.trbN stk 0 repaired.val
      else s
    .next (if ok then s else (s.trb (cbPage c) 5).raise (cbPage c) Evt.DDR_TRAIN_FAIL)

end Sys2Proof.Machine
end

