-- ==== Sys2Proof/Machine/CacheOps.lean ====
section
/-!
DEFINITION. The arrays of the caches and the directory (R175, R188, R194): sets, tree pseudo-LRU, partition classes, stored words and their
errors, and the channels between die caches and home slices.
-/
namespace Sys2Proof.Machine

/-! ### Tree pseudo-LRU over 16 ways (R175) -/

/-- After a use of way w every node of its path points away from it. Node 1 is the root, node n has the children 2n and 2n + 1. -/
def plruTouch (b : BitVec 16) (w : Nat) : BitVec 16 :=
  ((List.range 4).foldl (fun (acc : BitVec 16 × Nat) i =>
    let dir := (w >>> (3 - i)) % 2
    (withField acc.1 acc.2 1 (1 - dir), 2 * acc.2 + dir)) (b, 1)).1

/-- The way that the tree points at, among the permitted ones: at a node whose side holds no permitted way the other side is taken. -/
def plruVictim (b : BitVec 16) (mask : Nat) : Option Nat :=
  if mask % 65536 = 0 then none
  else
    some (((List.range 4).foldl (fun (acc : Nat × Nat) i =>
      let (node, lo) := acc
      let half := 2 ^ (3 - i)
      let sideOk (d : Nat) : Bool := fieldOf (BitVec.ofNat 16 mask) (lo + d * half) half != 0
      let d := (b.getLsbD node).toNat
      let d := if sideOk d then d else 1 - d
      (2 * node + d, lo + d * half)) (1, 0)).2)

/-- The way a new line takes in a set whose lines are given with their ways and whether each may be replaced: a free permitted way, else
the victim of the tree; none where no permitted way can be had. -/
def pickWay (b : BitVec 16) (mask : Nat) (lines : List (Nat × Bool)) : Option Nat :=
  match (List.range 16).find? fun w => mask.testBit w && !(lines.any fun e => e.1 == w) with
  | some w => some w
  | none =>
    plruVictim b ((List.range 16).foldl (fun m w =>
      if mask.testBit w && (lines.any fun e => e.1 == w && e.2) then m + 2 ^ w else m) 0)

/-! ### Partition classes (R194) -/

/-- The partition class of a tenant. -/
def State.partClass (s : State) (tid : Nat) : Nat := s.fld Pg.dir (Fld.DIR_PART_TABLE_CLASS (tid / 8)) / 2 ^ (4 * (tid % 8)) % 8
def State.scMask (s : State) (tid : Nat) : Nat := s.fld Pg.dir (Fld.DIR_SC_WAYS_WAYS (s.partClass tid))
def State.dcMask (s : State) (tid : Nat) : Nat := s.fld Pg.dir (Fld.DIR_DC_WAYS_WAYS (s.partClass tid))

/-! ### Stored words (R242) -/

/-- Decodes the eight words of a line: its data, whether a word was corrected, whether one cannot be. -/
def lineDecode (data : Line) (syn : BitVec 64) : Line × Bool × Bool :=
  if syn = 0 then (data, false, false)
  else (List.range 8).foldl (fun (acc : Line × Bool × Bool) i =>
    match eccDecode 64 8 (fieldOf data (64 * i) 64) (fieldOf syn (8 * i) 8) with
    | .clean => acc
    | .corrected d => (withField acc.1 (64 * i) 64 d, true, acc.2.2)
    | .uncorrectable => (acc.1, acc.2.1, true)) (data, false, false)

/-- Whether an access writes the whole line. -/
def fullLine (len : BitVec 3) (be : BitVec 64) : Bool := len == 0 || (len == 7 && be == BitVec.allOnes 64)

/-! ### The system cache and the directory -/

/-- A line has a transaction in progress at its home. -/
def State.lineBusy (s : State) (line : Nat) : Bool := !(mgetD [] s.coh.trk line).isEmpty

def scSet (line : Nat) : Nat := homeSlice line * 4096 + line % 4096
def dirSet (line : Nat) : Nat := homeSlice line * 8192 + line % 8192

/-- A line leaves its home towards DRAM (R215). -/
def State.pushWb (s : State) (w : WbLine) : State := { s with coh.wb := s.coh.wb ++ [w] }

/-- Counts a poisoned line of a slice and records it in LAST_POISON (R188). -/
def State.scPoison (s : State) (line : Nat) : State :=
  let sl := homeSlice line
  if s.isRaw 7 sl 0 then s
  else
    let pg := Pg.sc sl
    let s := s.trb pg 1
    let s := s.setFld pg Fld.SC_LAST_POISON_LO_ADDR_LO (line % 2 ^ 26)
    let s := s.setFld pg Fld.SC_LAST_POISON_HI_ADDR_HI (line / 2 ^ 26)
    s.setFld pg Fld.SC_LAST_POISON_HI_VALID 1

/-- A system cache line as a reader sees it, of stored words and tag: corrected errors are counted, an uncorrectable one poisons the line and is recorded (R183, R188). -/
def State.scDecode (s : State) (line : Nat) (l : ScLine) : ScLine × State :=
  let (d, cor, bad) := lineDecode l.data l.syn
  let tag := eccDecode 32 7 0 l.tagSyn.toNat
  let cor := cor || (match tag with | .corrected _ => true | _ => false)
  let bad := (bad || (match tag with | .uncorrectable => true | _ => false)) && !l.poison
  let s := if cor && !s.isRaw 7 (homeSlice line) 0 then s.trb (Pg.sc (homeSlice line)) 0 else s
  ({ l with data := d, poison := l.poison || bad }, if bad then s.scPoison line else s)

/-- Reads a system cache line; a poisoned one stays so (R183), but in raw mode (R257). Answers the line as it stands. -/
def State.scRead (s : State) (line : Nat) : Option ScLine × State :=
  match mget s.coh.sc line with
  | none => (none, s)
  | some l =>
    let s := { s with coh.scPlru := mput s.coh.scPlru (scSet line) (plruTouch (mgetD 0 s.coh.scPlru (scSet line)) l.way) }
    let (x, s) := s.scDecode line l
    let marks := x.poison && !l.poison && !s.isRaw 7 (homeSlice line) 0
    (some x, if marks then { s with coh.sc := mput s.coh.sc line { l with poison := true } } else s)

/-- What leaves the system cache for DRAM (R188, R197). -/
def State.scEvict (s : State) (line : Nat) (l : ScLine) : WbLine × State :=
  let (x, s) := s.scDecode line l
  (⟨line, x.data, x.kid, x.poison⟩, s)

/-- Stores a line in the system cache within the ways of a class: in its way when it is held, else in a way found for it, whose dirty victim
leaves for DRAM. Where no way can be had, a dirty line goes to DRAM directly (R188, R194). -/
def State.scStore (s : State) (line : Nat) (tid : Nat) (data : Line) (kid : BitVec 10) (dirty poison : Bool) : State :=
  match mget s.coh.sc line with
  | some l =>
    { s with coh.sc := mput s.coh.sc line { l with data := data, syn := 0, tagSyn := 0, kid := kid, dirty := dirty, poison := poison } }
  | none =>
    let set := scSet line
    let held := s.coh.sc.filter fun e => scSet e.1 == set
    let b := mgetD 0 s.coh.scPlru set
    match pickWay b (s.scMask tid) (held.map fun e => (e.2.way, !s.lineBusy e.1)) with
    | none => if dirty then s.pushWb ⟨line, data, kid, poison⟩ else s
    | some w =>
      let s := match held.find? fun e => e.2.way == w with
        | none => s
        | some e =>
          let s := { s with coh.sc := mdel s.coh.sc e.1 }
          if e.2.dirty then (match s.scEvict e.1 e.2 with | (w, s) => s.pushWb w) else s
      { s with coh.sc := mput s.coh.sc line ⟨data, 0, 0, kid, dirty, poison, w⟩, coh.scPlru := mput s.coh.scPlru set (plruTouch b w) }

/-- The system cache holds the line no more. -/
def State.scDrop (s : State) (line : Nat) : State := { s with coh.sc := mdel s.coh.sc line }

/-- A directory entry changes; one without die caches is DI and not kept. -/
def State.dirSetEnt (s : State) (line : Nat) (e : DirEnt) : State :=
  if e.pres = 0 then { s with coh.dir := mdel s.coh.dir line } else { s with coh.dir := mput s.coh.dir line e }

/-- The ways of a line's directory set that hold an entry, which may be recalled while its line has no transaction, or are kept for a grant (R175, R176). -/
def State.dirWays (s : State) (line : Nat) : List (Nat × Bool) :=
  ((s.coh.dir.filter fun e => dirSet e.1 == dirSet line).map fun e => (e.2.way, !s.lineBusy e.1))
    ++ ((s.coh.dirRsv.filter fun e => dirSet e.1 == dirSet line).map fun e => (e.2, false))

/-- A way for a line's entry (R176): its own, or a free one, which is then kept for it; the line whose entry is to be recalled first; none while every way of the set
serves a transaction. -/
inductive DirWay where
  | kept (s : State)
  | recall (victim : Nat)
  | wait
def State.dirReserve (s : State) (line : Nat) : DirWay :=
  let keep (w : Nat) : DirWay := .kept { s with coh.dirRsv := mput s.coh.dirRsv line w }
  match mget s.coh.dir line, mget s.coh.dirRsv line with
  | some e, _ => keep e.way
  | none, some w => keep w
  | none, none =>
    match pickWay (mgetD 0 s.coh.dirPlru (dirSet line)) 0xFFFF (s.dirWays line) with
    | none => .wait
    | some w =>
      match s.coh.dir.find? fun e => dirSet e.1 == dirSet line && e.2.way == w with
      | some e => .recall e.1
      | none => keep w

/-- A line's grant is over: its way is kept no longer. -/
def State.dirRelease (s : State) (line : Nat) : State := { s with coh.dirRsv := mdel s.coh.dirRsv line }

/-- Uses a directory way. -/
def State.dirTouch (s : State) (line w : Nat) : State :=
  { s with coh.dirPlru := mput s.coh.dirPlru (dirSet line) (plruTouch (mgetD 0 s.coh.dirPlru (dirSet line)) w) }

/-- Records die caches for a line, in the way kept for it. -/
def State.dirRecord (s : State) (line : Nat) (dx : Bool) (pres : Byte) (kid : BitVec 10) : State :=
  let w := match mget s.coh.dir line with | some e => e.way | none => mgetD 0 s.coh.dirRsv line
  ((s.dirSetEnt line ⟨dx, pres, kid, w, 0⟩).dirTouch line w).dirRelease line

/-- Looks a directory entry up, which uses its way (R175), counting a corrected error (R197). An entry that cannot be corrected is used as it is held (log 25). -/
def State.dirRead (s : State) (line : Nat) : Option DirEnt × State :=
  match mget s.coh.dir line with
  | none => (none, s)
  | some e =>
    let s := s.dirTouch line e.way
    match eccDecode 32 7 0 e.syn.toNat with
    | .corrected _ => (some e, if s.isRaw 8 (homeSlice line) 0 then s else s.trb (Pg.sc (homeSlice line)) 0)
    | _ => (some e, s)

/-! ### Channels -/

/-- A line of a die cache. -/
def dcKey (m line : Nat) : Nat := m * 2 ^ 42 + line
/-- The channel between a die cache and a home slice. -/
def chKey (m sl : Nat) : Nat := m * 32 + sl

/-- The line address that a coherence message carries, on RSP too; a grant's status stands in the low byte (R184; where Table 07.3 and R142 meet: DESIGN CHOICE, log 136). -/
def cohAddr (line : Nat) (st : Status) : Nat := line * 64 + st.no

/-- Issues the flit of a coherence message (Table 07.3) between a die cache and a slice. Its tag tells it from its repeats (R443). -/
def State.sendCoh (s : State) (ref : FlitRef) (src dst : Nat × Nat) (vc : Vc) (h : FlitHead) (payload : Line) : State :=
  let f : Flit := ⟨ref, s.route src.1 dst.1, vc, src.1, src.2, dst.1, dst.2, [flitWord { h with tag := s.rings.seq % 256 } vc dst.1 src.1 payload], none, false⟩
  { s.launch f with rings.seq := s.rings.seq + 1 }

/-- The message codes of Table 07.3. -/
def CrdKind.code : CrdKind → Nat
  | .rds => 0 | .rdx => 1 | .upg => 2
def SnpKind.code : SnpKind → Nat
  | .snps => 0 | .snpi => 1 | .snpc => 2
def SnpAns.code : SnpAns → Nat
  | .none => 0 | .clean => 1 | .dirty _ => 2

def State.sendCrd (s : State) (m : Nat) (x : CrdMsg) : State :=
  let sl := homeSlice x.line
  let k := chKey m sl
  { s with coh.crdCh := mput s.coh.crdCh k (mgetD [] s.coh.crdCh k ++ [x]) }.sendCoh (.crd k) (dcacheAt m) (sliceAt sl) .req
    ⟨0x8, x.tid, x.kid, 0, x.kind.code, cohAddr x.line .ok⟩ 0
def State.sendDc (s : State) (m sl : Nat) (x : DcMsg) : State :=
  let k := chKey m sl
  let (h, p) : FlitHead × Line := match x with
    | .cwb line data _ kid tid => (⟨0x9, tid, kid, 0, 0, cohAddr line .ok⟩, data)
    | .srsp line a => (⟨0xC, 0, 0, 0, a.code, cohAddr line .ok⟩, match a with | .dirty d => d | _ => 0)
    | .dclr => (⟨0xC, 0, 0, 0, 4, 0⟩, 0)
  { s with coh.dcCh := mput s.coh.dcCh k (mgetD [] s.coh.dcCh k ++ [x]) }.sendCoh (.dc k) (dcacheAt m) (sliceAt sl) .rsp h p
def State.sendSnp (s : State) (m : Nat) (x : SnpMsg) : State :=
  let sl := homeSlice x.line
  let k := chKey m sl
  { s with coh.snpCh := mput s.coh.snpCh k (mgetD [] s.coh.snpCh k ++ [x]) }.sendCoh (.snp k) (sliceAt sl) (dcacheAt m) .req
    ⟨0xA, 0, 0, 0, x.kind.code + 4 * x.ag.toNat, cohAddr x.line .ok⟩ 0
def State.sendHome (s : State) (m sl : Nat) (x : HomeMsg) : State :=
  let k := chKey m sl
  let (h, p) : FlitHead × Line := match x with
    | .cgnt line excl data st => (⟨0xB, 0, 0, 0, if excl then (if data.isSome then 1 else 2) else 0, cohAddr line st⟩, data.getD 0)
    | .cack line => (⟨0xD, 0, 0, 0, 0, cohAddr line .ok⟩, 0)
  { s with coh.homeCh := mput s.coh.homeCh k (mgetD [] s.coh.homeCh k ++ [x]) }.sendCoh (.home k) (sliceAt sl) (dcacheAt m) .rsp h p

/-- The message at the head of a channel has not come to its destination yet, or may not come there now (R159). -/
def State.cohWaits (s : State) (ref : FlitRef) : Bool := !s.mayLand ref || s.clk.failed

/-- A grant of a line to a die cache is on its way (R187: AG). -/
def State.grantSent (s : State) (m line : Nat) : Bool :=
  (mgetD [] s.coh.homeCh (chKey m (homeSlice line))).any fun x => match x with | .cgnt l _ _ _ => l == line | .cack _ => false

/-- The die numbers in a vector. -/
def diesOf (v : Byte) : List Nat := (List.range 8).filter fun m => v.getLsbD m

end Sys2Proof.Machine
end

