-- ==== Sys2Proof/Machine/Home.lean ====
section
/-!
DEFINITION. The home slices: trackers, directory transitions and the messages that reach a home (R178, R180, R184 to R193, R525), with the
DRAM accesses a home waits for.
-/
namespace Sys2Proof.Machine

/-! ### Trackers (R185) -/

def State.trk (s : State) (line : Nat) : List Tracker := mgetD [] s.coh.trk line

/-- TT_BUSY shows the trackers in use of a slice: those of its lines, and of the CRDs that a clearing walk holds (R190). A recall within the slice takes none of its own. -/
def State.syncTt (s : State) (sl : Nat) : State :=
  let ext (t : Tracker) : Bool := match t.asker with | .recall _ => false | _ => true
  s.setFld (Pg.sc sl) Fld.SC_SC_STAT_TT_BUSY
    (((s.coh.trk.filter fun e => homeSlice e.1 == sl).map fun e => (e.2.filter ext).length).sum + (s.coh.heldCrd.filter fun e => homeSlice e.2.line == sl).length)

def State.setTrk (s : State) (line : Nat) (l : List Tracker) : State :=
  { s with coh.trk := mputD [] s.coh.trk line l }.syncTt (homeSlice line)

/-- A slice has a tracker free. -/
def State.trkFree (s : State) (sl : Nat) : Bool := decide (s.fld (Pg.sc sl) Fld.SC_SC_STAT_TT_BUSY < 64)

/-- Changes the line's active tracker. -/
def State.setActive (s : State) (line : Nat) (t : Tracker) : State :=
  match s.trk line with
  | [] => s
  | _ :: rest => s.setTrk line (t :: rest)

/-- The attachment point a request came from, as VIOL_REC.SRC names it. -/
def Asker.src : Asker → Nat
  | .die m => (dcacheAt m).1
  | .txn t => t.src
  | .posted st => st
  | _ => 58

/-- Answers a transaction's asker with a status and data (R147, R186, R193). -/
def State.reply (s : State) (line : Nat) (t : Tracker) (st : Status) (data : Line) : State :=
  match t.asker with
  | .die m => (s.dirRelease line).sendHome m (homeSlice line) (.cgnt line false (if st = .poison then some data else none) st)
  | .txn k => s.answer k st data
  | .posted _ => s
  | .dirUnit =>
    if st = .ok then s else (s.trb Pg.dir 0).setFld Pg.dir Fld.DIR_CMO_CTRL_STATUS 1
  | .recall l =>
    match s.trk l with
    | a :: rest => if a.phase = .recall then s.setTrk l ({ a with phase := .ready } :: rest) else s
    | [] => s

/-- Sends snoops to die caches; AG says that a grant of the line is on its way (R187). -/
def State.snoop (s : State) (line : Nat) (kind : SnpKind) (dies : Byte) : State :=
  (diesOf dies).foldl (fun s m => s.sendSnp m ⟨line, kind, s.grantSent m line⟩) s

/-- The snoops a request needs (Table 07.4, R192): their kind and the die caches. -/
def snoopsFor (op : HomeOp) (asker : Asker) (e : Option DirEnt) : SnpKind × Byte :=
  match e with
  | none => (.snpi, 0)
  | some e =>
    let me : Byte := match asker with | .die m => (1 : Byte) <<< m | _ => 0
    match op with
    | .rds => (.snps, if e.dx then e.pres &&& ~~~me else 0)
    | .rdx | .upg => (.snpi, e.pres &&& ~~~me)
    | .rd => (.snps, if e.dx then e.pres else 0)
    | .wr | .flush => (.snpi, e.pres)
    | .clean => (.snpc, if e.dx then e.pres else 0)

/-- The end of the active transaction with an answer: the next one of the line becomes active. -/
def State.finishTrk (s : State) (line : Nat) (st : Status) (data : Line) : State :=
  match s.trk line with
  | [] => s
  | t :: rest => (s.setTrk line rest).reply line t st data

/-- Grants a line to die cache m and records it (Table 07.4, R186). -/
def State.grantLine (s : State) (line : Nat) (t : Tracker) (m : Nat) (data : Option Line) : State :=
  let (e, s) := s.dirRead line
  let me : Byte := (1 : Byte) <<< m
  let (dx, pres) := match e with
    | none => (true, me)
    | some e => if t.op = .rds ∧ !(e.dx ∧ e.pres = me) then (false, e.pres ||| me) else (true, me)
  let s := s.dirRecord line dx pres t.kid
  (s.setTrk line ((s.trk line).drop 1)).sendHome m (homeSlice line) (.cgnt line dx data .ok)

/-- The data a transaction needs is there: the line's data, whether it is poisoned, whether the system cache holds it (Table 07.4, R188,
R525). Poisoned data passes on as it is (R59, R215). -/
def State.homeData (s : State) (line : Nat) (t : Tracker) (data : Line) (poison held : Bool) : State :=
  match t.op with
  | .wr =>
    let d := mergeLanes 8 64 (accBytes t.len t.ofs t.be) data t.data
    let s := s.scStore line t.tid.toNat d t.kid true (poison || t.poison)
    let s := { s with coh.dir := mdel s.coh.dir line }
    s.finishTrk line .ok 0
  | .rd =>
    let s := if held then s else s.scStore line t.tid.toNat data t.kid false poison
    s.finishTrk line (if poison then .poison else .ok) (mergeLanes 8 64 (accBytes t.len t.ofs t.be) 0 data)
  | _ =>
    let s := if held then s else s.scStore line t.tid.toNat data t.kid false poison
    if poison then s.finishTrk line .poison data
    else match t.asker with
      | .die m => s.grantLine line t m (some data)
      | _ => s.finishTrk line .ok 0

/-- A line's dirty system cache copy leaves for DRAM; where `drop`, the line leaves the system cache. Answers whether it was dirty. -/
def State.flushLine (s : State) (line : Nat) (drop : Bool) : Bool × State :=
  match s.scRead line with
  | (none, s) => (false, s)
  | (some l, s) =>
    let s := if l.dirty then s.pushWb ⟨line, l.data, l.kid, l.poison⟩ else s
    (l.dirty, if drop then s.scDrop line else { s with coh.sc := mput s.coh.sc line { l with syn := 0, dirty := false } })

/-- The key ID a held copy of a line is under (R180). -/
def State.heldKid (s : State) (line : Nat) : Option (BitVec 10) :=
  match mget s.coh.sc line, mget s.coh.dir line with
  | some l, _ => some l.kid
  | none, some e => some e.kid
  | none, none => none

/-- A line is on its way from its home to DRAM. -/
def State.wbPending (s : State) (line : Nat) : Bool := s.coh.wb.any fun w => w.line == line

/-- The lines whose transactions wait for DRAM enter the read queue of their controller while it has room: 64 (R203). -/
def State.readsGo (s : State) (c : Nat) : State :=
  let mine (e : Nat × List Tracker) : Bool :=
    (match e.2 with | t :: _ => decide (t.phase = .dram) | [] => false) && !(s.reads c).contains e.1
      && (match s.dramPlace e.1 with | some (c', _) => c' == c | none => false)
  { s with dram.rq := mputD [] s.dram.rq c (s.reads c ++ ((s.coh.trk.filter mine).map Prod.fst).take (64 - (s.reads c).length)) }

/-- A line's transaction waits for DRAM. -/
def State.awaitDram (s : State) (line : Nat) (t : Tracker) : State :=
  let s := s.setActive line { t with phase := .dram }
  match s.dramPlace line with
  | some (c, _) => s.readsGo c
  | none => s

/-- The controller of a line, FAILED or ABSENT, or no controller at all, answers BUS_ERROR (R202). -/
def State.dramRefuses (s : State) (line : Nat) : Bool :=
  match s.dramPlace line with
  | some (c, _) => let st := s.cb c Fld.CB_CB_STAT_STATE; st == 5 || st == 6
  | none => true

/-- Moves a line's transactions on, as far as they go: `fuel` bounds the number of moves. -/
def State.homeRun (s : State) (line : Nat) : (fuel : Nat) → State
  | 0 => s
  | n + 1 =>
    match s.trk line with
    | [] => s
    | t :: _ =>
      match t.phase with
      | .idle =>
        let internal := match t.asker with | .recall _ => true | _ => false
        match (if internal then none else s.slotCheck true t.kid.toNat t.tid.toNat) with
        | some reason =>
          ((s.violation 0 t.kid.toNat t.tid.toNat t.asker.src reason).finishTrk line .busError 0).homeRun line n
        | none =>
          if !internal && s.dramRefuses line then (s.finishTrk line .busError 0).homeRun line n
          else match s.heldKid line with
          | some k =>
            if k ≠ t.kid ∧ !internal then
              let s := s.trb (Pg.sc (homeSlice line)) 3
              let p := match mget s.coh.dir line with | some e => e.pres | none => 0
              ((s.setActive line { t with phase := .oldKey, need := p, domOff := 0 }).snoop line .snpi p).homeRun line n
            else (s.setActive line { t with phase := .ready }).homeRun line n
          | none => (s.setActive line { t with phase := .ready }).homeRun line n
      | .oldKey =>
        if t.need ≠ 0 then s
        else
          let (_, s) := s.flushLine line true
          let s := { s with coh.dir := mdel s.coh.dir line }
          (s.setActive line { t with phase := .ready, sawNone := false }).homeRun line n
      | .ready =>
        let (e, s) := s.dirRead line
        let go (s : State) : State :=
          let (kind, dies) := snoopsFor t.op t.asker e
          ((s.setActive line { t with phase := .snoop, need := dies, domOff := 0, sawNone := false }).snoop line kind dies).homeRun line n
        match (match t.op with | .rds | .rdx | .upg => s.dirReserve line | _ => .kept s) with
        | .kept s => go s
        | .wait => s
        | .recall v =>
          let p := match mget s.coh.dir v with | some x => x.pres | none => 0
          let r : Tracker := ⟨.flush, .recall line, 0, 0, 0, 0, 0, 0, .snoop, p, 0, false, false⟩
          ((s.setActive line { t with phase := .recall }).setTrk v [r]).snoop v .snpi p
      | .recall => s
      | .snoop =>
        if t.need ≠ 0 then s
        else
          match t.asker with
          | .recall l =>
            -- the victim's entry is free (R176)
            let s := { s with coh.dir := mdel s.coh.dir line }
            let s := s.trb (Pg.sc (homeSlice line)) 2
            ((s.finishTrk line .ok 0).homeRun line n).homeRun l n
          | _ =>
            match t.op with
            | .clean =>
              let (_, s) := s.flushLine line false
              (s.setActive line { t with phase := .accept }).homeRun line n
            | .flush =>
              let (_, s) := s.flushLine line true
              let s := { s with coh.dir := mdel s.coh.dir line }
              (s.setActive line { t with phase := .accept }).homeRun line n
            | .wr =>
              if fullLine t.len t.be then (s.homeData line t 0 false true).homeRun line n
              else match s.scRead line with
                | (some l, s) => (s.homeData line t l.data l.poison true).homeRun line n
                | (none, s) => s.awaitDram line t
            | op =>
              let noData := match op, t.asker, mget s.coh.dir line with
                | .upg, .die m, some e => !e.dx && e.pres.getLsbD m
                | _, _, _ => false
              match t.asker with
              | .die m =>
                if noData then (s.grantLine line t m none).homeRun line n
                else match s.scRead line with
                  | (some l, s) => (s.homeData line t l.data l.poison true).homeRun line n
                  | (none, s) => s.awaitDram line t
              | _ =>
                match s.scRead line with
                | (some l, s) => (s.homeData line t l.data l.poison true).homeRun line n
                | (none, s) => s.awaitDram line t
      | .dram => s
      | .accept => if s.wbPending line then s else (s.finishTrk line .ok 0).homeRun line n

/-- Enough moves for every transaction of a line and of the line that waits for it. -/
def State.homeMove (s : State) (line : Nat) : State :=
  s.homeRun line (8 * (s.coh.trk.map fun e => e.2.length + 1).sum + 16)

/-- The DIR unit issues the CMOs of its range as trackers become free (R185, R193). -/
def State.rangeGo (s : State) : State :=
  s.coh.rangeLeft.foldl (fun s e =>
    if s.trkFree (homeSlice e.1) then
      let t : Tracker := ⟨e.2.1, .dirUnit, e.2.2, 0, 0, 0, 0, 0, .idle, 0, 0, false, false⟩
      ({ s with coh.rangeLeft := s.coh.rangeLeft.erase e }.setTrk e.1 (s.trk e.1 ++ [t])).homeMove e.1
    else s) s

/-- Moves a line's transactions on, then those that wait for a way of a directory set (R176), then a range operation. -/
def State.homeGo (s : State) (line : Nat) : State :=
  let s := s.homeMove line
  let stuck := s.coh.trk.filter fun e => match e.2 with | t :: _ => decide (t.phase = .ready) | [] => false
  (stuck.foldl (fun s e => s.homeMove e.1) s).rangeGo

/-- A home takes a request: a tracker of its own, active when it is the line's only one (R185). -/
def State.homeTake (s : State) (line : Nat) (t : Tracker) : State :=
  (s.setTrk line (s.trk line ++ [t])).homeGo line

/-! ### Requests of die caches: RDS, RDX, UPG (R186, R190) -/

/-- A CRD at the head of its channel reaches its home: held while a clearing walk for its die runs (R190). -/
def State.crdArrive (s : State) (m line : Nat) (kind : CrdKind) : State :=
  let sl := homeSlice line
  let k := chKey m sl
  match mgetD [] s.coh.crdCh k with
  | [] => s
  | x :: rest =>
    if x.line ≠ line ∨ x.kind ≠ kind ∨ !s.trkFree sl ∨ s.cohWaits (.crd k) then s
    else
      let s := { s.landed (.crd k) with coh.crdCh := mputD [] s.coh.crdCh k rest }
      if (s.fld (Pg.sc sl) Fld.SC_SC_STAT_WALK).testBit m then { s with coh.heldCrd := s.coh.heldCrd ++ [(m, x)] }.syncTt sl
      else
        let op : HomeOp := match kind with | .rds => .rds | .rdx => .rdx | .upg => .upg
        s.homeTake line ⟨op, .die m, x.kid, x.tid, 0, 0, 0, 0, .idle, 0, 0, false, false⟩

/-- RDS: a read-shared CRD is served at the home. -/
def execRds (die : Fin 8) (line : LineAddr) (s : State) : Out := .next (s.crdArrive die line.toNat .rds)
/-- RDX: a read-exclusive CRD is served at the home. -/
def execRdx (die : Fin 8) (line : LineAddr) (s : State) : Out := .next (s.crdArrive die line.toNat .rdx)
/-- UPG: an upgrade CRD is served at the home. -/
def execUpg (die : Fin 8) (line : LineAddr) (s : State) : Out := .next (s.crdArrive die line.toNat .upg)

/-! ### Messages of die caches on RSP: CWB, SRSP, DCLR (R186 to R190) -/

/-- One die's answer to a snoop of the line's active transaction (R184, R186): data returned DIRTY enters the system cache; the entry follows
the snoop; the transaction goes on when every answer is there. -/
def State.snpAnswer (s : State) (line m : Nat) (a : SnpAns) : State :=
  match s.trk line with
  | [] => s
  | t :: _ =>
    if !t.need.getLsbD m then s
    else
      let me : Byte := (1 : Byte) <<< m
      let kid := match mget s.coh.dir line with | some e => e.kid | none => t.kid
      let s := match a with
        | .dirty d => s.scStore line t.tid.toNat d kid true false
        | _ => s
      let gone := decide (a = .none)
      let kindI := decide (t.phase = .oldKey) || (match t.op with | .rdx | .upg | .wr | .flush => true | _ => false)
      let s := match mget s.coh.dir line with
        | none => s
        | some e =>
          if kindI then s.dirSetEnt line { e with pres := e.pres &&& ~~~me }
          else if t.op = HomeOp.clean then s
          else if gone then s.dirSetEnt line { e with pres := e.pres &&& ~~~me }
          else s.dirSetEnt line { e with dx := false }
      let t := { t with need := t.need &&& ~~~me, domOff := t.domOff &&& ~~~me, sawNone := t.sawNone || gone }
      (s.setActive line t).homeGo line

/-- CWB: a write-back of the recorded holder enters the system cache marked dirty; any other is discarded and counted in TRB4; a CACK
answers (Table 07.4). It is applied to the line's active transaction too (R187, R190). -/
def execCwb (die : Fin 8) (line : LineAddr) (s : State) : Out :=
  let l := line.toNat
  let sl := homeSlice l
  let k := chKey die sl
  match mgetD [] s.coh.dcCh k with
  | .cwb l' data poison kid tid :: rest =>
    if l' ≠ l ∨ s.cohWaits (.dc k) then .next s
    else
      let s := { s.landed (.dc k) with coh.dcCh := mputD [] s.coh.dcCh k rest }
      let me : Byte := (1 : Byte) <<< die.val
      let owner := match mget s.coh.dir l with | some e => e.dx && e.pres == me | none => false
      let s := if owner then
          let s := { s.scStore l tid.toNat data kid true poison with coh.dir := mdel s.coh.dir l }
          if (match s.trk l with | t :: _ => t.domOff.getLsbD die | [] => false) then s.snpAnswer l die .none else s
        else s.trb (Pg.sc sl) 4
      .next (s.sendHome die sl (.cack l))
  | _ => .next s

/-- SRSP: a snoop answer reaches the home. -/
def execSrsp (die : Fin 8) (line : LineAddr) (s : State) : Out :=
  let l := line.toNat
  let k := chKey die (homeSlice l)
  match mgetD [] s.coh.dcCh k with
  | .srsp l' a :: rest =>
    if l' ≠ l ∨ s.cohWaits (.dc k) then .next s
    else .next ({ s.landed (.dc k) with coh.dcCh := mputD [] s.coh.dcCh k rest }.snpAnswer l die a)
  | _ => .next s

/-- The trackers of a slice (of every slice where none) that wait for die m's write-back take NONE (R190, R191). -/
def State.releaseDomOff (s : State) (m : Nat) (sl : Option Nat) : State :=
  (s.coh.trk.map Prod.fst).foldl (fun s line =>
    if sl.all (· == homeSlice line) && (match s.trk line with | t :: _ => t.domOff.getLsbD m | [] => false) then
      s.snpAnswer line m .none
    else s) s

/-- DCLR: a slice treats bit m of every presence vector as 0 and starts its clearing walk; transactions that wait for the die take NONE
(R189, R190). -/
def execDclr (die : Fin 8) (slice : Fin 32) (s : State) : Out :=
  let k := chKey die slice
  match mgetD [] s.coh.dcCh k with
  | .dclr :: rest =>
    if s.cohWaits (.dc k) then .next s
    else
    let s := { s.landed (.dc k) with coh.dcCh := mputD [] s.coh.dcCh k rest }
    let w := s.fld (Pg.sc slice) Fld.SC_SC_STAT_WALK
    let s := s.setFld (Pg.sc slice) Fld.SC_SC_STAT_WALK (w ||| 2 ^ die.val)
    let me : Byte := (1 : Byte) <<< die.val
    let s := s.releaseDomOff die (some slice)
    .next ((s.coh.dir.filter fun e => homeSlice e.1 == slice.val && e.2.pres.getLsbD die).foldl
      (fun s e => s.dirSetEnt e.1 { e.2 with pres := e.2.pres &&& ~~~me }) s)
  | _ => .next s

/-! ### DRAM accesses (R203, R214, R215) -/

/-- DRAM_READ: the controller reads a line of its read queue, decodes and decrypts it under the request's key ID (R214, R215). A line on its way to DRAM is written first. -/
def execDramRead (line : LineAddr) (s : State) : Out :=
  let l := line.toNat
  match s.trk l, s.dramPlace l with
  | t :: _, some (c, j) =>
    if t.phase ≠ .dram ∨ s.wbPending l ∨ !(s.reads c).contains l ∨ !s.cbServes c then .next s
    else
      let (d, bad, s) := s.fetchLine c j l
      let s : State := { s with dram.rq := mputD [] s.dram.rq c ((s.reads c).erase l) }
      let s := s.homeData l t (if bad then d else s.lineDec t.kid.toNat l d) bad false
      .next (((s.homeGo l).readsGo c).drain c)
  | _, _ => .next s

/-- DRAM_WRITE: the oldest line of this address that has left its home is encrypted, encoded and accepted into the write queue (R203, R215);
a line whose controller is FAILED or ABSENT is lost (log 26). A CMO that waits for the acceptance ends. -/
def execDramWrite (line : LineAddr) (s : State) : Out :=
  let l := line.toNat
  match s.coh.wb.find? fun w => w.line == l with
  | none => .next s
  | some w =>
    let s1 := { s with coh.wb := s.coh.wb.erase w }
    match s.dramPlace l with
    | none => .next (s1.homeGo l)
    | some (c, j) =>
      let st := s.cb c Fld.CB_CB_STAT_STATE
      if st = 5 ∨ st = 6 then .next (s1.homeGo l)
      else if 64 ≤ (mgetD [] s.dram.wq c).length ∧ !((mgetD [] s.dram.wq c).any fun e => e.1 == j) then .next s
      else
        let (x, s1) := s1.encodeLine w
        .next (((s1.enqueue c j x).homeGo l).drain c)

/-! ### Range operations and lost dies (R191, R193) -/

/-- Refusals by the slot check of n lines of a range operation (R193, R228). -/
def State.violations (s : State) (kid reason : Nat) : Nat → State
  | 0 => s
  | n + 1 => (s.violation 0 kid 0 58 reason).violations kid reason n

/-- The first line and the number of lines of the range registers. -/
def State.cmoRange (s : State) : Nat × Nat :=
  (s.fld Pg.dir Fld.DIR_CMO_BASE_HI_ADDR_HI * 2 ^ 26 + s.fld Pg.dir Fld.DIR_CMO_BASE_LO_ADDR_LO, s.fld Pg.dir Fld.DIR_CMO_LEN_LINES)

/-- The range lies wholly within one cacheable range. -/
def State.cmoRangeOk (s : State) : Bool :=
  let (b, n) := s.cmoRange
  n != 0 && (decide (b + n ≤ hbmLines) || (decide (ddrBase ≤ b) && decide (b + n ≤ 0x006000000000 / 64)))

/-- START of a range operation: the DIR unit issues one CMO per line under tenant 0. A CMO of a line that no cache holds and no earlier request names completes at once;
lines whose slot check fails, and lines no memory holds, fail (R192, R193). -/
def effRangeCmo (flush : Bool) (s : State) : State :=
  let (b, n) := s.cmoRange
  let kid := s.fld Pg.dir Fld.DIR_CMO_BASE_HI_KID
  let s := (s.setFld Pg.dir Fld.DIR_CMO_CTRL_BUSY 1).setFld Pg.dir Fld.DIR_CMO_CTRL_STATUS 0
  let fail (s : State) (k : Nat) : State :=
    if k = 0 then s else (s.trbN Pg.dir 0 (min k 65536)).setFld Pg.dir Fld.DIR_CMO_CTRL_STATUS 1
  match s.slotCheck true kid 0 with
  | some reason => fail (s.violations kid reason (min n 65536)) n
  | none =>
    let top := if b < hbmLines then hbmLines else ddrBase + s.ddrLines
    let s := fail s (b + n - max b top)
    let held := ((s.coh.sc.map Prod.fst) ++ (s.coh.dir.map Prod.fst) ++ (s.coh.trk.map Prod.fst)).eraseDups.filter fun l => decide (b ≤ l) && decide (l < min (b + n) top)
    { s with coh.rangeLeft := held.map fun l => (l, if flush then .flush else .clean, BitVec.ofNat 10 kid) }.rangeGo

/-- RANGE_CMO_END: the last line of the range operation is done: BUSY clears (R193). -/
def execRangeCmoEnd (s : State) : Out :=
  if s.bit Pg.dir Fld.DIR_CMO_CTRL_BUSY && s.coh.rangeLeft.isEmpty && !(s.coh.trk.any fun e => e.2.any fun t => decide (t.asker = .dirUnit)) then
    .next (s.setFld Pg.dir Fld.DIR_CMO_CTRL_BUSY 0)
  else .next s

/-- DIE_LOST for one die (R191): lines it may hold modified become poisoned and dirty in the system cache, its presence bits clear,
waiting transactions take NONE. -/
def State.dieLost (s : State) (m : Nat) : State :=
  let me : Byte := (1 : Byte) <<< m
  let s := (s.coh.dir.filter fun e => e.2.pres.getLsbD m).foldl (fun s e =>
    let l := e.1
    if e.2.dx then
      let s := match mget s.coh.sc l with
        | some x => { s with coh.sc := mput s.coh.sc l { x with dirty := true, poison := true } }
        | none => s.scStore l 0 0 e.2.kid true true
      ({ s with coh.dir := mdel s.coh.dir l }).trb (Pg.sc (homeSlice l)) 5
    else s.dirSetEnt l { e.2 with pres := e.2.pres &&& ~~~me }) s
  s.releaseDomOff m none

/-- A write of DIR.DIE_LOST. -/
def effDieLost (dies : Nat) (s : State) : State :=
  (List.range 8).foldl (fun s m => if dies.testBit m then s.dieLost m else s) s

end Sys2Proof.Machine
end

