-- ==== Sys2Proof/Machine/Fabric.lean ====
section
/-!
DEFINITION. Block and deep memories (R39 to R46).
-/
namespace Sys2Proof.Machine

/-! ### Units of the fabric -/

/-- ML_STAT.STATE: 0 OFF, 1 LOCKING, 2 LOCKED, 3 HELD, 4 FAILED. -/
def State.loopState (s : State) (l : Nat) : Nat := s.fld Pg.clkMl (Fld.ML_STAT_STATE l)
def State.setLoopState (s : State) (l n : Nat) : State := s.setFld Pg.clkMl (Fld.ML_STAT_STATE l) n

/-- A clock gate that is open: a clock region, a die branch. -/
def State.cregOpen (s : State) (m c : Nat) : Bool := (s.fld (Pg.fabCtl m) Fld.FABCTL_CREG_ACTIVE_ACTIVE).testBit c
def State.fdieOpen (s : State) (m b : Nat) : Bool :=
  !(s.reg Pg.clkCtl (Reg.CLK_FDIE_GATE m)).getLsbD b || s.clk.woken.contains (.fdie (Fin.ofNat 8 m) (Fin.ofNat 32 b))

/-- A fabric die runs user logic once that is enabled, while it is configured and until a snuff has ended (DIE_STAT.PWR_STATE, Table 02.11;
R387); its islands stop at a source failure (R370). -/
def State.dieUp (s : State) (m : Nat) : Bool :=
  let p := s.fld (Pg.fabCtl m) Fld.FABCTL_DIE_STAT_PWR_STATE
  s.bit Pg.cfg Fld.CFG_CFG_STAT_USER_EN && (p == 3 || p == 4) && !s.clk.failed

/-- The state of a region slot (Table 02.20); a slot is out of reset in static logic and in a running region (R400), and its clocks run while its
clock region's gate is open as well (R54). -/
def State.regSlot (s : State) (m n : Nat) : Nat := s.fld (Pg.fabSlt m) (Fld.FABSLT_SLOT_STAT_STATE n)
def State.slotLive (s : State) (m n : Nat) : Bool := s.dieUp m && decide (s.regSlot m n ≤ 1)
def State.slotUp (s : State) (m n : Nat) : Bool := s.slotLive m n && s.cregOpen m (n / 2)

/-- A fabric clock reaches a die: its loop is locked and its branch is open; a die-local clock is divided from an FCLK (R53, R362). -/
def State.fclkRuns (s : State) (m k : Nat) : Bool := s.loopState k == 2 && s.fdieOpen m k
def State.clkSource (s : State) (m : Nat) : FabClk → Option Nat
  | .fclk k => some k
  | .loc j => (mget s.design.locals (8 * m + j)).map fun e => e.1.val
def State.clkRuns (s : State) (m : Nat) (c : FabClk) : Bool := match s.clkSource m c with | some k => s.fclkRuns m k | none => false

/-- The clock regions receive up to 24 clocks each (R53). -/
def State.cregClks (s : State) (m c : Nat) : List FabClk := (mgetD [] s.design.cregs (16 * m + c)).take 24

/-- The clock that the image gives a unit in a slot runs there (R53); a unit for which the image names none is clocked with its region. -/
def State.unitClk (s : State) (m slot : Nat) (c : Option FabClk) : Bool :=
  s.slotUp m slot && match c with | none => true | some c => (s.cregClks m (slot / 2)).contains c && s.clkRuns m c

/-- A fabric die is powered: PWR_STATE is neither off nor powering up. -/
def State.diePowered (s : State) (m : Nat) : Bool := decide (2 ≤ s.fld (Pg.fabCtl m) Fld.FABCTL_DIE_STAT_PWR_STATE)

/-! ### Memories, ports and words -/

/-- The number of a memory: block memories and deep memories of a die are numbered apart. -/
def MemPort.memNo (p : MemPort) : Nat := (p.die.val * 2 + p.deep.toNat) * 3072 + p.mem.val

/-- The slot in which a memory lies (Table 02.1, log 37). -/
def MemPort.slot (p : MemPort) : Nat := if p.deep then p.mem.val / 8 else p.mem.val / 96

/-- The number of a port. -/
def MemPort.portNo (p : MemPort) : Nat := p.memNo * 2 + p.portB.toNat

/-- The key of a word of a memory. -/
def wordKey (memNo addr : Nat) : Nat := memNo * 16384 + addr

/-- A word of a block or deep memory; a word nothing has written is the zero word with valid check bits (R46). -/
def State.bmWord (s : State) (memNo addr : Nat) : EccWord := mgetD (.ok 0) s.fab.bm (wordKey memNo addr)

/-- Stores a word. -/
def State.setBmWord (s : State) (memNo addr : Nat) (w : EccWord) : State :=
  { s with fab.bm := mputD (.ok 0) s.fab.bm (wordKey memNo addr) w }

/-- Decodes a word: SECDED (43,36) in block memories, (72,64) in deep memories (Table 10.1). -/
def bmDecode (deep : Bool) (w : EccWord) : EccResult :=
  if deep then w.decode else eccDecode 36 7 (w.data.toNat % 2 ^ 36) w.syn.toNat

/-- The data a decode yields: corrected where it can be, as stored where it cannot. -/
def EccResult.dataOr (r : EccResult) (w : EccWord) : DWord :=
  match r with
  | .corrected d => BitVec.ofNat 64 d
  | _ => w.data

/-- Whether the memory has the port and the address: port B exists in the two-port modes only; a block memory has 3,072 memories
of 2,048 words a die, a deep memory 256 of 16,384; a wide address counts pairs of words. -/
def MemPort.valid (p : MemPort) (mode : BmMode) : Bool :=
  let words := if p.deep then 16384 else 2048
  (!p.deep || decide (p.mem.val < 256)) && decide (p.addr.val < if mode = .wide then words / 2 else words)
    && (!p.portB || mode != .single) && !(p.deep && (mode == .tdp || mode == .fifo))

/-- The modes with one write port and one read port (Table 02.2, R45); port A is taken for the write port (log 130). -/
def BmMode.oneWay (m : BmMode) : Bool := m == .sdp || m == .wide || m == .fifo
def MemPort.mayRead (p : MemPort) (m : BmMode) : Bool := p.valid m && (!m.oneWay || p.portB)
def MemPort.mayWrite (p : MemPort) (m : BmMode) : Bool := p.valid m && (!m.oneWay || !p.portB)

/-- The port's clock runs (R40, R53, R54). -/
def State.memUp (s : State) (p : MemPort) : Bool := s.unitClk p.die p.slot (mget s.design.memClks p.portNo)

/-- The mode the image gives a memory; a memory no image describes is single port. -/
def State.bmMode (s : State) (memNo : Nat) : BmMode := mgetD .single s.design.bmMode memNo

/-- The words an access addresses: two in the ×72 (×128) width, else one. A wide address a names the words 2a and 2a + 1. -/
def bmAddrs (mode : BmMode) (addr : Nat) : List Nat := if mode = .wide then [2 * addr, 2 * addr + 1] else [addr]

/-- The bits of a word: 36 or 64. -/
def bmWidth (deep : Bool) : Nat := if deep then 64 else 36
/-- The bits of a byte enable's lane: 9 or 8 (R39, R45). -/
def bmLane (deep : Bool) : Nat := if deep then 8 else 9

/-! ### Outputs -/

/-- Sets a port's outputs. -/
def State.bmDrive (s : State) (port : Nat) (o : BmOut) : State := { s with fab.bmOut := mput s.fab.bmOut port o }

/-- Nothing on a port's outputs but the data last driven. -/
def State.bmQuiet (s : State) (port : Nat) : BmOut :=
  { mgetD ⟨0, false, false, false, false⟩ s.fab.bmOut port with sbe := false, dbe := false, wcoll := false, pwcoll := false }

/-! ### Port cycles (R41, R42) -/

def State.bmCycle (s : State) (memNo : Nat) : BmCycle := mgetD {} s.fab.bmCycle memNo
def State.setBmCycle (s : State) (memNo : Nat) (c : BmCycle) : State := { s with fab.bmCycle := mputD {} s.fab.bmCycle memNo c }

/-- A user write reaches a word: the write-backs noted for it are dropped (R44, R243). -/
def State.bmDropWriteBack (s : State) (memNo addr : Nat) : State :=
  { s with fab.writeBack := s.fab.writeBack.filterMap fun e =>
      if e.1 / 2 = memNo then
        match e.2.filter fun x => x.1 != addr with
        | [] => none
        | l => some (e.1, l)
      else some e }

/-- A word is stored in the current cycle: reads in this cycle still see what it held before (R41). -/
def State.bmStore (s : State) (memNo addr : Nat) (w : EccWord) : State :=
  let c := s.bmCycle memNo
  let s := if c.old.any fun e => e.1 == addr then s else s.setBmCycle memNo { c with old := (addr, s.bmWord memNo addr) :: c.old }
  (s.bmDropWriteBack memNo addr).setBmWord memNo addr w

/-- The next port cycle begins: the merges of the partial writes of the cycle before are stored in it, which occupies their ports (R42). -/
def State.bmNext (s : State) (memNo : Nat) : State :=
  let c := s.bmCycle memNo
  c.merges.foldl (fun s m => s.bmStore memNo m.addr m.word) (s.setBmCycle memNo { busy := c.merges.map BmMerge.portB })

/-- Port cycles without an access have passed: nothing of the latest ones matters any more. -/
def State.bmSettle (s : State) (memNo : Nat) : State := (s.bmNext memNo).setBmCycle memNo {}

/-- The port cycle of an access. -/
def State.bmBegin (s : State) (memNo : Nat) : PortCycle → State
  | .same => s
  | .next => s.bmNext memNo
  | .later => s.bmSettle memNo

/-- What an access in the current cycle reads: the word as it was before the cycle's stores (R41, R42). -/
def State.bmSeen (s : State) (memNo addr : Nat) : EccWord :=
  match (s.bmCycle memNo).old.find? fun e => e.1 == addr with
  | some e => e.2
  | none => s.bmWord memNo addr

/-! ### Error recording (R43) -/

/-- Counts an error of a memory and records it in LAST_ERR_LOC and LAST_ERR_SYN unless a record stands (R43, R45). -/
def State.bmError (s : State) (p : MemPort) (addr : Nat) (syn : Byte) (dbe : Bool) : State :=
  let pg := Pg.fabMem p.die
  let s := s.trb pg ((if p.deep then 2 else 0) + dbe.toNat)
  let s := if dbe then s.raise pg Evt.FABMEM_DBE else s
  if s.bit pg Fld.FABMEM_LAST_ERR_LOC_VALID then s
  else
    let s := s.setFld pg Fld.FABMEM_LAST_ERR_LOC_DEEP p.deep.toNat
    let s := s.setFld pg Fld.FABMEM_LAST_ERR_LOC_DBE dbe.toNat
    let s := s.setFld pg Fld.FABMEM_LAST_ERR_LOC_INDEX p.mem
    let s := s.setFld pg Fld.FABMEM_LAST_ERR_LOC_ADDR addr
    let s := s.setFld pg Fld.FABMEM_LAST_ERR_SYN_SYNDROME (if p.deep then syn.toNat else syn.toNat % 128)
    s.setFld pg Fld.FABMEM_LAST_ERR_LOC_VALID 1

/-- The target code of Table 10.1. -/
def bmTarget (deep : Bool) : Nat := if deep then 2 else 1

/-- Write-back of corrected words is on (R44, R45). -/
def State.bmWbOn (s : State) (p : MemPort) : Bool :=
  s.bit (Pg.fabMem p.die) (if p.deep then Fld.FABMEM_BM_ECC_CTRL_DM_WB_EN else Fld.FABMEM_BM_ECC_CTRL_BM_WB_EN)
    && !s.isRaw (bmTarget p.deep) p.die p.mem

/-- Notes a corrected word for its write-back, unless a store of this very cycle has replaced it (R44). -/
def State.bmNote (s : State) (p : MemPort) (addr : Nat) (w : EccWord) : State :=
  if s.bmWbOn p && !(s.bmCycle p.memNo).old.any (fun e => e.1 == addr) then
    { s with fab.writeBack := mput s.fab.writeBack p.portNo (((mgetD [] s.fab.writeBack p.portNo).filter fun e => e.1 != addr) ++ [(addr, w)]) }
  else s

/-- Reads and checks one word through a port: counts, records, and notes the write-back of a corrected word (R43, R44). In raw mode
the outputs stay low, nothing is counted and nothing is written back (R44, R257). Answers the data, SBE and DBE. -/
def State.bmRead1 (s : State) (p : MemPort) (addr : Nat) : DWord × Bool × Bool × State :=
  let w := s.bmSeen p.memNo addr
  let raw := s.isRaw (bmTarget p.deep) p.die p.mem
  match bmDecode p.deep w with
  | .clean => (w.data, false, false, s)
  | .corrected d =>
    let d := BitVec.ofNat 64 d
    if raw then (d, false, false, s) else (d, true, false, (s.bmError p addr w.syn false).bmNote p addr (.ok d))
  | .uncorrectable => if raw then (w.data, false, false, s) else (w.data, false, true, s.bmError p addr w.syn true)

/-- The lanes of a word: 8 of 8 bits, or 4 of 9 bits. -/
def bmLanes (deep : Bool) : Nat := if deep then 8 else 4

/-- One word of a write: stored at once when every byte enable is set; else the word is read and corrected, as any read is (R43), and merged, to be stored
in the next cycle (R42). Answers SBE and DBE of that read. -/
def State.bmWrite1 (s : State) (p : MemPort) (addr : Nat) (be : Nat) (data : DWord) : Bool × Bool × State :=
  if be % 2 ^ bmLanes p.deep = 2 ^ bmLanes p.deep - 1 then
    (false, false, s.bmStore p.memNo addr (.ok (BitVec.ofNat 64 (data.toNat % 2 ^ bmWidth p.deep))))
  else
    let (now, sbe, dbe, s) := s.bmRead1 p addr
    let s := s.bmDropWriteBack p.memNo addr
    let c := s.bmCycle p.memNo
    (sbe, dbe, s.setBmCycle p.memNo { c with merges := c.merges ++
      [⟨p.portB, addr, .ok (mergeLanes (bmLane p.deep) (bmLanes p.deep) be now data)⟩] })

/-- The effect of the other port's write to a word in this cycle is undone (R41). -/
def State.bmUndo (s : State) (memNo addr : Nat) : State :=
  let c := s.bmCycle memNo
  (s.setBmWord memNo addr (s.bmSeen memNo addr)).setBmCycle memNo { c with merges := c.merges.filter fun m => m.addr != addr }

/-- A write of one word in the current cycle. Where the other port of a true dual-port memory has written the word in the same cycle, port A's
data is stored and port B's write has no effect (R41). Answers SBE, DBE and whether the writes collided. -/
def State.bmWriteWord (s : State) (p : MemPort) (addr : Nat) (be : Nat) (data : DWord) : Bool × Bool × Bool × State :=
  let hit := (s.bmCycle p.memNo).wrote.contains (!p.portB, addr)
  if hit && p.portB then (false, false, true, s)
  else
    let r := (if hit then s.bmUndo p.memNo addr else s).bmWrite1 p addr be data
    let c := r.2.2.bmCycle p.memNo
    (r.1, r.2.1, hit, r.2.2.setBmCycle p.memNo { c with wrote := (p.portB, addr) :: c.wrote })

/-- A write of a port's words; a collision is counted and shown on WCOLL (R41, R43). -/
def State.bmWriteAll (s : State) (p : MemPort) (addrs : List Nat) (be : BitVec 16) (data : BitVec 128) : State :=
  let step (a : Bool × Bool × Bool × State) (e : Nat × Nat) : Bool × Bool × Bool × State :=
    let r := a.2.2.2.bmWriteWord p e.2 (fieldOf be (bmLanes p.deep * e.1) (bmLanes p.deep))
      (BitVec.ofNat 64 (fieldOf data (bmWidth p.deep * e.1) (bmWidth p.deep)))
    (a.1 || r.1, a.2.1 || r.2.1, a.2.2.1 || r.2.2.1, r.2.2.2)
  let r := ((List.range addrs.length).zip addrs).foldl step (false, false, false, s)
  let s := if r.2.2.1 then r.2.2.2.trb (Pg.fabMem p.die) 4 else r.2.2.2
  s.bmDrive p.portNo { s.bmQuiet p.portNo with sbe := r.1, dbe := r.2.1, wcoll := r.2.2.1 }

/-- The access falls in the cycle in which a merge occupies its port: it is refused with PWCOLL (R42). -/
def State.bmPwcoll (s : State) (p : MemPort) : Bool := (s.bmCycle p.memNo).busy.contains p.portB

/-- The refusal of an access in a merge cycle: PWCOLL for one cycle, counted in TRB4 (R42). -/
def State.bmRefuse (s : State) (p : MemPort) : State :=
  (s.trb (Pg.fabMem p.die) 4).bmDrive p.portNo { s.bmQuiet p.portNo with pwcoll := true }

/-! ### FIFO mode (Table 02.2) -/

def State.bmFifo (s : State) (memNo : Nat) : BmFifo := mgetD ⟨0, 0⟩ s.fab.bmFifo memNo

/-- The hardened flags of a FIFO. -/
def State.bmEmpty (s : State) (memNo : Nat) : Bool := (s.bmFifo memNo).count == 0
def State.bmFull (s : State) (memNo : Nat) : Bool := (s.bmFifo memNo).count == 2048

/-! ### The commands -/

/-- The words a read drives, one after the other. -/
def State.bmReadAll (s : State) (p : MemPort) (addrs : List Nat) : BitVec 128 × Bool × Bool × State :=
  let step (a : BitVec 128 × Bool × Bool × State) (e : Nat × Nat) : BitVec 128 × Bool × Bool × State :=
    let r := a.2.2.2.bmRead1 p e.2
    (withField a.1 (bmWidth p.deep * e.1) (bmWidth p.deep) r.1.toNat, a.2.1 || r.2.1, a.2.2.1 || r.2.2.1, r.2.2.2)
  ((List.range addrs.length).zip addrs).foldl step (0, false, false, s)

/-- BLOCK_MEMORY_READ (R39, R41 to R43, R45): the word is checked, corrected and driven with SBE or DBE. In FIFO mode the oldest word
is read and leaves the FIFO; an empty FIFO answers nothing. -/
def execBlockMemoryRead (p : MemPort) (s : State) : Out :=
  let mode := s.bmMode p.memNo
  if !s.memUp p || !p.mayRead mode then .next s
  else
    let s := s.bmBegin p.memNo p.cyc
    if s.bmPwcoll p then .next (s.bmRefuse p)
    else
      let q := s.bmFifo p.memNo
      if mode = .fifo ∧ q.count = 0 then .next s
      else
        let r := s.bmReadAll p (if mode = .fifo then [q.rd] else bmAddrs mode p.addr.val)
        let s := r.2.2.2.bmDrive p.portNo ⟨r.1, r.2.1, r.2.2.1, false, false⟩
        .next (if mode = .fifo then { s with fab.bmFifo := mput s.fab.bmFifo p.memNo ⟨(q.rd + 1) % 2048, q.count - 1⟩ } else s)

/-- BLOCK_MEMORY_WRITE (R39, R41, R42, R45): a full write is stored, a partial one merged in the next cycle; a write of both
ports of a true dual-port memory to one word stores port A's data, pulses WCOLL and counts in TRB4. `other` is what the other port
writes to the same address in the same cycle. In FIFO mode the word is appended; a full FIFO takes nothing. -/
def execBlockMemoryWrite (p : MemPort) (be : BitVec 16) (data : BitVec 128) (other : Option MemWrite) (s : State) : Out :=
  let mode := s.bmMode p.memNo
  if !s.memUp p || !p.mayWrite mode then .next s
  else
    let s := s.bmBegin p.memNo p.cyc
    if s.bmPwcoll p then .next (s.bmRefuse p)
    else if mode = .fifo then
      let q := s.bmFifo p.memNo
      if q.count = 2048 then .next s
      else
        let s := s.bmWriteAll p [(q.rd + q.count) % 2048] 15 data
        .next { s with fab.bmFifo := mput s.fab.bmFifo p.memNo ⟨q.rd, q.count + 1⟩ }
    else
      let addrs := bmAddrs mode p.addr.val
      let s := s.bmWriteAll p addrs be data
      let q : MemPort := { p with portB := !p.portB }
      .next (match other with
        | some o => if mode = .tdp ∧ !s.bmPwcoll q then s.bmWriteAll q addrs o.be o.data else s
        | none => s)

/-- CORRECTED_WORD_WRITE_BACK (R44): in a cycle in which its port is idle, the words corrected for a port are written back; nothing
happens where a user write dropped them, where the memory is in raw mode or where write-back is off. -/
def execCorrectedWordWriteBack (p : MemPort) (s : State) : Out :=
  if !s.memUp p then .next s
  else
    let s := s.bmBegin p.memNo p.cyc
    if s.bmPwcoll p then .next s
    else
      let l := mgetD [] s.fab.writeBack p.portNo
      let s' : State := { s with fab.writeBack := mdel s.fab.writeBack p.portNo }
      .next (if s.bmWbOn p then l.foldl (fun s e => s.setBmWord p.memNo e.1 e.2) s' else s')

end Sys2Proof.Machine
end

