-- ==== Sys2Proof/Machine/Ports.lean ====
section
/-!
DEFINITION. The fabric's ring ports (R56 to R61): response slots, outstanding tags, and requests presented in target mode.
-/
namespace Sys2Proof.Machine

/-- The page of a ring port; ports are numbered 8m + p. -/
def portPg (p : Nat) : Nat := Pg.fabPrt (p / 8) (p % 8)

/-- MODE of a port: bit 0 initiator, bit 1 target (Table 02.18). -/
def State.portMode (s : State) (p : Nat) : Nat := s.fld (portPg p) Fld.FABPRT_PORT_CTRL_MODE
def State.portTid (s : State) (p : Nat) : BitVec 9 := BitVec.ofNat 9 (s.fld (portPg p) Fld.FABPRT_PORT_TENANT_TID)

/-- A port's fabric clock runs: its clock region's gate is open, and the FCLK reaches the die (R53, R54). -/
def State.portClk (s : State) (p : Nat) : Bool :=
  s.dieUp (p / 8) && s.design.children.all fun c => c.kind != 3 || c.index != p || (s.cregOpen c.die c.creg && s.fclkRuns c.die c.fclk)

/-- A port grants credits: its clock runs, it is enabled, a disable is not waiting (Table 02.18). -/
def State.portActive (s : State) (p : Nat) : Bool :=
  s.portClk p && s.bit (portPg p) Fld.FABPRT_PORT_CTRL_ENABLE && !s.fab.disabling.contains p

/-- A response enters a reserved slot of a port (R58). -/
def State.portRespond (s : State) (p : Nat) (tag : Byte) (st : Status) (data : Line) (dup : Bool) : State :=
  let q := mgetD [] s.fab.rsp p
  { s with fab.rsp := mput s.fab.rsp p (q ++ [⟨dup, tag, st, data⟩]) }

/-- A response is delivered to the fabric: BUS_ERROR and DOMAIN_OFF count in TRB0, POISON in TRB3 (R59, Table 02.9). -/
def State.portCount (s : State) (p : Nat) : Status → State
  | .busError | .domainOff => s.trb (portPg p) 0
  | .poison => s.trb (portPg p) 3
  | .ok => s

/-- A non-posted request takes a response slot and makes its tag outstanding; the refusal of a duplicate takes a slot only. -/
def State.portReserve (s : State) (p : Nat) (tag : Option Byte) : State :=
  let pg := portPg p
  let s := s.setFld pg Fld.FABPRT_RSP_SLOTS_FREE (s.fld pg Fld.FABPRT_RSP_SLOTS_FREE - 1)
  match tag with
  | none => s
  | some t =>
    let s := s.setFld pg Fld.FABPRT_OUTSTANDING_COUNT (s.fld pg Fld.FABPRT_OUTSTANDING_COUNT + 1)
    { s with fab.outTags := mput s.fab.outTags p (mgetD [] s.fab.outTags p ++ [t]) }

/-- A disable that waits takes effect once no request is outstanding (Table 02.18). -/
def State.portSettle (s : State) (p : Nat) : State :=
  if s.fab.disabling.contains p && s.fld (portPg p) Fld.FABPRT_OUTSTANDING_COUNT == 0 then
    { s.setFld (portPg p) Fld.FABPRT_PORT_CTRL_ENABLE 0 with fab.disabling := s.fab.disabling.filter (· ≠ p) }
  else s

/-- A write of PORT_CTRL.ENABLE: 1 at once; 0 once OUTSTANDING is 0. -/
def effPortEnable (p : Nat) (on : Bool) (s : State) : State :=
  if on then { s.setFld (portPg p) Fld.FABPRT_PORT_CTRL_ENABLE 1 with fab.disabling := s.fab.disabling.filter (· ≠ p) }
  else if s.bit (portPg p) Fld.FABPRT_PORT_CTRL_ENABLE && !s.fab.disabling.contains p then
    { s with fab.disabling := p :: s.fab.disabling }.portSettle p
  else s

/-- RESPONSE_ACCEPT: the fabric takes the oldest held response; its slot is free again and its tag no longer outstanding (R58). -/
def execResponseAccept (port : Fin 64) (s : State) : Out :=
  match mgetD [] s.fab.rsp port with
  | [] => .next s
  | r :: rest =>
    if !s.portClk port then .next s
    else
      let pg := portPg port
      let s := { s with fab.rsp := mput s.fab.rsp port rest }
      let s := s.setFld pg Fld.FABPRT_RSP_SLOTS_FREE (s.fld pg Fld.FABPRT_RSP_SLOTS_FREE + 1)
      let s := if r.dup then s
        else { s.setFld pg Fld.FABPRT_OUTSTANDING_COUNT (s.fld pg Fld.FABPRT_OUTSTANDING_COUNT - 1) with
               fab.outTags := mput s.fab.outTags port ((mgetD [] s.fab.outTags port).erase r.tag) }
      .next (((s.emit (.portRsp port r.tag r.status r.data)).portCount port r.status).portSettle port)

/-- EVT: the oldest entry of a port's error queue is transferred to the fabric, which the model takes to be ready at every edge (R56, R161; log 132). -/
def State.portEvt (s : State) (p : Nat) : State :=
  let key := ifKey (portAt p).1 (portAt p).2
  match mgetD [] s.rings.errq key with
  | [] => s
  | e :: rest => if s.portClk p then { s with rings.errq := mput s.rings.errq key rest }.emit (.portEvt p e.1 e.2.1 e.2.2) else s
def State.portEvts (s : State) : State := (List.range 64).foldl State.portEvt s

/-! ### Target mode (R61) -/

/-- A request that reaches a port in target mode: presented on REQ under the lowest tag that no presented or timed-out request bears (the spec says nothing of
how the port draws the tag: DESIGN CHOICE, log 132); a posted write awaits no response and its PACK
is given at once (R161). -/
def State.portPresent (s : State) (p : Nat) (t : TxnKey) (x : Txn) : State :=
  let used := (mgetD [] s.fab.tgt p).map Prod.fst ++ mgetD [] s.fab.lateTgt p
  let tag := ((List.range 256).map (BitVec.ofNat 8)).find? fun g => !used.contains g
  match tag with
  | none => s
  | some g =>
    let s := s.emit (.portReq p g x.typ x.addr x.len x.data x.be)
    if x.typ = .wrp then s.answer t .ok 0
    else { s.setTxn t { x with phase := .delivered } with
           fab.tgt := mput s.fab.tgt p (mgetD [] s.fab.tgt p ++ [(g, ⟨t, false, false⟩)]) }

/-- TARGET_RESPONSE: the fabric answers a presented request; a late answer is discarded and counted in TRB1 (R61). -/
def execTargetResponse (port : Fin 64) (tag : BitVec 8) (status : Status) (data : Line) (s : State) : Out :=
  let q := mgetD [] s.fab.tgt port
  if !s.portClk port then .next s
  else
  match q.find? fun e => e.1 == tag with
  | some e =>
    let s := { s with fab.tgt := mput s.fab.tgt port (q.filter fun e => e.1 != tag) }
    .next (s.answer e.2.txn status (if status = .ok ∨ status = .poison then data else 0))
  | none =>
    let late := mgetD [] s.fab.lateTgt port
    if late.contains tag then
      .next ({ s with fab.lateTgt := mput s.fab.lateTgt port (late.erase tag) }.trb (portPg port) 1)
    else .next s

/-- TARGET_TIMEOUT: the port answers BUS_ERROR for the fabric and counts in TRB1 (R61). -/
def execTargetTimeout (port : Fin 64) (tag : BitVec 8) (s : State) : Out :=
  let q := mgetD [] s.fab.tgt port
  match q.find? fun e => e.1 == tag with
  | none => .next s
  | some e =>
    let s := { s with fab.tgt := mput s.fab.tgt port (q.filter fun e => e.1 != tag),
                      fab.lateTgt := mput s.fab.lateTgt port (mgetD [] s.fab.lateTgt port ++ [tag]) }
    .next ((s.answer e.2.txn .busError 0).trb (portPg port) 1)

end Sys2Proof.Machine
end

