-- ==== Sys2Proof/Machine/DieCache.lean ====
section
/-!
DEFINITION. The die caches and the requests of ring ports (R58, R60, R179 to R187, R189, R193, R525).
-/
namespace Sys2Proof.Machine

/-! ### State shown and messages -/

/-- DC_STAT.STATE: 0 off, 1 on, 2 writing back, 3 clear. -/
def State.dcState (s : State) (m : Nat) : Nat := s.fld (Pg.dc m) Fld.DC_DC_STAT_STATE
def State.setDcState (s : State) (m n : Nat) : State := s.setFld (Pg.dc m) Fld.DC_DC_STAT_STATE n

/-- WB_LEFT and SNP_HELD follow the lines and snoops held. -/
def State.syncDc (s : State) (m : Nat) : State :=
  let left := (s.coh.dc.filter fun e => e.1 / 2 ^ 42 == m && decide (e.2.st = Mesi.m)).length
  let s := if s.dcState m = 2 then s.setFld (Pg.dc m) Fld.DC_WB_LEFT_LINES left else s.setFld (Pg.dc m) Fld.DC_WB_LEFT_LINES 0
  s.setFld (Pg.dc m) Fld.DC_SNP_HELD_COUNT ((s.coh.held.filter fun e => e.1 / 2 ^ 42 == m).length)

def State.dcLine (s : State) (m line : Nat) : Option DcLine := mget s.coh.dc (dcKey m line)
def State.setDcLine (s : State) (m line : Nat) (l : DcLine) : State := { s with coh.dc := mput s.coh.dc (dcKey m line) l }
def State.delDcLine (s : State) (m line : Nat) : State := { s with coh.dc := mdel s.coh.dc (dcKey m line) }
def State.dcWait (s : State) (m line : Nat) : List DcReq := mgetD [] s.coh.wait (dcKey m line)
def State.setDcWait (s : State) (m line : Nat) (l : List DcReq) : State := { s with coh.wait := mputD [] s.coh.wait (dcKey m line) l }

/-- A die cache writes a line back: it holds it no more and awaits a CACK (R184, R187). -/
def State.writeBack (s : State) (m line : Nat) (l : DcLine) (poison : Bool) : State :=
  let s := (s.delDcLine m line).sendDc m (homeSlice line) (.cwb line l.data poison l.kid l.tid)
  { s with coh.cwbOut := dcKey m line :: s.coh.cwbOut }

/-- A line's stored data as read: corrected errors count in TRB0, an uncorrectable one in TRB1 (R183); nothing counts in raw mode. -/
def State.dcRead (s : State) (m : Nat) (l : DcLine) : Line × Bool × State :=
  let (d, cor, bad) := lineDecode l.data l.syn
  let tag := eccDecode 32 7 0 l.tagSyn.toNat
  let cor := cor || (match tag with | .corrected _ => true | _ => false)
  let bad := bad || (match tag with | .uncorrectable => true | _ => false)
  if s.isRaw 6 m 0 then (d, bad, s)
  else
    let s := if cor then s.trb (Pg.dc m) 0 else s
    (d, bad, if bad then s.trb (Pg.dc m) 1 else s)

def dcSet (m line : Nat) : Nat := m * 16384 + line % 16384

/-- The way for a line that is asked for, kept until its grant: its own; else a free one or that of a line without a transaction, which is written back or dropped (R175, R181). None
while no permitted way can be had: the request waits. -/
def State.dcAlloc (s : State) (m line tid : Nat) : Option (Nat × State) :=
  match s.dcLine m line with
  | some l => some (l.way, s)
  | none =>
    let here (k : Nat) : Bool := k / 2 ^ 42 == m && k % 16384 == line % 16384
    let held := s.coh.dc.filter fun e => here e.1
    let kept := (s.coh.crd.filter fun e => here e.1).map fun e => (e.2.2, false)
    let b := mgetD 0 s.coh.dcPlru (dcSet m line)
    match pickWay b (s.dcMask tid) ((held.map fun e => (e.2.way, (mget s.coh.crd e.1).isNone)) ++ kept) with
    | none => none
    | some w =>
      let s := match held.find? fun e => e.2.way == w with
        | none => s
        | some e => if e.2.st = Mesi.m then
            let (d, bad, s) := s.dcRead m e.2
            s.writeBack m (e.1 % 2 ^ 42) { e.2 with data := d } bad
          else s.delDcLine m (e.1 % 2 ^ 42)
      some (w, { s with coh.dcPlru := mput s.coh.dcPlru (dcSet m line) (plruTouch b w) })

/-! ### Port requests -/

/-- The access of a port request within its line. -/
def DcReq.bytes (q : DcReq) : Nat := accBytes q.r.len (fieldOf q.r.addr 0 6) q.r.be
def DcReq.line (q : DcReq) : Nat := fieldOf q.r.addr 6 42
def DcReq.isCmo (q : DcReq) : Bool := q.typ == .clean || q.typ == .flush
def DcReq.kid (q : DcReq) : BitVec 10 := BitVec.ofNat 10 (fieldOf q.r.addr 48 10)

/-- Answers a port's request that its die cache has served; a posted write has no answer. -/
def State.dcAnswer (s : State) (m : Nat) (q : DcReq) (st : Status) (data : Line) : State :=
  if q.typ = .wrp then s else s.portRespond (8 * m + q.port) q.r.tag st data false

/-- Passes a request to the home as a request of the die cache's interface, a CMO unchanged (R181, R192 to R194, R525); later ones of its port and line wait for its answer (R182). -/
def State.dcPass (s : State) (m : Nat) (q : DcReq) : State :=
  let e : EpEntry := ⟨q.typ, { q.r with who := BitVec.ofNat 12 q.port }, q.tid, false⟩
  { s with coh.passed := s.coh.passed ++ [(dcKey m q.line, q.port, q.isCmo)] }.handIn (dcacheAt m).1 0 e

/-- A die cache asks the home for a line (R184), a way kept for it. -/
def State.dcAsk (s : State) (m line : Nat) (kind : CrdKind) (q : DcReq) : State :=
  match s.dcAlloc m line q.tid.toNat with
  | none => s
  | some (w, s) => { s.sendCrd m ⟨line, kind, q.kid, q.tid⟩ with coh.crd := mput s.coh.crd (dcKey m line) (kind, w) }

/-- The die cache allocates for a tenant: its class has ways and no flush runs; one held in reset is bypassed (R181, R193, R194). -/
def State.dcCaches (s : State) (m tid : Nat) : Bool :=
  s.dcMask tid != 0 && s.dcState m == 1 && !s.bit (Pg.dc m) Fld.DC_DC_STAT_ABSENT

/-- A request on a line that the die cache holds (R179, R181, R183); `rest` waits behind it. POISON comes with the data as the array gives it (R59). -/
def State.dcHit (s : State) (m line : Nat) (l : DcLine) (q : DcReq) (rest : List DcReq) : State :=
  let (d, bad, s) := s.dcRead m l
  let s := { s with coh.dcPlru := mput s.coh.dcPlru (dcSet m line) (plruTouch (mgetD 0 s.coh.dcPlru (dcSet m line)) l.way) }
  if bad && !(l.st = Mesi.m) then s.delDcLine m line
  else if q.typ = .rd then
    let s := if bad then s.writeBack m line { l with data := d } true else s
    (s.setDcWait m line rest).dcAnswer m q (if bad then .poison else .ok) (mergeLanes 8 64 q.bytes 0 d)
  else if bad && q.bytes != 2 ^ 64 - 1 then s.writeBack m line { l with data := d } true
  else if l.st = Mesi.s then s.dcAsk m line .upg q
  else
    let s := s.setDcLine m line { l with st := .m, data := mergeLanes 8 64 q.bytes d q.r.data, syn := 0, tagSyn := 0 }
    (s.setDcWait m line rest).dcAnswer m q .ok 0

/-- Serves the waiting requests of a line in order, as far as they go (R179, R181 to R183). -/
def State.dcRun (s : State) (m line : Nat) : (fuel : Nat) → State
  | 0 => s
  | n + 1 =>
    match s.dcWait m line with
    | [] => s
    | q :: rest =>
      if (mget s.coh.crd (dcKey m line)).isSome || s.coh.cwbOut.contains (dcKey m line)
          || (s.coh.passed.any fun e => e.1 == dcKey m line && e.2.1 == q.port) then s
      else if q.isCmo || s.dcState m == 2 then ((s.setDcWait m line rest).dcPass m q).dcRun m line n
      else
        match s.dcLine m line with
        | none =>
          if !s.dcCaches m q.tid.toNat then ((s.setDcWait m line rest).dcPass m q).dcRun m line n
          else s.dcAsk m line (if q.typ = .rd then .rds else .rdx) q
        | some l =>
          if l.kid ≠ q.kid ∨ l.tid ≠ q.tid ∨ s.slotState q.kid.toNat ≠ 2 then
            -- a forced miss: the copy is given up first (log 27)
            let s := s.trb (Pg.dc m) 2
            (if l.st = Mesi.m then
              let (d, bad, s) := s.dcRead m l
              s.writeBack m line { l with data := d } bad
            else s.delDcLine m line).dcRun m line n
          else (s.dcHit m line l q rest).dcRun m line n

/-- Serves a line's requests, then those of its set, which may have waited for a way. -/
def State.dcGo (s : State) (m line : Nat) : State :=
  let go (s : State) (l : Nat) : State := s.dcRun m l (4 * (s.dcWait m l).length + 4)
  let s := go s line
  let set := (s.coh.wait.map Prod.fst).filter fun k => k / 2 ^ 42 == m && k % 16384 == line % 16384
  (set.foldl (fun s k => go s (k % 2 ^ 42)) s).syncDc m


/-- FABRIC_PORT_REQUEST: a REQ transfer is accepted against a reserved response slot; a duplicate tag is refused with BUS_ERROR and counted in
TRB2 (R58). A cacheable request of a port with CACHED = 1 is checked (R149) and looked up in the die cache (R60, R179), a CMO of
such a port goes through the die cache unchanged (R192); any other waits for injection (Table 06.7). A fence begins (R160). -/
def execFabricPortRequest (port : Fin 64) (typ : ReqType) (r : EpReq) (s : State) : Out :=
  let p := port.val
  let m := p / 8
  let (stop, ifc) := portAt p
  let posted := decide (typ = .wrp)
  if !s.portActive p || s.portMode p % 2 == 0 || !s.mayIssue stop ifc
      || (!posted && s.fld (portPg p) Fld.FABPRT_RSP_SLOTS_FREE == 0) then .next s
  else if !posted && (mgetD [] s.fab.outTags p).contains r.tag then
    .next (((s.portReserve p none).portRespond p r.tag .busError 0 true).trb (portPg p) 2)
  else if typ = .fence then
    let s := s.portReserve p (some r.tag)
    .next (s.fenceStart stop ifc (some r.tag))
  else
    let tid := s.portTid p
    let cached := s.bit (portPg p) Fld.FABPRT_PORT_CTRL_CACHED && cacheable (fieldOf r.addr 0 48)
      && !s.bit (Pg.dc m) Fld.DC_DC_STAT_ABSENT
    if cached then
      match s.checkReq stop typ tid r with
      | none =>
        let s := s.refuseReq stop
        if posted then .next (s.errEntry stop ifc (BitVec.ofNat 48 (fieldOf r.addr 0 48)) (BitVec.ofNat 10 (fieldOf r.addr 48 10)) .busError)
        else .next ((s.portReserve p (some r.tag)).portRespond p r.tag .busError 0 false)
      | some _ =>
        let s := if posted then s else s.portReserve p (some r.tag)
        let q : DcReq := ⟨p % 8, typ, r, tid⟩
        .next ((s.setDcWait m q.line (s.dcWait m q.line ++ [q])).dcGo m q.line)
    else
      let e : EpEntry := ⟨typ, r, tid, false⟩
      if (s.queueOf stop ifc typ r.addr.toNat).room ≤ (s.epQ (ifKey stop ifc) (s.queueOf stop ifc typ r.addr.toNat)).length then .next s
      else .next ((if posted then s else s.portReserve p (some r.tag)).handIn stop ifc e)

/-! ### Snoops (R183, R184, R187, R189) -/

/-- A die cache answers a snoop from its present state. -/
def State.dcSnoop (s : State) (m : Nat) (x : SnpMsg) : State :=
  let line := x.line
  let send (s : State) (a : SnpAns) : State := s.sendDc m (homeSlice line) (.srsp line a)
  let s := match s.dcLine m line with
    | none => send s .none
    | some l =>
      if l.st = Mesi.m then
        let (d, bad, s) := s.dcRead m l
        if bad then send (s.writeBack m line { l with data := d } true) .none
        else
          let s := s.trb (Pg.dc m) 3
          let s := match x.kind with
            | .snps => s.setDcLine m line { l with st := .s, data := d, syn := 0, tagSyn := 0 }
            | .snpi => s.delDcLine m line
            | .snpc => s.setDcLine m line { l with st := .e, data := d, syn := 0, tagSyn := 0 }
          send s (.dirty d)
      else
        let s := match x.kind with
          | .snps => s.setDcLine m line { l with st := .s }
          | .snpi => s.delDcLine m line
          | .snpc => s
        send s .clean
  s.syncDc m

/-- A snoop reaches a die's attachment point: DOMAIN_OFF for an interface that is snuffing or off, and the home waits for the write-back
(R189, R190); held with AG = 1 while a CRD of the line is outstanding (R187); else answered. -/
def State.snpArrive (s : State) (m line : Nat) (kind : SnpKind) : State :=
  let k := chKey m (homeSlice line)
  match mgetD [] s.coh.snpCh k with
  | [] => s
  | x :: rest =>
    if x.line ≠ line ∨ x.kind ≠ kind ∨ s.cohWaits (.snp k) then s
    else
      let s : State := { s.landed (.snp k) with coh.snpCh := mputD [] s.coh.snpCh k rest }
      let (stop, ifc) := dcacheAt m
      let st := s.ifState stop ifc
      if st = 3 ∨ st = 4 then
        let s := s.trb (Pg.stop stop) 2
        match s.trk line with
        | t :: _ =>
          if t.need.getLsbD m then
            -- the write-back or its end may have reached the home already
            if (s.fld (Pg.sc (homeSlice line)) Fld.SC_SC_STAT_WALK).testBit m || (s.coh.dclrSent.contains m || s.dcState m == 0) &&
                !(mgetD [] s.coh.dcCh k).any (fun y => decide (y = .dclr)) then s.snpAnswer line m .none
            else s.setActive line { t with domOff := t.domOff ||| ((1 : Byte) <<< m) }
          else s
        | [] => s
      else if x.ag && (mget s.coh.crd (dcKey m line)).isSome then
        ({ s with coh.held := mput s.coh.held (dcKey m line) x }).syncDc m
      else s.dcSnoop m x

/-- SNPS: a die cache downgrades its copy to S and answers. -/
def execSnps (die : Fin 8) (line : LineAddr) (s : State) : Out := .next (s.snpArrive die line.toNat .snps)
/-- SNPI: a die cache invalidates its copy and answers. -/
def execSnpi (die : Fin 8) (line : LineAddr) (s : State) : Out := .next (s.snpArrive die line.toNat .snpi)
/-- SNPC: a die cache returns modified data, keeps it as E, and answers. -/
def execSnpc (die : Fin 8) (line : LineAddr) (s : State) : Out := .next (s.snpArrive die line.toNat .snpc)

/-! ### Grants and acknowledgements -/

/-- A held snoop is answered after the grant is applied (R187). -/
def State.heldGo (s : State) (m line : Nat) : State :=
  match mget s.coh.held (dcKey m line) with
  | none => s
  | some x => { s with coh.held := mdel s.coh.held (dcKey m line) }.dcSnoop m x

/-- CGNT: a grant reaches its die cache: the line is filled and the waiting requests are served; a grant with BUS_ERROR or POISON grants
nothing: a read gets the status, a write goes to the home as a non-caching write, a posted one's failure to EVT too (R181, R184, R525; both for a posted write: DEDUCED,
log 137). A held snoop is answered then. -/
def execCgnt (die : Fin 8) (line : LineAddr) (s : State) : Out :=
  let m := die.val
  let l := line.toNat
  let k := chKey m (homeSlice l)
  match mgetD [] s.coh.homeCh k with
  | .cgnt l' excl data st :: rest =>
    if l' ≠ l ∨ s.cohWaits (.home k) then .next s
    else
      let way := (mget s.coh.crd (dcKey m l)).elim 0 Prod.snd
      let s : State := { s.landed (.home k) with coh.homeCh := mputD [] s.coh.homeCh k rest, coh.crd := mdel s.coh.crd (dcKey m l) }
      if st ≠ .ok then
        let s := s.delDcLine m l
        let s := match s.dcWait m l with
          | [] => s
          | q :: rest =>
            let s := s.setDcWait m l rest
            if q.typ = ReqType.rd then s.dcAnswer m q st (mergeLanes 8 64 q.bytes 0 (data.getD 0))
            else
              let (stop, ifc) := portAt (8 * m + q.port)
              let s := if q.typ = ReqType.wrp then s.errEntry stop ifc (BitVec.ofNat 48 (fieldOf q.r.addr 0 48)) q.kid st else s
              s.dcPass m q
        .next ((s.heldGo m l).dcGo m l)
      else
        let mesi : Mesi := if excl then .e else .s
        let wait := s.dcWait m l
        let (kid, tid) := match wait with | q :: _ => (q.kid, q.tid) | [] => (0, 0)
        let x : DcLine := match s.dcLine m l, data with
          | some x, none => { x with st := mesi }
          | _, d => ⟨mesi, d.getD 0, 0, 0, kid, tid, way⟩
        let s := s.setDcLine m l x
        -- what the home has checked is served whatever its slot has become since (R229)
        let s := match wait with | q :: rest => s.dcHit m l x q rest | [] => s
        .next ((s.dcGo m l).heldGo m l)
  | _ => .next s

/-- Every step of a die cache's write-back is over: within a snuff it is clear, else on again once the slices' walks have ended (R189,
R193). -/
def State.dcDone (s : State) (m : Nat) : State :=
  if s.dcState m = 2 && s.coh.dclrSent.contains m && !(s.coh.cwbOut.any fun k => k / 2 ^ 42 == m) then
    if s.coh.inSnuff.contains m then s.setDcState m 3
    else if (List.range 32).all fun sl => !(s.fld (Pg.sc sl) Fld.SC_SC_STAT_WALK).testBit m
        && !(mgetD [] s.coh.dcCh (chKey m sl)).any (fun y => decide (y = .dclr)) then
      (({ s with coh.dclrSent := s.coh.dclrSent.filter (· ≠ m) }.setDcState m 1)).syncDc m
    else s
  else s

/-- CACK: the acknowledgement of a write-back (R184, R189); requests of the line that waited for it go on. -/
def execCack (die : Fin 8) (line : LineAddr) (s : State) : Out :=
  let m := die.val
  let l := line.toNat
  let k := chKey m (homeSlice l)
  match mgetD [] s.coh.homeCh k with
  | .cack l' :: rest =>
    if l' ≠ l ∨ s.cohWaits (.home k) then .next s
    else
      let s : State := { s.landed (.home k) with coh.homeCh := mputD [] s.coh.homeCh k rest, coh.cwbOut := s.coh.cwbOut.filter (· ≠ dcKey m l) }
      .next ((s.dcGo m l).dcDone m)
  | _ => .next s

/-! ### Walks (R189, R190, R193, R233) -/

/-- Writes back the modified lines of a die cache that satisfy `p` and drops the others that do. -/
def State.dcWalk (s : State) (m : Nat) (p : DcLine → Bool) : State :=
  (s.coh.dc.filter fun e => e.1 / 2 ^ 42 == m && p e.2).foldl (fun s e =>
    let line := e.1 % 2 ^ 42
    if e.2.st = Mesi.m then
      let (d, bad, s) := s.dcRead m e.2
      s.writeBack m line { e.2 with data := d } bad
    else s.delDcLine m line) s

/-- DC_CTRL.FLUSH, and the start of a write-back within a snuff: STATE = writing back. -/
def effDcFlush (m : Nat) (s : State) : State := (s.setDcState m 2).syncDc m

/-- WRITE_BACK_WALK_END: with no CRD and no CMO outstanding the die cache sends a CWB for each M line, drops the others and sends a DCLR to each slice
(Table 07.5, steps 2 to 4). -/
def execWriteBackWalkEnd (die : Fin 8) (s : State) : Out :=
  let m := die.val
  if s.dcState m ≠ 2 ∨ s.coh.dclrSent.contains m ∨ (s.coh.crd.any fun e => e.1 / 2 ^ 42 == m)
      ∨ (s.coh.passed.any fun e => e.1 / 2 ^ 42 == m && e.2.2) then .next s
  else
    let s := s.dcWalk m fun _ => true
    let s := (List.range 32).foldl (fun s sl => s.sendDc m sl .dclr) s
    .next (({ s with coh.dclrSent := m :: s.coh.dclrSent }.syncDc m).dcDone m)

/-- CLEARING_WALK_END: the slice's walk for a die ends; the CRDs it held go on (R190). -/
def execClearingWalkEnd (die : Fin 8) (slice : Fin 32) (s : State) : Out :=
  let m := die.val
  let w := s.fld (Pg.sc slice) Fld.SC_SC_STAT_WALK
  if !w.testBit m then .next s
  else
    let s := s.setFld (Pg.sc slice) Fld.SC_SC_STAT_WALK (w - 2 ^ m)
    let mine (e : Nat × CrdMsg) : Bool := e.1 == m && homeSlice e.2.line == slice.val
    let go := s.coh.heldCrd.filter mine
    let s := { s with coh.heldCrd := s.coh.heldCrd.filter fun e => !mine e }
    .next ((go.foldl (fun s e =>
      let op : HomeOp := match e.2.kind with | .rds => .rds | .rdx => .rdx | .upg => .upg
      s.homeTake e.2.line ⟨op, .die m, e.2.kid, e.2.tid, 0, 0, 0, 0, .idle, 0, 0, false, false⟩) s).dcDone m)

/-- A die cache loses its power: its lines and everything that waits in it are gone. -/
def State.dcPowerOff (s : State) (m : Nat) : State :=
  let mine (k : Nat) : Bool := k / 2 ^ 42 == m
  { s with coh.dc := mkeep (fun k => !mine k) s.coh.dc, coh.wait := mkeep (fun k => !mine k) s.coh.wait,
           coh.crd := mkeep (fun k => !mine k) s.coh.crd, coh.held := mkeep (fun k => !mine k) s.coh.held,
           coh.cwbOut := s.coh.cwbOut.filter (fun k => !mine k), coh.inSnuff := s.coh.inSnuff.filter (· ≠ m),
           coh.dclrSent := s.coh.dclrSent.filter (· ≠ m), coh.dcPlru := mkeep (fun k => k / 16384 != m) s.coh.dcPlru,
           coh.crdCh := mkeep (fun k => k / 32 != m) s.coh.crdCh,
           coh.homeCh := mkeep (fun k => k / 32 != m) s.coh.homeCh,
           coh.passed := s.coh.passed.filter (fun e => !mine e.1),
           rings.flits := s.rings.flits.filter fun f => match f.ref with | .crd k | .home k => k / 32 != m | _ => true }

/-- PURGE_DIE_CACHE_WALK_END: one die cache has written back and dropped the lines of the key ID (Table 09.5, step 3); when all have,
step 4 begins. -/
def execPurgeDieCacheWalkEnd (die : Fin 8) (s : State) : Out :=
  match s.keys.purge with
  | none => .next s
  | some p =>
    if s.fld Pg.ime Fld.IME_PURGE_STAT_PHASE ≠ 2 ∨ p.dies.contains die.val then .next s
    else
      let s := (s.dcWalk die fun l => l.kid.toNat == p.slot).syncDc die
      let p := { p with dies := die.val :: p.dies }
      let s := { s with keys.purge := some p }
      let all := (List.range 8).all fun m => p.dies.contains m || s.dcState m == 0
      .next (if all then s.setFld Pg.ime Fld.IME_PURGE_STAT_PHASE 3 else s)

/-- PURGE_SLICE_WALK_END: with every write-back under the key ID applied, the slices' dirty lines of the key ID reach DRAM under the old
keys and its lines are invalidated; the purge ends (Table 09.5, steps 4 and 5). -/
def execPurgeSliceWalkEnd (s : State) : Out :=
  match s.keys.purge with
  | none => .next s
  | some p =>
    let mine (k : BitVec 10) : Bool := k.toNat == p.slot
    let flying := s.coh.dcCh.any fun e => e.2.any fun x => match x with | .cwb _ _ _ k _ => mine k | _ => false
    if s.fld Pg.ime Fld.IME_PURGE_STAT_PHASE ≠ 3 ∨ flying then .next s
    else
      let (dirty, s) := (s.coh.sc.filter fun e => mine e.2.kid && e.2.dirty).foldl (fun (acc : List WbLine × State) e =>
        match acc.2.scEvict e.1 e.2 with | (w, s) => (acc.1 ++ [w], s)) ([], s)
      let out := s.coh.wb.filter fun w => mine w.kid
      let s := { s with coh.wb := s.coh.wb.filter (fun w => !mine w.kid), coh.sc := s.coh.sc.filter fun e => !mine e.2.kid }
      let s := (out ++ dirty).foldl (fun s w =>
        match s.dramPlace w.line with
        | none => s
        | some (c, j) => let (x, s) := s.encodeLine w; (s.enqueue c j x).homeGo w.line) s
      .next (s.purgeDone p.slot)

end Sys2Proof.Machine
end

