-- ==== Sys2Proof/Machine/Locks.lean ====
section
/-!
DEFINITION. What the reset of a management agent does to page locks and mailbox channels (R473, R483), and the raising of WICKs (R24, R366).
-/
namespace Sys2Proof.Machine

/-- The page through which raw mode is entered. -/
def rawPage (t inst : Nat) : Nat :=
  if t = 1 ∨ t = 2 ∨ t = 6 ∨ t = 9 ∨ t = 0xA then 0x388 + inst
  else if t = 3 then 0x388 + inst / 3
  else if t = 4 ∨ t = 5 then 0x388 + inst / 12
  else if t = 0xB ∨ t = 0xC then 0x391 else 0x390

/-- The memories of an ECC page leave raw mode when its lock is released (R258). -/
def State.rawRelease (s : State) (pg : Nat) : State :=
  { s with integ.rawMode := s.integ.rawMode.filter fun e => rawPage e.1 e.2.1 != pg }

/-- Releases a page's lock with BROKEN set (R473). -/
def State.breakLock (s : State) (pg : Nat) : State :=
  let s := ((s.rawRelease pg).setFld pg Fld.PG_PG_LOCK_HELD 0).setFld pg Fld.PG_PG_LOCK_OWNER 0
  (s.setFld pg Fld.PG_PG_LOCK_BROKEN 1).raise pg Fld.PG_PG_EVT_LOCK_BROKEN

/-- The pages whose lock an agent that satisfies `p` holds. -/
def State.lockedPages (s : State) (p : Nat → Bool) : List Nat :=
  (s.regs.filter fun e => e.1 % 1024 == 6 && e.2.getLsbD 31 && p (fieldOf e.2 16 8)).map fun e => e.1 / 1024

/-- The fields of a mailbox channel (Table 19.16). -/
def State.chState (s : State) (c : Nat) : Nat := s.fld Pg.mbx (Fld.MBX_CH_STAT_STATE c)
def State.chOwner (s : State) (c : Nat) : Nat := s.fld Pg.mbx (Fld.MBX_CH_STAT_OWNER c)

/-- A channel becomes FREE; a request the firmware is running goes on without its channel. -/
def State.chFree (s : State) (c : Nat) : State :=
  let s := match mget s.mbx c with
    | some q => { s with mbx := mput s.mbx c { q with orphan := true } }
    | none => s
  (s.setFld Pg.mbx (Fld.MBX_CH_STAT_STATE c) 0).setFld Pg.mbx (Fld.MBX_CH_STAT_OWNER c) 0

/-- The channels of an agent that is reset become FREE, each counted in TRB1 (R483). -/
def State.chReset (s : State) (p : Nat → Bool) : State :=
  (List.range 8).foldl (fun s c => if s.chState c != 0 && p (s.chOwner c) then (s.chFree c).trb Pg.mbx 1 else s) s

/-- The event of Table 19.4 for the agents that satisfy `p`. -/
def State.agentReset (s : State) (p : Nat → Bool) : State :=
  ((s.lockedPages p).foldl (fun s pg => s.breakLock pg) s).chReset p

/-- A WICK towards the power manager or a clock gate is raised and stays until it is answered. -/
def State.raiseWick (s : State) (i : Island) : State :=
  if s.wicks.contains i then s else { s with wicks := s.wicks ++ [i] }

end Sys2Proof.Machine
end

