-- ==== Sys2Proof/Machine/Snuff.lean ====
section
/-!
DEFINITION. Interface states: snuffs, return to service, parked flits, what passes to an end point, and fences (R160, R165 to R170).
-/
namespace Sys2Proof.Machine

/-- An interface's own open transactions end: their tags are free, late answers will be discarded. -/
def State.endOwn (s : State) (stop ifc : Nat) : State :=
  let txns := mmap (fun k (x : Txn) => if k / 768 == stop && x.ifc == ifc then { x with live := false } else x) s.rings.txns
  let passed := match epKind stop ifc with | .dcache m => s.coh.passed.filter fun e => e.1 / 2 ^ 42 != m | _ => s.coh.passed
  { s with rings.txns := txns, coh.passed := passed }.syncPools stop

/-- The fence of an interface is complete: BUSY clears, a port's fence is answered OK (R160). -/
def State.fenceDone (s : State) (stop ifc : Nat) : State :=
  let key := ifKey stop ifc
  match mget s.rings.fences key with
  | none => s
  | some tag =>
    let b := s.fld (Pg.stop stop) Fld.STOP_FENCE_BUSY
    let s := { s with rings.fences := mdel s.rings.fences key, rings.fenced := mdel s.rings.fenced key }.setFld (Pg.stop stop) Fld.STOP_FENCE_BUSY
      (if b.testBit ifc then b - 2 ^ ifc else b)
    match tag, epKind stop ifc with
    | some g, .port p => s.portRespond p g .ok 0 false
    | _, _ => s

/-- Every request delivered to an interface and not answered is answered. -/
def State.answerAll (s : State) (stop ifc : Nat) (st : Status) : State :=
  (s.rings.txns.filter fun e => e.2.dst == stop && e.2.dstIf == ifc && decide (e.2.phase = .delivered)).foldl
    (fun s e => s.answer (txnKeyOf e.1) st 0) s

/-- The parked flits of an interface. -/
def State.parkedAt (s : State) (stop ifc : Nat) : List TxnKey :=
  s.rings.parked.filter fun t => match s.txn t with | some x => x.dst == stop && x.dstIf == ifc | none => false

/-- Parked flits are answered and leave their entries. -/
def State.unpark (s : State) (l : List TxnKey) (st : Status) : State :=
  let s := l.foldl (fun s t => s.answer t st 0) s
  { s with rings.parked := s.rings.parked.filter fun t => !l.contains t }

/-- An interface is switched OFF without waiting any longer (R167, R327): unanswered requests receive DOMAIN_OFF, its tags are freed, what it had
handed over and not injected is dropped, posted writes that its lantern has not performed are lost with the lantern, its fence has nothing left to wait for. -/
def State.cutOff (s : State) (stop ifc : Nat) : State :=
  let s := (s.answerAll stop ifc .domainOff).endOwn stop ifc
  let s := ((s.setEpQ (ifKey stop ifc) .req []).setEpQ (ifKey stop ifc) .post []).setEpQ (ifKey stop ifc) .mgmt []
  ({ s with rings.posted := s.rings.posted.filter fun e => !(e.2.dst == stop && e.2.dstIf == ifc) }.fenceDone stop ifc).setIfState stop ifc 4

/-- The interfaces that a mask of four bits names. -/
def ifsOf (m : Nat) : List Nat := (List.range 4).filter fun i => m.testBit i

/-- A snuff may begin (R168). -/
def State.maySnuff (s : State) (stop ifc : Nat) : Bool :=
  let st := s.ifState stop ifc
  st == 1 || st == 2 || st == 6

/-- SNUFF: step 2 of Table 06.9; a die cache begins its write-back (R189). -/
def effSnuff (stop mask : Nat) (s : State) : State :=
  (ifsOf mask).foldl (fun s i =>
    let s := (s.setIfState stop i 3).unpark (s.parkedAt stop i) .domainOff
    match epKind stop i with
    | .dcache m =>
      let s := { s with coh.inSnuff := if s.coh.inSnuff.contains m then s.coh.inSnuff else m :: s.coh.inSnuff }
      if s.dcState m = 1 then effDcFlush m s else s
    | _ => s) s

/-- The end point of an interface has done its part of step 3: a die cache is clear, a lantern has performed what it took. -/
def State.snuffReady (s : State) (stop ifc : Nat) : Bool :=
  match epKind stop ifc with
  | .dcache m => s.dcState m == 3 || s.dcState m == 0 || s.bit (Pg.dc m) Fld.DC_DC_STAT_ABSENT
  | _ => !(s.rings.posted.any fun e => e.2.dst == stop && e.2.dstIf == ifc)

/-- A request passes to a home: a tracker of its own while one is free; a posted write has its PACK at once (R161, R185). -/
def State.homeArrive (s : State) (t : TxnKey) (x : Txn) : State :=
  let line := x.addr.toNat / 64
  if !s.trkFree (homeSlice line) then s
  else
    let op : HomeOp := match x.typ with | .rd => .rd | .clean => .clean | .flush => .flush | _ => .wr
    let asker : Asker := if x.typ = .wrp then .posted t.src else .txn t
    let k : Tracker := ⟨op, asker, x.kid, x.tid, x.len, x.addr.toNat % 64, x.data, x.be, .idle, 0, 0, false, x.poison⟩
    (if x.typ = .wrp then s.answer t .ok 0 else s.setTxn t { x with phase := .delivered }).homeTake line k

/-- A request passes to a lantern, which performs it in its own time; a posted write has its PACK at once (R129, R161). -/
def State.lanternTake (s : State) (t : TxnKey) (x : Txn) : State :=
  if x.typ = .wrp then { s.answer t .ok 0 with rings.posted := s.rings.posted ++ [(t.no, x)] } else s.setTxn t { x with phase := .delivered }

/-- A request passes to its end point; not while that has no room, and not to those that stand in Deliver.lean. -/
def State.handOver (s : State) (t : TxnKey) (x : Txn) : State :=
  match epKind x.dst x.dstIf with
  | .port p => s.portPresent p t x
  | .slice _ => s.homeArrive t x
  | .lantern _ => s.lanternTake t x
  | .mgmt | .nv | .partner _ => s
  | _ => s.setTxn t { x with phase := .delivered }

/-- The first parked flit of an interface, delivered: it leaves its entry. -/
def State.unparkFirst (s : State) (stop ifc : Nat) (give : State → TxnKey → Txn → State) : State :=
  match s.parkedAt stop ifc with
  | [] => s
  | t :: _ =>
    match s.txn t with
    | none => s
    | some x =>
      let s := give s t x
      if (s.txn t).any fun y => decide (y.phase = .parked) then s else { s with rings.parked := s.rings.parked.filter (· ≠ t) }

/-- The parked flits of an interface that is ON again are delivered in order of arrival, while its end point takes them (Table 06.11, step 4). -/
def State.wakeParked (s : State) (stop ifc : Nat) : State :=
  (s.parkedAt stop ifc).foldl (fun s _ => s.unparkFirst stop ifc State.handOver) s

/-- ON: an OFF interface is in service again (R168). -/
def effIfOn (stop mask : Nat) (s : State) : State := (ifsOf mask).foldl (fun s i => (s.setIfState stop i 1).wakeParked stop i) s

/-- A flit is parked: an entry of eight, a WICK for the interface (Table 06.11). -/
def State.park (s : State) (t : TxnKey) (x : Txn) : State :=
  if 8 ≤ (s.rings.parked.filter fun k => (s.txn k).any fun y => y.dst == x.dst).length then s.answer t .domainOff 0
  else
    let s := s.setTxn t { x with phase := .parked }
    { s with rings.parked := s.rings.parked ++ [t] }.raiseWick (.iface (Fin.ofNat 64 x.dst) (Fin.ofNat 4 x.dstIf))

/-- PARK_TIMEOUT: a flit parked for 50 µs receives DOMAIN_OFF; counted in TRB6, PARK_TO (Table 06.11, step 5). An interface that is ON by then
takes its flits. The WICK stays: the power-up goes on (R170). -/
def execParkTimeout (t : TxnKey) (s : State) : Out :=
  match s.txn t with
  | none => .next s
  | some x =>
    if !s.rings.parked.contains t ∨ s.ifState x.dst x.dstIf ≠ 4 then .next s
    else
      .next (((s.unpark [t] .domainOff).trb (Pg.stop x.dst) 6).raise (Pg.stop x.dst) Evt.STOP_PARK_TO)

/-! ### Fences (R160) -/

/-- FENCE.START: fences begin on interfaces; BUSY shows them. -/
def effFence (stop mask : Nat) (s : State) : State :=
  (ifsOf mask).foldl (fun s i =>
    s.fenceStart stop i none) s

/-- Requests of a ring port that its die cache has not finished (R60, R182). -/
def State.dcOpen (s : State) (p : Nat) : Bool :=
  s.coh.wait.any (fun e => e.1 / 2 ^ 42 == p / 8 && e.2.any fun q => q.port == p % 8)
    || s.coh.passed.any fun e => e.1 / 2 ^ 42 == p / 8 && e.2.1 == p % 8

/-- FENCE_COMPLETE: every earlier request of the interface has its response or PACK. -/
def execFenceComplete (stop : Fin 64) (ifc : Fin 4) (s : State) : Out :=
  let key := ifKey stop ifc
  let before := s.beforeFence key .req + s.beforeFence key .post + s.beforeFence key .mgmt
  let inCache := match epKind stop ifc with | .port p => s.dcOpen p | _ => false
  if s.ifOpen stop ifc || before != 0 || inCache then .next s else .next (s.fenceDone stop ifc)

end Sys2Proof.Machine
end

