-- ==== Sys2Proof/Machine/Admit.lean ====
section
/-!
DEFINITION. Fault handling (chapter 18): segment failure and its notices, management takeover, service states and readmission. What ends the
uncertain transactions stands in Deliver.lean.
-/
namespace Sys2Proof.Machine

/-! ### Segment failure (R162, R442) -/

/-- Flits that an attachment point has not injected take the route it now knows; an answer's transaction names it. -/
def State.reroute (s : State) (at_ : Nat) (p : Flit → Bool) : State :=
  let mine (f : Flit) : Bool := f.at_.isNone && f.src == at_ && p f
  let ring (f : Flit) : Nat := s.route f.src f.dst
  let txns := (s.rings.flits.filter mine).foldl (fun (l : KMap Txn) f => match f.ref with
    | .ans n => (match mget l n with | some x => mput l n { x with ringBack := ring f } | none => l)
    | _ => l) s.rings.txns
  { s with rings.txns := txns, rings.flits := s.rings.flits.map fun f => if mine f then { f with ring := ring f, again := !s.pathOpen f.src f.dst (ring f) } else f }

/-- An attachment point learns of a failed segment: its flows leave it, FO_DRAIN starts (Table 18.2, step 3). -/
def State.segKnown (s : State) (at_ stop r : Nat) : State :=
  if s.rings.known.contains (at_, stop, r) then s
  else
    { s with rings.known := (at_, stop, r) :: s.rings.known, rings.drain := mput s.rings.drain (at_ * 1024 + stop * 16 + r) s.rings.seq }.reroute at_
      fun f => !f.again

/-- A coherence message: sent again where it is lost (R443). -/
def FlitRef.coherence : FlitRef → Bool
  | .req _ | .ans _ => false
  | _ => true

/-- The flits whose way still crosses a failed segment are discarded, but for those that have passed it, and those that had not been injected when the notice came: which are
lost is free (log 1). A lost coherence message stands to be sent again. -/
def State.loseFlits (s : State) (stop r : Nat) : State :=
  let lost (e : Flit × Nat) : Bool :=
    e.1.ring == r && crosses (e.1.at_.getD e.1.src) e.1.dst r stop && !(e.1.at_.isNone && (e.1.again || e.1.src == stop))
      && (Config.freeLine (s.free + e.2)).getLsbD 0
  let gone := (s.rings.flits.zipIdx.filter lost).map Prod.fst
  let txns := gone.foldl (fun (l : KMap Txn) f => match f.ref with
    | .req n | .ans n => (match mget l n with | some x => mput l n { x with phase := .lost } | none => l)
    | _ => l) s.rings.txns
  let flits := (s.rings.flits.filter fun f => !gone.contains f || f.ref.coherence).map fun f => if gone.contains f then { f with at_ := none, again := true } else f
  { s with rings.txns := txns, rings.flits := flits, free := s.free + s.rings.flits.length }

/-- Steps 1 and 4 of Table 18.2: the segment of ring r leaving STOPa is declared failed. -/
def State.segFail (s : State) (stop r : Nat) : State :=
  let pg := Pg.stop stop
  let s := s.setFld pg Fld.STOP_SEG_FAIL_SEG (s.fld pg Fld.STOP_SEG_FAIL_SEG ||| 2 ^ r)
  let s := ((s.trb pg 7).raise pg Evt.STOP_FAILOVER).alarm 3 pg (BitVec.ofNat 32 (stop * 256 + r))
  ((s.trb Pg.alm 1).segKnown stop stop r).loseFlits stop r

/-- SEGMENT_FAILED: one flit has failed three times in succession on the segment. -/
def execSegmentFailed (stop : Fin 64) (ring : Fin 16) (s : State) : Out :=
  if s.segFailed stop ring ∨ mgetD 0 s.rings.crcFails (16 * segAfter stop ring + ring.val) < 3 then .next s
  else .next (s.segFail stop ring)

/-- FAILOVER_NOTICE reaches an attachment point. -/
def execFailoverNotice (at_ stop : Fin 64) (ring : Fin 16) (s : State) : Out :=
  if s.segFailed stop ring then .next (s.segKnown at_ stop ring) else .next s

/-! ### Service states (R449 to R453) -/

/-- The interface exists: it has an end point, and STOP60 to STOP63 are there on a part with the -U option only. -/
def State.ifExists (s : State) (stop ifc : Nat) : Bool :=
  decide (epKind stop ifc ≠ .none) && (decide (stop < 60) || s.partId.getLsbD 7)

/-- The service state of a unit: 1 OUT_OF_SERVICE, 2 QUARANTINE, 3 ADMITTED; 0 for an interface that is in none. -/
def State.service (s : State) (kind stop sub : Nat) : Nat :=
  if kind = 1 then (match s.ifState stop sub with | 0 => 0 | 4 => 1 | 5 => 1 | 6 => 2 | _ => 3)
  else if kind = 2 then (if !s.segFailed stop sub then 3 else if s.pairs.segQuar.contains (stop, sub) then 2 else 1)
  else if s.pairs.quar.contains stop then 2 else if s.pairs.out.contains stop then 1 else 3

/-- The unit of a command does not exist. -/
def State.admitRange (s : State) (op kind stop sub : Nat) : Bool :=
  !(1 ≤ op && op ≤ 3) || !(1 ≤ kind && kind ≤ 3)
    || (kind == 1 && (decide (4 ≤ sub) || !s.ifExists stop sub)) || (kind == 3 && decide (2 ≤ stop))

/-- The command skips a state, or names the active pair. -/
def State.admitState (s : State) (op kind stop sub : Nat) : Bool :=
  let st := s.service kind stop sub
  st == 0 || (op == 2 && st == 3) || (op == 3 && st == 1) || (kind == 3 && s.pairs.active == stop)

/-- No pair runs (R526). -/
def State.noPair (s : State) : Bool := s.pairs.out.contains s.pairs.active
/-- The firmware's power and thermal manager, and the services, act: a pair runs and has resumed (R445, R526). -/
def State.managerRuns (s : State) : Bool := !s.noPair && !s.pairs.takeover && s.boot.held == 0

/-- The command in progress ends: STATE and RESULT. -/
def State.admitDone (s : State) (st : Nat) : State :=
  let s : State := { s with pairs.cmd := none }
  let s := (s.setFld Pg.alm Fld.ALM_ADMIT_STAT_BUSY 0).setFld Pg.alm Fld.ALM_ADMIT_STAT_STATE st
  let s := s.setFld Pg.alm Fld.ALM_ADMIT_STAT_RESULT 1
  if st = 3 then s.trb Pg.alm 3 else s

/-- A quarantine fails: the unit is out of service again (R453). -/
def State.admitFail (s : State) (kind stop sub : Nat) : State :=
  let s : State := { s with pairs.cmd := none }
  let s := (s.setFld Pg.alm Fld.ALM_ADMIT_STAT_BUSY 0).setFld Pg.alm Fld.ALM_ADMIT_STAT_STATE 1
  let s := s.setFld Pg.alm Fld.ALM_ADMIT_STAT_RESULT 2
  let s := (s.trb Pg.alm 4).alarm 12 Pg.alm (BitVec.ofNat 32 (kind * 2 ^ 24 + stop * 2 ^ 8 + sub))
  if kind = 1 then s.cutOff stop sub
  else if kind = 2 then { s with pairs.segQuar := s.pairs.segQuar.filter (· ≠ (stop, sub)) }
  else { s with pairs.quar := s.pairs.quar.filter (· ≠ stop) }

/-- A pair is held out: PAIR_OUT is a level alarm (R22, R445). -/
def State.pairOut (s : State) (p : Nat) : State :=
  let s : State := { s with pairs.out := if s.pairs.out.contains p then s.pairs.out else p :: s.pairs.out,
                            pairs.quar := s.pairs.quar.filter (· ≠ p) }
  s.levelAlarm 1 Pg.alm (BitVec.ofNat 32 p) 0

/-- Whether the field test in progress tests the unit of an interface. -/
def State.fieldTests (s : State) (stop ifc : Nat) : Bool :=
  match s.bist.field with
  | none => false
  | some (1, m) => decide (stop < 56) && stop / 7 == m && (match epKind stop ifc with | .port _ => true | .dcache _ => true | .lantern _ => true | _ => false)
  | some (2, k) => (stop, ifc) == lanternAt k
  | some _ => false

/-- A field test ends without a verdict (R494). -/
def State.fieldAbort (s : State) : State :=
  if s.bist.field.isNone then s
  else { (s.setFld Pg.bist Fld.BIST_FB_STAT_BUSY 0).setFld Pg.bist Fld.BIST_FB_STAT_RESULT 4 with bist.field := none }

/-- OUT. -/
def effOut (kind stop sub : Nat) (s : State) : State :=
  if kind = 1 then
    let s := if s.fieldTests stop sub then s.fieldAbort else s
    if s.service 1 stop sub = 1 then s.admitDone 1
    else if s.maySnuff stop sub then effSnuff stop (2 ^ sub) s else s
  else if kind = 2 then
    let s := if s.segFailed stop sub then s else s.segFail stop sub
    { s with pairs.segQuar := s.pairs.segQuar.filter (· ≠ (stop, sub)) }.admitDone 1
  else (s.pairOut stop).admitDone 1

/-- QUARANTINE: an interface is there at once; the test of a segment or a pair runs. -/
def effQuarantine (kind stop sub : Nat) (s : State) : State :=
  if kind = 1 then (s.setIfState stop sub 6).admitDone 2
  else if kind = 2 then
    if s.pairs.segQuar.contains (stop, sub) then s else { s with pairs.segQuar := (stop, sub) :: s.pairs.segQuar }
  else if s.pairs.quar.contains stop then s else { s with pairs.quar := stop :: s.pairs.quar }

/-- An interface is admitted: ON, behind its credit ramp (R450, R452). -/
def State.admitIf (s : State) (stop sub : Nat) : State :=
  if s.service 1 stop sub = 3 then s.admitDone 3
  else
    let s : State := { s.setIfState stop sub 1 with pairs.ramps := mput s.pairs.ramps (ifKey stop sub) 6 }
    (s.setFld Pg.alm Fld.ALM_ADMIT_STAT_RAMP 1).admitDone 3

/-- ADMIT: an interface under field test waits for its pass; the admit notice of a segment reaches STOPa at once. -/
def effAdmit (kind stop sub : Nat) (s : State) : State :=
  if kind = 1 then (if s.fieldTests stop sub then s else s.admitIf stop sub)
  else if kind = 2 then
    if s.service 2 stop sub = 3 then s.admitDone 3
    else { s with pairs.held := [stop], pairs.owed := List.range 64 }
  else
    let s : State := { s with pairs.out := s.pairs.out.filter (· ≠ stop), pairs.quar := s.pairs.quar.filter (· ≠ stop) }
    (if s.pairs.out.isEmpty then s.levelEnd 1 0 else s).admitDone 3

/-- ADMIT_CTRL.START, accepted. -/
def effAdmitStart (op kind stop sub : Nat) (s : State) : State :=
  let s := (s.setFld Pg.alm Fld.ALM_ADMIT_STAT_BUSY 1).setFld Pg.alm Fld.ALM_ADMIT_STAT_RESULT 0
  let s := s.setFld Pg.alm Fld.ALM_ADMIT_STAT_STATE (s.service kind stop sub)
  let s : State := { s with pairs.cmd := some (op, kind, stop, sub) }
  if op = 1 then effOut kind stop sub s else if op = 2 then effQuarantine kind stop sub s else effAdmit kind stop sub s

/-- OUT ends once its snuff has. -/
def State.admitSettle (s : State) : State :=
  match s.pairs.cmd with
  | some (1, 1, stop, sub) => if s.service 1 stop sub = 1 then s.admitDone 1 else s
  | _ => s

/-- QUARANTINE_END: the test of a segment or a pair ends (R451, R453). -/
def execQuarantineEnd (ok : Bool) (s : State) : Out :=
  match s.pairs.cmd with
  | some (2, kind, stop, sub) => .next (if ok then s.admitDone 2 else s.admitFail kind stop sub)
  | _ => .next s

/-- FLIT_CRC_MISMATCH at the receiving attachment point: the flit and those after it are discarded and sent again; counted in TRB1,
PG_EVT.REPLAY (R162). It ends the quarantine of its segment (R451). -/
def execFlitCrcMismatch (stop : Fin 64) (ring : Fin 16) (s : State) : Out :=
  let key := 16 * stop.val + ring.val
  let s : State := { s with rings.crcFails := mput s.rings.crcFails key (mgetD 0 s.rings.crcFails key + 1) }
  let s := (s.trb (Pg.stop stop) 1).raise (Pg.stop stop) Evt.STOP_REPLAY
  let s := s.flitFailed stop ring
  let a := segBefore stop ring
  .next (if s.pairs.cmd = some (2, 2, a, ring.val) then s.admitFail 2 a ring else s)

/-! ### Readmission of a segment (Table 18.4) -/

/-- No transaction of a held flow is open at an attachment point and nothing of one is on a ring (step 3). -/
def State.flowsEnded (s : State) (a : Nat) : Bool :=
  (s.rings.txns.all fun e => !(e.1 / 768 == a && e.2.live && s.flowHeld a e.2.dst))
    && s.rings.flits.all fun f => !(f.src == a && f.at_.isSome && s.flowHeld a f.dst)

/-- ADMIT_NOTICE reaches an attachment point. -/
def execAdmitNotice (at_ stop : Fin 64) (ring : Fin 16) (s : State) : Out :=
  if s.admitSeg = some (stop.val, ring.val) ∧ s.pairs.owed.contains at_.val ∧ !s.pairs.held.contains at_.val then
    .next { s with pairs.held := at_.val :: s.pairs.held }
  else .next s

/-- ROUTE_RESTORE: the flows of an attachment point switch back; when every one has reported, the segment is in service again. -/
def execRouteRestore (at_ stop : Fin 64) (ring : Fin 16) (s : State) : Out :=
  if s.admitSeg = some (stop.val, ring.val) ∧ s.pairs.owed.contains at_.val ∧ s.pairs.held.contains at_.val ∧ s.flowsEnded at_ then
    let s : State := { s with rings.known := s.rings.known.filter (· ≠ (at_.val, stop.val, ring.val)),
                              rings.drain := mdel s.rings.drain (at_.val * 1024 + stop.val * 16 + ring.val),
                              pairs.owed := s.pairs.owed.filter (· ≠ at_.val) }
    if !s.pairs.owed.isEmpty then .next s
    else
      let seg := s.fld (Pg.stop stop) Fld.STOP_SEG_FAIL_SEG
      let s := s.setFld (Pg.stop stop) Fld.STOP_SEG_FAIL_SEG (if seg.testBit ring then seg - 2 ^ ring.val else seg)
      let s : State := { s with pairs.held := [], pairs.segQuar := s.pairs.segQuar.filter (· ≠ (stop.val, ring.val)),
                                rings.crcFails := mdel s.rings.crcFails (16 * segAfter stop ring + ring.val) }
      .next (s.admitDone 3)
  else .next s

/-- RAMP_STEP: the pacing intervals halve; after the sixth step pacing ends. -/
def execRampStep (s : State) : Out :=
  let l := (s.pairs.ramps.map fun e => (e.1, e.2 - 1)).filter fun e => e.2 != 0
  let step (e : Nat × Nat) : Nat × Nat :=
    match mget s.pairs.ramps (e.1 / 8) with
    | some r => (e.1, if r ≤ 1 then 0 else e.2 - 2 ^ (r - 1))
    | none => e
  let s : State := { s with pairs.ramps := l, rings.paced := (s.rings.paced.map step).filter fun e => e.2 != 0 }
  .next (if l.isEmpty then s.setFld Pg.alm Fld.ALM_ADMIT_STAT_RAMP 0 else s)

/-! ### Management pairs (R444, R445, R526) -/

/-- CHECKPOINT: the active pair writes its checkpoint. -/
def execCheckpoint (fw : BitVec 64) (s : State) : Out :=
  if s.managerRuns then .next { s with pairs.checkpoint := fw } else .next s

/-- LOCKSTEP_MISMATCH: the standby pair takes over from the active one; with none left no pair runs. A pair in QUARANTINE fails it. -/
def execLockstepMismatch (pair : Fin 2) (s : State) : Out :=
  let p := pair.val
  if s.pairs.quar.contains p then
    .next (match s.pairs.cmd with
      | some (2, 3, q, sub) => if q = p then s.admitFail 3 p sub else { s with pairs.quar := s.pairs.quar.filter (· ≠ p) }
      | _ => { s with pairs.quar := s.pairs.quar.filter (· ≠ p) })
  else if s.pairs.out.contains p then .next s
  else if s.pairs.active ≠ p then .next (s.pairOut p)
  else if s.pairs.out.contains (1 - p) then
    .next ((s.pairOut p).setFld Pg.mbx Fld.MBX_MBX_INFO_FW_RUN 0)
  else
    let s : State := { s with pairs.active := 1 - p, pairs.takeover := true }
    let s := (s.setFld Pg.mbx Fld.MBX_MBX_INFO_PAIR (1 - p)).alarm 2 Pg.alm (BitVec.ofNat 32 (1 - p))
    .next ((s.pairOut p).trb Pg.alm 2)

/-- HOLDOFF_END: 1 ms has passed since the last alarm of codes 2 to 10 (Table 18.9). -/
def execHoldoffEnd (s : State) : Out := .next (s.setFld Pg.alm Fld.ALM_GUAR_STAT_HOLDOFF 0)

end Sys2Proof.Machine
end

