-- ==== Sys2Proof/Machine/Slices.lean ====
section
/-!
DEFINITION. The arithmetic slices (R67 to R83) and their column exponent units (R79, R80). One command is one edge of one slice's
clock. The edges of a column that fall together are commanded from slice 15 up to slice 0, so that PCIN is what the slice to
the north held before the edge (R76) and the column exponent unit, which loads at slice 0's edge, reads the LSC values
the other slices held before it (log 12).
-/
namespace Sys2Proof.Machine

/-! ### Numbers and attributes -/

/-- The number of a column: 16 in each clock region (Table 02.1). -/
def SliceId.colNo (i : SliceId) : Nat := (i.die.val * 16 + i.cr.val) * 16 + i.col.val
/-- The number of a slice. -/
def SliceId.no (i : SliceId) : Nat := i.colNo * 16 + i.j.val

/-- The defaults of Table 03.7. -/
def SliceAttr.default : SliceAttr := ⟨.full, true, false, 0, 48, 19⟩
def ColAttr.default : ColAttr := ⟨false, false, 0xFFFF⟩

/-- A slice whose registers are clear: the state after configuration, which the spec gives for none of them (DESIGN CHOICE, log 131). -/
def Slice.zero : Slice := ⟨0, 0, 0, 0, 0, 0, 0, 0, 0, 0, 0, 0, 0, 0, false, false, false, 0, 0⟩

/-- The clock that the image gives a slice runs (R53, R54, R67). -/
def State.sliceUp (s : State) (i : SliceId) : Bool := s.unitClk i.die (2 * i.cr.val + i.col.val / 8) (mget s.design.sliceClks i.no)

/-- CEXP of a column; its reset value is 47 (R79). -/
def State.cexp (s : State) (n : Nat) : Nat := mgetD 47 s.fab.cexp n

def State.slice (s : State) (n : Nat) : Slice := mgetD .zero s.fab.slices n
def State.sliceAttr (s : State) (n : Nat) : SliceAttr := mgetD .default s.design.slices n
def State.colAttr (s : State) (n : Nat) : ColAttr := mgetD .default s.design.columns n

/-! ### OPMODE (Table 03.3) -/

def opSub (op : Byte) : Bool := op.getLsbD 7
def opPreSub (op : Byte) : Bool := op.getLsbD 6
def opPreEn (op : Byte) : Bool := op.getLsbD 5
def opWsel (op : Byte) : Bool := op.getLsbD 4
def opZsel (op : Byte) : Nat := fieldOf op 2 2
def opClrSticky (op : Byte) : Bool := op.getLsbD 1
def opMnull (op : Byte) : Bool := op.getLsbD 0

/-! ### The datapath -/

/-- The pre-adder (R68): X and whether its narrowing overflowed. -/
def preAdd (at_ : SliceAttr) (a d : BitVec 24) (op : Byte) : BitVec 24 × Bool :=
  if opPreEn op then
    let sum : Int := if opPreSub op then d.toInt - a.toInt else d.toInt + a.toInt
    if at_.preKeep then
      (lowBits 24 (if at_.satEn then satInt 24 sum else sum), !fitsInt 24 sum)
    else (lowBits 24 (sum / 2), false)
  else (a, false)

/-- The multiplier (R69): the exact product X × B, 0 under MNULL, sign-extended to 64 bits. MNULL acts at the P stage (R72). -/
def mulXB (x : BitVec 24) (b : BitVec 20) : BitVec 64 := BitVec.ofInt 64 (x.toInt * b.toInt)

/-- The P stage (R70, R71): the sum modulo 2^64 and whether the exact sum wrapped. -/
def pStage (at_ : SliceAttr) (m : BitVec 64) (c : BitVec 48) (op : Byte) (p pcin : BitVec 64) : BitVec 64 × Bool :=
  let mm : Int := if opMnull op then 0 else m.toInt
  let w : Int := if opWsel op then c.toInt else 0
  let z : Int := match opZsel op with
    | 0 => 0
    | 1 => p.toInt
    | 2 => pcin.toInt
    | _ => pcin.toInt / 2 ^ at_.casShift
  let sum := if opSub op then z + w - mm else z + w + mm
  (lowBits 64 sum, !fitsInt 64 sum)

/-- The narrowing of P to Q (R73, R74): Q and whether it overflowed. -/
def narrowP (at_ : SliceAttr) (p : BitVec 64) : BitVec 48 × Bool :=
  let v : Int := p.toInt / 2 ^ at_.outShift
  let w := at_.outWidth
  if fitsInt w v then (lowBits 48 v, false)
  else if at_.satEn then (lowBits 48 (satInt w v), true)
  else (lowBits 48 (lowBits w v).toInt, true)

/-- The leading-sign count of the w-bit value on Q (R78). -/
def lscOf (at_ : SliceAttr) (q : BitVec 48) : Nat := leadingSigns at_.outWidth (q.setWidth at_.outWidth)

/-- PCIN of a slice (R76): P of the slice to its north, in the column to the north for slice 0; 0 at the north row. -/
def State.pcin (s : State) (i : SliceId) : BitVec 64 :=
  if i.j.val = 0 then
    if i.cr.val < 4 then 0 else (s.slice (i.no - 4 * 16 * 16 + 15)).p
  else (s.slice (i.no - 1)).p

/-- An edge with CE = 1 and RST = 0 (R70 to R75, R78, R81). A pre-adder overflow sets OVF at the edge at which X is formed: the spec names no edge, and
in PARTIAL and FULL the P stage of the same operation comes later (DESIGN CHOICE, log 131). -/
def sliceStep (at_ : SliceAttr) (r : Slice) (i : SliceIn) (pcin : BitVec 64) : Slice :=
  -- what stands before each stage at this edge, by the pipeline setting
  let (xa, xd, xb, xc, xop) := match at_.pipe with
    | .minimal => (i.a, i.d, i.b, i.c, i.op)
    | _ => (r.a, r.d, r.b, r.c0, r.op0)
  let (x, xovf) := preAdd at_ xa xd xop
  let (mx, mb, mc, mop) := match at_.pipe with
    | .full => (r.x, r.b1, r.c1, r.op1)
    | _ => (x, xb, xc, xop)
  let mnext := mulXB mx mb
  let (pm, pc, pop) := match at_.pipe with
    | .minimal => (mnext, xc, xop)
    | _ => (r.m, r.c2, r.op2)
  let (pn, wrapped) := pStage at_ pm pc pop r.p pcin
  let (q, qovf) := narrowP at_ (match at_.pipe with | .full => r.p | _ => pn)
  let clr := opClrSticky pop
  { a := i.a, d := i.d, b := i.b, c0 := i.c, op0 := i.op,
    x := x, b1 := xb, c1 := xc, op1 := xop,
    m := mnext, c2 := mc, op2 := mop,
    p := pn, q := q, ovfNow := qovf,
    ovf := (r.ovf && !clr) || xovf || qovf,
    wrap := (r.wrap && !clr) || wrapped,
    lsc := lscOf at_ r.q, lscPrev := r.lsc }

/-- An edge with RST = 1 (R82): the data registers, flags and LSC are cleared; C and OPMODE move on where CE is 1. The column exponent unit still reads
the LSC that stood before the edge (log 12). -/
def sliceReset (r : Slice) (i : SliceIn) : Slice :=
  { Slice.zero with
    c0 := if i.ce then i.c else r.c0, op0 := if i.ce then i.op else r.op0
    c1 := if i.ce then r.c0 else r.c1, op1 := if i.ce then r.op0 else r.op1
    c2 := if i.ce then r.c1 else r.c2, op2 := if i.ce then r.op1 else r.op2
    lscPrev := r.lsc }

/-- The C and OPMODE delays of a PARTIAL slice skip the pre-adder stage (R81). -/
def sliceResetFor (at_ : SliceAttr) (r : Slice) (i : SliceIn) : Slice :=
  let z := sliceReset r i
  match at_.pipe with
  | .partial_ => { z with c2 := if i.ce then r.c0 else r.c2, op2 := if i.ce then r.op0 else r.op2 }
  | _ => z

/-- The minimum of the selected LSC values of a column, at the edge at which slice 0 has not stepped yet (R79). -/
def State.minLsc (s : State) (i : SliceId) (mask : BitVec 16) : Nat :=
  (List.range 16).foldl (fun acc j =>
    if mask.getLsbD j then
      let r := s.slice (i.colNo * 16 + j)
      min acc (if j = 0 then r.lsc else r.lscPrev)
    else acc) 47

/-- The column exponent unit at an edge with its CE = 1: the clock and CE of slice 0 (R79, R80). -/
def State.cexpLoad (s : State) (i : SliceId) (start : Bool) : State :=
  let at_ := s.colAttr i.colNo
  if i.j.val = 0 ∧ at_.cexpEn then
    let m := s.minLsc i at_.mask
    { s with fab.cexp := mput s.fab.cexp i.colNo (if at_.run && !start then min m (s.cexp i.colNo) else m) }
  else s

/-- SLICE_OPERATION: an edge of a slice's clock with RST = 0. CE = 0 holds every register (R82). -/
def execSliceOperation (i : SliceId) (ins : SliceIn) (s : State) : Out :=
  if !s.sliceUp i then .next s
  else
    let r := s.slice i.no
    if ins.ce then
      let r' := sliceStep (s.sliceAttr i.no) r ins (s.pcin i)
      let s := s.cexpLoad i ins.cexpStart
      .next { s with fab.slices := mput s.fab.slices i.no r' }
    else .next { s with fab.slices := mput s.fab.slices i.no { r with lscPrev := r.lsc } }

/-- SLICE_RESET: an edge with RST = 1, whether CE is 0 or 1 (R82); RST sets the column's CEXP to 47 (R79): the RST of slice 0, whose clock and CE
the unit has (R80), and while CEXP_EN is 1 (DESIGN CHOICE, log 131). -/
def execSliceReset (i : SliceId) (ins : SliceIn) (s : State) : Out :=
  if !s.sliceUp i then .next s
  else
    let s := if i.j.val = 0 ∧ (s.colAttr i.colNo).cexpEn then { s with fab.cexp := mput s.fab.cexp i.colNo 47 } else s
    .next { s with fab.slices := mput s.fab.slices i.no (sliceResetFor (s.sliceAttr i.no) (s.slice i.no) ins) }

end Sys2Proof.Machine
end

