-- ==== Sys2Proof/Machine/Logic.lean ====
section
/-!
DEFINITION. User logic: logic sites, site memories, die crossings, pin registers and isolation sites (R34 to R37, R47 to R53, R55, R62, R401). The
spec gives no command for an edge of a fabric clock: the edges fall in the nanoseconds that pass while no command waits (log 4, 130).
-/
namespace Sys2Proof.Machine

/-! ### Clock edges (R53, R54, R362, R364) -/

/-- The edges of a clock of so many kHz in the first n nanoseconds. -/
def edgesIn (khz n : Nat) : Nat := n * khz / 1000000

/-- SKIP of every 16 edges are removed, spread evenly (R364): which ones is not said (DEDUCED, log 130). -/
def edgeKept (skip i : Nat) : Bool := (i % 16 + 1) * skip / 16 == i % 16 * skip / 16

/-- A loop has an edge in the nanosecond that passes. -/
def State.loopEdge (s : State) (l : Nat) : Bool :=
  let khz := s.fld Pg.clkMl (Fld.ML_CFG_FREQ_KHZ l)
  s.loopState l == 2 && decide (edgesIn khz s.ns < edgesIn khz (s.ns + 1)) && edgeKept (s.fld Pg.clkMl (Fld.ML_THR_SKIP l)) (edgesIn khz s.ns)

/-- A fabric clock has an edge on a die; a die-local clock divides an FCLK (Table 15.4). -/
def State.clkEdge (s : State) (m : Nat) : FabClk → Bool
  | .fclk k => s.fdieOpen m k && s.loopEdge k
  | .loc j =>
    match mget s.design.locals (8 * m + j) with
    | none => false
    | some (k, d) => s.fdieOpen m k && s.loopEdge k && (edgesIn (s.fld Pg.clkMl (Fld.ML_CFG_FREQ_KHZ k)) s.ns + 1) % d == 0

/-- A clock that a clock region selects has an edge in a slot of it. -/
def State.slotEdge (s : State) (m slot : Nat) (c : FabClk) : Bool :=
  s.slotUp m slot && (s.cregClks m (slot / 2)).contains c && s.clkEdge m c

/-! ### Where sites stand (Table 02.1) -/

/-- Logic sites of a slot and of a die; the slot of a site; one site in four is an M site (which one: log 130). -/
def slotSites : Nat := 10240
def dieSites : Nat := 327680
def siteSlot (i : Nat) : Nat := i / slotSites
def siteIsM (i : Nat) : Bool := i % 4 == 0

def RegBank.idle : RegBank := ⟨.loc 0, .const false, .const false, false⟩
def Site.empty : Site := ⟨[], 0, .idle, .idle, .const false, none⟩
def State.site (s : State) (m i : Nat) : Site := mgetD .empty s.design.sites (dieSites * m + i)

/-- The registers of a site: their image values until something else is in them (R36). -/
def State.siteRegs (s : State) (m i : Nat) : BitVec 16 := mgetD (s.site m i).init s.fab.userRegs (dieSites * m + i)

/-- The memory of an M site, and its content. -/
def State.siteMemOf (s : State) (m i : Nat) : Option SiteMem := if siteIsM i then (s.site m i).mem else none
def State.siteBits (s : State) (m i : Nat) (x : SiteMem) : BitVec 512 := mgetD x.init s.fab.siteMem (dieSites * m + i)

/-! ### Die crossings (R14, R48, R50, R52) -/

/-- The place of a die: column and row. -/
def diePlace (m : Nat) : Nat × Nat := (m % 4, m / 4)
def dist (a b : Nat) : Nat := if a ≤ b then b - a else a - b

/-- Dies that share an edge; the crossing stages between two dies (R14; they give Table 02.5). -/
def dieAdjacent (a b : Nat) : Bool := dist (diePlace a).1 (diePlace b).1 + dist (diePlace a).2 (diePlace b).2 == 1
def crossStages (a b : Nat) : Nat :=
  if a = b then 0
  else if dieAdjacent a b then 1
  else if dist (diePlace a).1 (diePlace b).1 = 1 ∧ dist (diePlace a).2 (diePlace b).2 = 1 then 2
  else 3

/-- A group as the device has it (R48): 24 groups a direction on a shared edge; 16 long-line groups out of a die and 16 into it; 1,024 wires. -/
def XGroup.ok (g : XGroup) : Bool :=
  decide (g.src < 8) && decide (g.dst < 8) && g.src != g.dst
    && (if dieAdjacent g.src g.dst then g.outNo == g.inNo && decide (g.inNo < 24) else decide (g.outNo < 16) && decide (g.inNo < 16))
    && g.wires.all fun w => decide (w.1 < 1024)

/-- Two groups do not share wires of an edge or of a die's long lines. -/
def XGroup.apart (a b : XGroup) : Bool :=
  if dieAdjacent a.src a.dst || dieAdjacent b.src b.dst then !(a.src == b.src && a.dst == b.dst && a.inNo == b.inNo)
  else !(a.src == b.src && a.outNo == b.outNo) && !(a.dst == b.dst && a.inNo == b.inNo)

def XGroup.key (g : XGroup) (wire : Nat) : Nat := ((g.src * 8 + g.dst) * 24 + g.inNo) * 1024 + wire

/-- The groups from one die into another present clamp values (R52, XNG_CLAMPED). -/
def State.xClamped (s : State) (src dst : Nat) : Bool := (s.fld (Pg.fabXng dst) Fld.FABXNG_XNG_CLAMPED_CLAMPED).testBit src

/-- A wire's register; what the wire presents to the receiving die. -/
def State.xReg (s : State) (k : Nat) : XReg := mgetD ⟨0, false⟩ s.fab.xing k
def State.xOut (s : State) (g : XGroup) (wire : Nat) : Bool :=
  let r := s.xReg (g.key wire)
  if s.xClamped g.src g.dst then g.clamp.getD r.last else r.stages.getLsbD (crossStages g.src g.dst - 1)

/-- The fabric clocks of the groups into or out of a die (Table 02.14). -/
def State.groupClks (s : State) (m : Nat) : Nat :=
  (List.range 32).foldl (fun n k => if s.design.groups.any fun g => (g.src == m || g.dst == m) && g.fclk.val == k then n + 2 ^ k else n) 0

/-! ### Pins (R55) -/

/-- The home die of a GPIO bank (Table 02.6). -/
def bankHome (b : Nat) : Nat := [0, 0, 1, 2, 3, 3, 4, 4, 5, 6, 7, 7].getD b 0

def pinKey (bank pin : Nat) : Nat := bank * 48 + pin
def State.pinReg (s : State) (k : Nat) : PinReg := mgetD ⟨0, 0, 0⟩ s.fab.pins k

/-- Outputs of GPIO pins are driven from user enable on (Table 16.4). A source failure and the snuff of the home die force the safe state (Tables 15.5
and 17.4); the test instructions take the pin (R497). -/
def State.pinDriven (s : State) (bank : Nat) : Bool := s.dieUp (bankHome bank) && s.fld (Pg.fabCtl (bankHome bank)) Fld.FABCTL_DIE_STAT_PWR_STATE == 3
def State.pinOut (s : State) (bank pin : Nat) : Option Bool :=
  match mget s.design.pins (pinKey bank pin) with
  | none => none
  | some c =>
    let b := Fin.ofNat 12 bank
    let p := Fin.ofNat 48 pin
    if s.pinTest then (if s.mgmt.tap != 7 && s.cell (.gpioEn b p) then some (s.cell (.gpioOut b p)) else none)
    else if !s.bit Pg.cfg Fld.CFG_CFG_STAT_USER_EN then none
    else if !s.pinDriven bank then c.safe
    else
      let r := s.pinReg (pinKey bank pin)
      let n := crossStages c.die (bankHome bank)
      if r.oe.getLsbD n then some (r.out.getLsbD n) else none

/-- A GPIO bank has an output enabled (R365). -/
def State.bankBusy (s : State) (bank : Nat) : Bool :=
  s.design.pins.any fun e => e.1 / 48 == bank && (s.pinReg e.1).oe.getLsbD (crossStages e.2.die (bankHome bank))

/-! ### Regions (R62, R401) -/

/-- The region of a slot. -/
def State.regionOf (s : State) (m slot : Nat) : Option Nat :=
  (s.design.regions.find? fun r => r.1 == m && r.2.2 == slot).map fun r => r.2.1

/-- Slots that share an edge: eight in a row, four rows. -/
def slotAdjacent (a b : Nat) : Bool := dist (a % 8) (b % 8) + dist (a / 8) (b / 8) == 1

/-- What a connected set has reached after n steps. -/
def slotReach (l : List Nat) : Nat → List Nat → List Nat
  | 0, r => r
  | n + 1, r => slotReach l n (r ++ l.filter fun x => !r.contains x && r.any (slotAdjacent x))
def slotsConnected : List Nat → Bool
  | [] => false
  | x :: l => (x :: l).all (slotReach (x :: l) 32 [x]).contains

/-- Isolation sites of a slot and of a die. -/
def slotIsos : Nat := 3072
def dieIsos : Nat := 98304

/-! ### What a signal is -/

/-- The bits of a list of signals as a number. -/
def sigNat (f : Sig → Bool) : List Sig → Nat
  | [] => 0
  | x :: l => (f x).toNat + 2 * sigNat f l

/-- The outputs of a LUT (R35). A single function of six inputs drives both. -/
def Lut.eval (t : Lut) (f : Sig → Bool) (second : Bool) : Bool :=
  if t.dual then t.table.getLsbD (sigNat f (t.ins.take 5) + if second then 32 else 0) else t.table.getLsbD (sigNat f (t.ins.take 6))

/-- Output k of a site memory, read asynchronously (R37). The outputs of a multi-read RAM are four bits each: the read/write port, then the three read ports. -/
def SiteMem.read (x : SiteMem) (bits : BitVec 512) (f : Sig → Bool) (k : Nat) : Bool :=
  let ra (i n : Nat) : Nat := sigNat f ((x.raddr.getD i []).take n)
  match x.mode with
  | .ram512 => k == 0 && bits.getLsbD (ra 0 9)
  | .ram256 => decide (k < 2) && bits.getLsbD (2 * ra 0 8 + k)
  | .ram128 => decide (k < 4) && bits.getLsbD (4 * ra 0 7 + k)
  | .multi => decide (k < 16) && bits.getLsbD (4 * (if k < 4 then sigNat f (x.waddr.take 7) else ra (k / 4 - 1) 7) + k % 4)
  | .delay => decide (k < 4) && bits.getLsbD (128 * k + ra k 7)

/-- The write of a site memory at an edge of its clock (R37). -/
def SiteMem.write (x : SiteMem) (bits : BitVec 512) (f : Sig → Bool) : BitVec 512 :=
  let d (i : Nat) : Bool := f (x.din.getD i (.const false))
  let wa (n : Nat) : Nat := sigNat f (x.waddr.take n)
  let put (w n : Nat) : BitVec 512 := withField bits (w * n) w (sigNat f (x.din.take w))
  match x.mode with
  | .ram512 => put 1 (wa 9)
  | .ram256 => put 2 (wa 8)
  | .ram128 | .multi => put 4 (wa 7)
  | .delay => (List.range 4).foldl (fun b i => withField b (128 * i) 128 (fieldOf b (128 * i) 127 * 2 + (d i).toNat)) bits

/-- The outputs of a memory's port (R43), of a slice (R73, R78) and of a column (R79). -/
def BmOut.bitAt (o : BmOut) (k : Nat) : Bool :=
  if k < 128 then o.data.getLsbD k else ([o.sbe, o.dbe, o.wcoll, o.pwcoll].getD (k - 128) false)
def Slice.bitAt (r : Slice) (k : Nat) : Bool :=
  if k < 48 then r.q.getLsbD k else if k < 51 then [r.ovfNow, r.ovf, r.wrap].getD (k - 48) false else r.lsc.testBit (k - 51)

/-- A signal of a die. Combinational logic is followed for `n` steps; what a loop of it yields the spec does not say (a free value, log 130). -/
def State.sig (s : State) (m : Nat) : Nat → Sig → Bool
  | 0, _ => Config.loopValue s.ns
  | n + 1, x =>
    match x with
    | .const b => b
    | .reg i k => (s.siteRegs m i).getLsbD k
    | .lut i k second =>
      if (s.siteMemOf m i).isSome then false
      else match (s.site m i).luts[k]? with | none => false | some t => t.eval (s.sig m n) second
    | .carry i k =>
      let cin := s.sig m n (if k = 0 then (s.site m i).carryIn else .carry i (k - 1))
      decide (k < 8) && Config.carryCell cin (s.sig m n (.lut i k false)) (s.sig m n (.lut i k true))
    | .mem i k => match s.siteMemOf m i with | none => false | some y => y.read (s.siteBits m i y) (s.sig m n) k
    | .xing src g w =>
      match s.design.groups.find? fun e => e.src == src && e.dst == m && e.inNo == g with
      | none => false
      | some e => s.xOut e w
    | .iso j =>
      match mget s.design.iso (dieIsos * m + j) with
      | none => false
      | some e =>
        let r := s.regionOf m (j / slotIsos)
        let inner := r.isSome && (match e.other with | some o => s.regionOf m o == r | none => false)
        if e.outward && r.isSome && !inner && s.regSlot m (j / slotIsos) != 1 then e.hold.getD (mgetD false s.fab.iso (dieIsos * m + j))
        else s.sig m n e.src
    | .pin b k => (s.pinReg (pinKey b k)).inn.getLsbD (crossStages (bankHome b) m)
    | .bm p k => match mget s.fab.bmOut (12288 * m + p) with | none => false | some o => o.bitAt k
    | .fifoFull i => s.bmFull (6144 * m + i)
    | .fifoEmpty i => s.bmEmpty (6144 * m + i)
    | .slice i k => (s.slice (4096 * m + i)).bitAt k
    | .cexp i k => (s.cexp (256 * m + i)).testBit k

/-- Steps enough for every path without a loop: a site has 8 LUTs, 8 carry cells and a memory. -/
def State.sigFuel (s : State) : Nat := 17 * s.design.sites.length + s.design.iso.length + 1
def State.value (s : State) (m : Nat) (x : Sig) : Bool := s.sig m s.sigFuel x

/-! ### An edge -/

/-- The eight registers of a bank from bit lo on: the reset gives them their image values, at once or at an edge of the clock; else an edge under the
clock enable loads them (R35, R36). -/
def RegBank.next (b : RegBank) (f : Sig → Bool) (edge : Bool) (init d now : BitVec 16) (lo : Nat) : Nat :=
  if f b.rst && (b.async || edge) then fieldOf init lo 8
  else if edge && f b.ce then fieldOf d lo 8
  else fieldOf now lo 8

/-- What a site's LUTs or its memory put before its registers: LUT k before registers 2k and 2k + 1 (R35), output k of a memory before register k. -/
def State.siteData (s : State) (m i : Nat) : BitVec 16 :=
  BitVec.ofNat 16 (sigNat (s.value m) ((List.range 16).map fun k =>
    if (s.siteMemOf m i).isSome then .mem i k else .lut i (k / 2) (k % 2 == 1)))

/-- The registers and the memory of a site after the nanosecond that passes. -/
def State.siteNext (s : State) (m i : Nat) (x : Site) : BitVec 16 × Option (BitVec 512) :=
  let e0 := s.slotEdge m (siteSlot i) x.bank0.clk
  let e1 := s.slotEdge m (siteSlot i) x.bank1.clk
  let now := s.siteRegs m i
  let d := s.siteData m i
  (BitVec.ofNat 16 (x.bank0.next (s.value m) e0 x.init d now 0 + 256 * x.bank1.next (s.value m) e1 x.init d now 8),
    (s.siteMemOf m i).map fun y =>
      let b := s.siteBits m i y
      if e0 && s.value m x.bank0.ce then y.write b (s.value m) else b)

/-- The register of a crossing wire after an edge: no clock enable, no reset (R47); what a die that is clamped sends is its clamp value. -/
def State.xNext (s : State) (g : XGroup) (w : Nat × Sig) : XReg :=
  let r := s.xReg (g.key w.1)
  let clamped := s.xClamped g.src g.dst
  let v := if clamped then s.xOut g w.1 else s.value g.src w.2
  let st : BitVec 3 := (r.stages <<< 1) ||| (BitVec.ofBool v).setWidth 3
  ⟨st, if clamped then r.last else st.getLsbD (crossStages g.src g.dst - 1)⟩

/-- The registers of a pin after an edge. The path from a die that does not run keeps its value. -/
def State.pinNext (s : State) (k : Nat) (c : PinCfg) : PinReg :=
  let r := s.pinReg k
  -- the core sees the captured values while boundary scan has the pins (R497)
  let lvl := if s.pinTest then s.captured (.gpioIn (Fin.ofNat 12 (k / 48)) (Fin.ofNat 48 (k % 48)))
    else (mgetD 0 s.mgmt.gpio (k / 48)).getLsbD (k % 48)
  let sh (v : BitVec 4) (b : Bool) : BitVec 4 := (v <<< 1) ||| (BitVec.ofBool b).setWidth 4
  let inn := sh r.inn lvl
  if s.dieUp c.die then ⟨inn, sh r.out (s.value c.die c.out), sh r.oe (s.value c.die c.oe)⟩
  else ⟨inn, sh r.out (r.out.getLsbD 0), sh r.oe (r.oe.getLsbD 0)⟩

/-- The user logic of every die in the nanosecond that passes; all of it sees the state before. -/
def State.logicEdges (s : State) : Fabric :=
  let f := s.fab
  let f := s.design.sites.foldl (fun (f : Fabric) e =>
    let m := e.1 / dieSites
    let i := e.1 % dieSites
    if s.slotLive m (siteSlot i) then
      let r := s.siteNext m i e.2
      { f with userRegs := mputD e.2.init f.userRegs e.1 r.1,
               siteMem := match r.2 with | none => f.siteMem | some b => mput f.siteMem e.1 b }
    else f) f
  let f := s.design.groups.foldl (fun (f : Fabric) g =>
    if s.loopEdge g.fclk then g.wires.foldl (fun (f : Fabric) w => { f with xing := mputD ⟨0, false⟩ f.xing (g.key w.1) (s.xNext g w) }) f else f) f
  s.design.pins.foldl (fun (f : Fabric) e =>
    if s.loopEdge e.2.fclk && s.bit Pg.cfg Fld.CFG_CFG_STAT_USER_EN then { f with pins := mputD ⟨0, 0, 0⟩ f.pins e.1 (s.pinNext e.1 e.2) } else f) f

end Sys2Proof.Machine
end

