-- ==== Sys2Proof/Machine/Check.lean ====
section
/-!
DEFINITION. The check engines (chapter 11): starting a job, its line accesses, the judgement of a guarded message, and its end.
-/
namespace Sys2Proof.Machine


/-- The check engines' interface: IF1 of STOP59 (R265). -/
def chkIf : Nat := ifKey 59 1

/-- The ranges of Table 01.5 that hold something: first address and end. -/
def mapRanges : List (Nat × Nat) := [
  (0x000000000000, 0x001800000000), (0x002000000000, 0x006000000000), (0x008000000000, 0x010000000000),
  (0x010000000000, 0x010002000000), (0x010010000000, 0x010020000000), (0x010020000000, 0x010023000000),
  (0x010023000000, 0x010024800000), (0x800000000000, 0x1000000000000)]

/-- Bytes from an address on lie wholly within one range of Table 01.5. -/
def inOneRange (a n : Nat) : Bool := mapRanges.any fun r => decide (r.1 ≤ a) && decide (a + n ≤ r.2)

/-! ### Guarded messages (R269) -/

/-- The bytes of the alive counter and of the check value. -/
def State.chkCounterBytes (s : State) (k : Nat) : Nat :=
  if s.bit (Pg.chk k) Fld.CHK_ALIVE_CFG_EN then (if s.bit (Pg.chk k) Fld.CHK_ALIVE_CFG_WIDTH then 2 else 1) else 0
def checkBytes (poly : Nat) : Nat := (crcPoly poly).width / 8

/-- The n bytes of a number, the least significant first. -/
def numBytes (n x : Nat) : List Byte := (List.range n).map fun i => BitVec.ofNat 8 (x >>> (8 * i))

def State.chkAddr (s : State) (k : Nat) (lo hi : Fld) : Nat := s.fld (Pg.chk k) hi * 2 ^ 32 + s.fld (Pg.chk k) lo
def State.chkLen (s : State) (k : Nat) : Nat := s.fld (Pg.chk k) Fld.CHK_LEN_M1_LEN + 1

/-- The bytes a job reads and writes (Table 11.2). -/
def State.chkRead (s : State) (k mode poly : Nat) : Nat :=
  if mode = 1 then s.chkLen k + s.chkCounterBytes k + checkBytes poly else s.chkLen k
def State.chkWrite (s : State) (k mode poly : Nat) : Nat :=
  if mode = 0 then s.chkLen k + s.chkCounterBytes k + checkBytes poly else if mode = 1 then s.chkLen k else 0

/-- SKIP_WIN lies in its set (Table 11.6). -/
def skipWinOk (width : Bool) (win : Nat) : Bool := decide (2 ≤ win) && decide (win ≤ if width then 32768 else 128)

/-- The conditions of R268 other than BUSY. -/
def State.chkStartOk (s : State) (k mode poly : Nat) : Bool :=
  let pg := Pg.chk k
  let src := s.chkAddr k Fld.CHK_SRC_LO_BITS Fld.CHK_SRC_HI_BITS % 2 ^ 48
  let dst := s.chkAddr k Fld.CHK_DST_LO_BITS Fld.CHK_DST_HI_BITS % 2 ^ 48
  let rd := s.chkRead k mode poly
  let wr := s.chkWrite k mode poly
  inOneRange src rd &&
    (decide (2 ≤ mode) ||
      (decide (s.chkLen k ≤ 65536) && inOneRange dst wr && (decide (src + rd ≤ dst) || decide (dst + wr ≤ src))
        && (!s.bit pg Fld.CHK_ALIVE_CFG_EN
            || skipWinOk (s.bit pg Fld.CHK_ALIVE_CFG_WIDTH) (s.fld pg Fld.CHK_ALIVE_CFG_SKIP_WIN))))

/-! ### Line accesses (R275, R277) -/

/-- The lines that bytes from an address on occupy. -/
def linesOf (a n : Nat) : Nat := (a % 64 + n + 63) / 64

/-- The read of the job's line i, and the write of its line i. -/
def ChkJob.readReq (j : ChkJob) (k i : Nat) : EpEntry :=
  ⟨.rd, ⟨BitVec.ofNat 64 (j.src - j.src % 64 + 64 * i), 0, BitVec.ofNat 8 i, 0, 0, BitVec.ofNat 12 k⟩, 0, false⟩
def ChkJob.writeReq (j : ChkJob) (k i : Nat) : EpEntry :=
  let pad := if i = 0 then j.dst % 64 else 0
  let start := if i = 0 then 0 else 64 * i - j.dst % 64
  let bytes := (j.msg.drop start).take (64 - pad)
  let be : BitVec 64 := BitVec.ofNat 64 ((2 ^ bytes.length - 1) * 2 ^ pad)
  ⟨.wr, ⟨BitVec.ofNat 64 (j.dst - j.dst % 64 + 64 * i), if bytes.length = 64 then 0 else 7, BitVec.ofNat 8 i,
    (ofBytes 512 bytes) <<< (8 * pad), if bytes.length = 64 then BitVec.allOnes 64 else be, BitVec.ofNat 12 k⟩, 0, false⟩

/-- Hands the job's next line accesses to the interface, up to 32 outstanding (R277). -/
def State.chkPush (s : State) (k : Nat) : (fuel : Nat) → State
  | 0 => s
  | n + 1 =>
    match mget s.chk k with
    | none => s
    | some j =>
      if j.outcome ≠ 0 ∨ 32 ≤ j.flight then s
      else
        let push (s : State) (e : EpEntry) (j : ChkJob) : State :=
          { s with chk := mput s.chk k j }.handIn 59 1 e
        if j.writing then
          if j.nextWr < linesOf j.dst j.msg.length then
            (push s (j.writeReq k j.nextWr) { j with nextWr := j.nextWr + 1, flight := j.flight + 1 }).chkPush k n
          else s
        else if j.nextRd < linesOf j.src j.rdLen then
          (push s (j.readReq k j.nextRd) { j with nextRd := j.nextRd + 1, flight := j.flight + 1 }).chkPush k n
        else s

/-- The job ends with an outcome: accesses not yet issued are withdrawn; those issued still complete (R275, R276). -/
def State.chkEnds (s : State) (k : Nat) (j : ChkJob) (outcome : Nat) : State :=
  let mine (e : EpEntry) : Bool := e.r.who.toNat == k
  let drop (acc : Nat × State) (c : TxnClass) : Nat × State :=
    let q := acc.2.epQ chkIf c
    (acc.1 + (q.filter mine).length, acc.2.setEpQ chkIf c (q.filter fun e => !mine e))
  let (n, s) := [TxnClass.req, .mgmt].foldl drop (0, s)
  { s with chk := mput s.chk k { j with outcome := outcome, flight := j.flight - n } }

/-- START: the job begins; RESULT and the outcome fields belong to it from now on. -/
def effJobStart (k mode poly : Nat) (s : State) : State :=
  let pg := Pg.chk k
  let src := s.chkAddr k Fld.CHK_SRC_LO_BITS Fld.CHK_SRC_HI_BITS
  let dst := s.chkAddr k Fld.CHK_DST_LO_BITS Fld.CHK_DST_HI_BITS
  let j : ChkJob := ⟨mode, poly, src, dst, s.chkLen k, s.chkRead k mode poly, 0, [], 0, (crcPoly poly).init, [], false, 0, 0, 0, 0, none⟩
  let s := (s.setReg pg Reg.CHK_JOB_STAT 0).setFld pg Fld.CHK_JOB_STAT_BUSY 1
  { s with chk := mput s.chk k j }.chkPush k 32

/-- STOP: a job in progress ends STOPPED, unless its outcome is already decided (R276). -/
def effJobStop (k : Nat) (s : State) : State :=
  match mget s.chk k with
  | none => s
  | some j => if j.outcome ≠ 0 then s else s.chkEnds k j 5

/-! ### Judgement (R271, R273) -/

/-- The check value appears in RESULT (R267). -/
def State.chkResult (s : State) (k v : Nat) : State :=
  (s.setReg (Pg.chk k) Reg.CHK_RESULT_LO (BitVec.ofNat 32 v)).setReg (Pg.chk k) Reg.CHK_RESULT_HI (BitVec.ofNat 32 (v / 2 ^ 32))

/-- The class of an incoming message (R271, Table 11.3): 0 accepted, 1 REPEAT, 2 STALE, 3 SKIP, 4 BAD; with the counter that RX takes. -/
def State.chkClass (s : State) (k : Nat) (stored computed : Nat) (counter : Nat) : Nat × Option Nat :=
  let pg := Pg.chk k
  if computed ≠ stored then (4, none)
  else if !s.bit pg Fld.CHK_ALIVE_CFG_EN then (0, none)
  else if !s.bit pg Fld.CHK_ALIVE_CFG_RX_VALID then (0, some counter)
  else
    let m := 2 ^ (8 * s.chkCounterBytes k)
    let d := (counter + m - s.fld pg Fld.CHK_ALIVE_CNT_RX % m) % m
    if d = 0 then (1, none) else if d = 1 then (0, some counter)
    else if d ≤ s.fld pg Fld.CHK_ALIVE_CFG_SKIP_WIN then (3, some counter)
    else (2, none)

/-- Everything is read: the message to write is made, or the message judged, or the scan decided. -/
def State.chkAllRead (s : State) (k : Nat) (j : ChkJob) : State :=
  let pg := Pg.chk k
  if 2 ≤ j.mode then
    let v := (crcPoly j.poly).result j.crc
    let s := s.chkResult k v
    let want := (s.fld pg Fld.CHK_EXPECT_HI_BITS * 2 ^ 32 + s.fld pg Fld.CHK_EXPECT_LO_BITS) % 2 ^ (crcPoly j.poly).width
    s.chkEnds k j (if j.mode = 3 ∧ v ≠ want then 2 else 1)
  else
    let c := s.chkCounterBytes k
    if j.mode = 0 then
      let body := j.msg ++ numBytes c (s.fld pg Fld.CHK_ALIVE_CNT_TX)
      let v := crcOf j.poly body
      { s.chkResult k v with chk := mput s.chk k { j with msg := body ++ numBytes (checkBytes j.poly) v, writing := true } }.chkPush k 32
    else
      let v := crcOf j.poly (j.msg.take (j.len + c))
      let num (l : List Byte) : Nat := l.foldr (fun b acc => b.toNat + 256 * acc) 0
      let (cls, rx) := s.chkClass k (num (j.msg.drop (j.len + c))) v (num ((j.msg.drop j.len).take c))
      let s := s.chkResult k v
      let j := { j with flag := cls, rx := rx }
      if cls = 0 ∨ (cls = 3 ∧ s.bit pg Fld.CHK_ALIVE_CFG_SKIP_ACCEPT) then
        { s with chk := mput s.chk k { j with msg := j.msg.take j.len, writing := true } }.chkPush k 32
      else s.chkEnds k j 3

/-- Takes in the lines read, in increasing address order (R267). -/
def ChkJob.takeIn (j : ChkJob) : (fuel : Nat) → ChkJob
  | 0 => j
  | n + 1 =>
    match mget j.buf j.taken with
    | none => j
    | some d =>
      let pad := if j.taken = 0 then j.src % 64 else 0
      let left := j.rdLen - (if j.taken = 0 then 0 else 64 * j.taken - j.src % 64)
      let bytes := ((toBytes 64 d).drop pad).take left
      ({ j with buf := mdel j.buf j.taken, taken := j.taken + 1,
                crc := if 2 ≤ j.mode then (crcPoly j.poly).bytes bytes j.crc else j.crc,
                msg := if 2 ≤ j.mode then j.msg else j.msg ++ bytes } : ChkJob).takeIn n

/-- The end of an access of engine k: a status other than OK ends the job with ERROR (R275); read data is taken in; the last write
decides OK. -/
def State.chkResponse (s : State) (k : Nat) (typ : ReqType) (addr : PhysAddr) (st : Status) (data : Line) : State :=
  match mget s.chk k with
  | none => s
  | some j =>
    let pg := Pg.chk k
    let j := { j with flight := j.flight - 1 }
    let s := { s with chk := mput s.chk k j }
    if j.outcome ≠ 0 then
      -- the job has ended: BUSY falls with the last access, once the end is reported
      if j.flight = 0 ∧ s.fld pg Fld.CHK_JOB_STAT_OUTCOME ≠ 0 then
        { s.setFld pg Fld.CHK_JOB_STAT_BUSY 0 with chk := mdel s.chk k }
      else s
    else
      let base := if typ = .rd then j.src else j.dst
      let i := (addr.toNat - (base % 2 ^ 48 - base % 64)) / 64
      if st ≠ .ok then
        let s := s.setFld pg Fld.CHK_JOB_STAT_ERR_STATUS st.no
        let s := s.setFld pg Fld.CHK_JOB_STAT_ERR_DST (if typ = .rd then 0 else 1)
        let s := s.setReg pg Reg.CHK_ERR_OFFSET (BitVec.ofNat 32 (64 * i - base % 64))
        s.chkEnds k j 4
      else if typ = .rd then
        let j := { j with buf := mput j.buf i data }.takeIn 33
        let s := { s with chk := mput s.chk k j }
        if j.taken = linesOf j.src j.rdLen then s.chkAllRead k j else s.chkPush k 1
      else if j.flight = 0 ∧ j.nextWr = linesOf j.dst j.msg.length then s.chkEnds k j 1
      else s.chkPush k 1

/-- JOB_END: the decided outcome is shown and its events and counters follow (R270 to R276); BUSY falls when no access is open. -/
def execJobEnd (k : Fin 16) (s : State) : Out :=
  match mget s.chk k with
  | none => .next s
  | some j =>
    let pg := Pg.chk k
    if j.outcome = 0 ∨ s.fld pg Fld.CHK_JOB_STAT_OUTCOME ≠ 0 then .next s
    else
      let s := s.setFld pg Fld.CHK_JOB_STAT_OUTCOME j.outcome
      let judged := decide (j.outcome = 1) || decide (j.outcome = 3)
      let s := if judged then s.setFld pg Fld.CHK_JOB_STAT_FLAG j.flag else s
      let s := if judged then match j.rx with
          | some c => (s.setFld pg Fld.CHK_ALIVE_CNT_RX c).setFld pg Fld.CHK_ALIVE_CFG_RX_VALID 1
          | none => s
        else s
      let s := if j.mode = 0 ∧ j.outcome = 1 then
          s.setFld pg Fld.CHK_ALIVE_CNT_TX ((s.fld pg Fld.CHK_ALIVE_CNT_TX + 1) %
            (if s.bit pg Fld.CHK_ALIVE_CFG_WIDTH then 65536 else 256))
        else s
      let s := if judged then
          match j.flag with
          | 1 => s.trb pg 1 | 2 => s.trb pg 2 | 3 => s.trb pg 3 | 4 => s.trb pg 0
          | _ => s
        else s
      let s := if j.outcome = 3 ∨ (judged ∧ j.flag = 3) then s.raise pg Evt.CHK_REJECT else s
      let s := if j.outcome = 2 then (s.trb pg 5).raise pg Evt.CHK_REJECT else s
      let s := if j.outcome = 4 then (s.trb pg 4).raise pg Evt.CHK_ERROR else s
      let s := s.raise pg Evt.CHK_JOB_END
      .next (if j.flight = 0 then { s.setFld pg Fld.CHK_JOB_STAT_BUSY 0 with chk := mdel s.chk k } else s)

end Sys2Proof.Machine
end

