-- ==== Sys2Proof/Machine/Dpll.lean ====
section
/-!
DEFINITION. The digital PLL's choice of a timing reference (R357 to R360) and the validity of recovered references (R292).
-/
namespace Sys2Proof.Machine

def State.dpllMode (s : State) : Nat := s.fld Pg.clkRef Fld.REF_DPLL_STAT_MODE
def State.dpllRef (s : State) : Nat := s.fld Pg.clkRef Fld.REF_DPLL_STAT_REF

/-- The priority of timing lane j; 0: no candidate. -/
def State.refPrio (s : State) (j : Nat) : Nat := fieldOf (s.reg Pg.clkRef Reg.REF_REF_PRIO) (4 * j) 4
def State.refQual (s : State) (j : Nat) : Bool := (s.fld Pg.clkRef Fld.REF_REF_STAT_LANE_QUAL).testBit j
def State.setRefQual (s : State) (j : Nat) (b : Bool) : State :=
  let m := s.fld Pg.clkRef Fld.REF_REF_STAT_LANE_QUAL
  s.setFld Pg.clkRef Fld.REF_REF_STAT_LANE_QUAL (m - (if m.testBit j then 2 ^ j else 0) + (if b then 2 ^ j else 0))

/-- The best qualified candidate: the highest priority, the lower j among equals (R358). -/
def State.bestRef (s : State) : Option Nat :=
  (List.range 8).foldl (fun b j =>
    if s.refPrio j != 0 && s.refQual j then
      match b with | some k => if s.refPrio j < s.refPrio k then some j else b | none => some j
    else b) none

/-- The mode and the tracked reference change: PG_EVT.REF_SWITCH. -/
def State.setRef (s : State) (mode ref : Nat) : State :=
  ((s.setFld Pg.clkRef Fld.REF_DPLL_STAT_MODE mode).setFld Pg.clkRef Fld.REF_DPLL_STAT_REF ref).raise Pg.clkRef Evt.REF_REF_SWITCH

/-- HOLDOVER: the stored average, an offset that the spec states no value for here, is held (R360); counted in TRB2, PG_EVT.HOLDOVER. -/
def State.holdover (s : State) : State :=
  let v := (s.freeLine.setWidth 32 : Word)
  let s := (s.useFree.setReg Pg.clkRef Reg.REF_HO_FREQ v).setRef 4 0xF
  (s.trb Pg.clkRef 2).raise Pg.clkRef Evt.REF_HOLDOVER

/-- The selection of R358. -/
def State.reselect (s : State) : State :=
  let mode := s.dpllMode
  if mode = 0 ∨ s.clk.released then s
  else
    let cur := s.dpllRef
    match s.bestRef with
    | none => if mode = 2 ∨ mode = 3 then s.holdover else s
    | some j =>
      if mode = 2 ∨ mode = 3 then
        if cur = j then s
        else if s.refPrio cur ≠ 0 ∧ s.refQual cur ∧ (!s.bit Pg.clkRef Fld.REF_DPLL_CTRL_REVERT ∨ s.refPrio cur = s.refPrio j ∧ cur < j) then s
        else s.setRef 2 j
      else s.setRef 2 j

/-- A recovered reference is lost: counted in TRB0, its qualification ends, the DPLL reselects (R358, R361). -/
def State.refLost (s : State) (j : Nat) : State :=
  let m := s.fld Pg.clkRef Fld.REF_REF_STAT_LANE_VALID
  if m.testBit j then
    ((s.setFld Pg.clkRef Fld.REF_REF_STAT_LANE_VALID (m - 2 ^ j)).trb Pg.clkRef 0).setRefQual j false |>.reselect
  else s

/-- A recovered reference follows its timing lane: valid while EN and the lane is UP, TEST or RETRAIN with its CDR locked (R292). -/
def State.refSync (s : State) (l : Nat) : State :=
  if l % 24 ≠ 0 then s
  else
    let pg := Pg.lane l
    let st := s.fld pg Fld.LN_STAT_STATE
    let m := s.fld Pg.clkRef Fld.REF_REF_STAT_LANE_VALID
    let j := l / 24
    if s.bit pg Fld.LN_TREF_EN && (st == 3 || st == 6 || st == 4) && s.bit pg Fld.LN_STAT_CDR_LOCK then
      if m.testBit j then s else s.setFld Pg.clkRef Fld.REF_REF_STAT_LANE_VALID (m + 2 ^ j)
    else s.refLost j

/-- The tracked reference is released: MASTER, and no selection until REF_PRIO is written (R359). -/
def State.releaseRef (s : State) : State := { s.setRef 1 0xF with clk.released := true }

end Sys2Proof.Machine
end

