-- ==== Sys2Proof/Machine/Flags.lean ====
section
/-!
DEFINITION. Every flag computation of the engines: elements of vectors and accumulators, narrowing with its OVF and SAT (R102), accumulator
wrap (R103), clamping (ARG), leading-sign counts (R105).
-/
namespace Sys2Proof.Machine

/-- The n elements of w bits of a register, signed, element 0 first (R86). -/
def elems {m : Nat} (w n : Nat) (v : BitVec m) : List Int := (List.range n).map fun i => (BitVec.ofNat w (fieldOf v (w * i) w)).toInt

/-- A register put together from its elements' low w bits. -/
def pack (m w : Nat) (l : List Int) : BitVec m :=
  BitVec.ofNat m (l.foldr (fun x acc => acc * 2 ^ w + (BitVec.ofInt w x).toNat) 0)

/-- What a narrowing leaves: the elements, how many overflowed, how many were saturated (R102). -/
structure Narrowed where
  elems : List Int
  ovf : Nat
  sat : Nat
deriving DecidableEq, Repr

/-- Narrowing of exact results to w bits: with S = 1 an element takes the nearer limit and counts as saturated, with S = 0 its low
bits (R102). -/
def narrow (w : Nat) (s : Bool) (l : List Int) : Narrowed :=
  let bad := (l.filter fun x => !fitsInt w x).length
  ⟨l.map fun x => if fitsInt w x then x else if s then satInt w x else (BitVec.ofInt w x).toInt, bad, if s then bad else 0⟩

/-- Accumulator sums modulo 2^48, and whether one left the 48-bit range (R103). -/
def accWrap (l : List Int) : List Int × Bool := (l.map fun x => (BitVec.ofInt 48 x).toInt, l.any fun x => !fitsInt 48 x)

/-- Clamping to −128 … +127, and whether it changed the value (STAT.ARG). -/
def clamp8 (x : Int) : Int × Bool := if fitsInt 8 x then (x, false) else (satInt 8 x, true)

/-- The leading-sign count of a w-bit element (R105). -/
def lsCount (w : Nat) (x : Int) : Nat := leadingSigns w (BitVec.ofInt w x)

/-- The smallest leading-sign count of the elements. -/
def minLsCount (w : Nat) (l : List Int) : Nat := l.foldl (fun acc x => min acc (lsCount w x)) (w - 1)

/-- CMP's condition F (Table 04.5). -/
def cmpCond (f : Nat) (a b : Word) : Bool :=
  match f with
  | 0 => a == b
  | 1 => a != b
  | 2 => a.slt b
  | 3 => !a.slt b
  | 4 => a.ult b
  | _ => !a.ult b

end Sys2Proof.Machine
end

