-- ==== Sys2Proof/Machine/Operands.lean ====
section
/-!
DEFINITION. The operand forms of the engines' slot instructions: the slot word (R97), the formats of Table 04.4, the checks of R95
and the destination registers a slot word names (Tables 04.5 to 04.7).
-/
namespace Sys2Proof.Machine

/-! ### Slot words (R97, Table 04.4) -/

def FmtR.enc (f : FmtR) : BitVec 22 := f.d ++ f.a ++ f.b ++ f.f
def FmtI.enc (f : FmtI) : BitVec 22 := f.d ++ f.a ++ f.imm
def FmtL.enc (f : FmtL) : BitVec 22 := f.d ++ f.imm
def FmtB.enc (f : FmtB) : BitVec 22 := f.target ++ f.zero
def FmtP.enc (f : FmtP) : BitVec 22 := f.i ++ f.count ++ f.len
def FmtM.enc (f : FmtM) : BitVec 22 := f.v ++ f.base ++ f.off
def FmtT.enc (f : FmtT) : BitVec 22 := f.v ++ f.k ++ f.n1 ++ f.b1 ++ f.zero
def FmtV.enc (f : FmtV) : BitVec 22 := f.d ++ f.a ++ f.b ++ f.t ++ f.s ++ f.zero
def FmtK.enc (f : FmtK) : BitVec 22 := f.ad ++ f.a ++ f.b ++ f.k ++ f.zero
def FmtN.enc (f : FmtN) : BitVec 22 := f.d ++ f.aa ++ f.sh ++ f.s ++ f.o ++ f.zero

/-- A slot word: OP in [31:26], G in [25], PG in [24:22], the format's fields below (R97). -/
def slotWord (op : BitVec 6) (g : Bool) (pg : BitVec 3) (body : BitVec 22) : Word := op ++ BitVec.ofBool g ++ pg ++ body

/-- The slot word of a bundle: slot 0 is bits [127:96], slot 3 bits [31:0]. -/
def bundleSlot (b : BitVec 128) (slot : Nat) : Word := BitVec.ofNat 32 (fieldOf b (96 - 32 * slot) 32)

/-- The opcode of a slot word. -/
def opOf (w : Word) : Nat := fieldOf w 26 6

/-! Fields of the formats, as numbers. -/
def fR_d (w : Word) : Nat := fieldOf w 17 5
def fR_a (w : Word) : Nat := fieldOf w 12 5
def fR_b (w : Word) : Nat := fieldOf w 7 5
def fR_f (w : Word) : Nat := fieldOf w 0 7
/-- imm of format I, signed. -/
def fI_imm (w : Word) : Int := (BitVec.ofNat 12 (fieldOf w 0 12)).toInt
def fM_v (w : Word) : Nat := fieldOf w 16 6
def fM_base (w : Word) : Nat := fieldOf w 11 5
def fT_n (w : Word) : Nat := fieldOf w 11 4 + 1
def fT_b (w : Word) : Nat := fieldOf w 8 3 + 1
def fV_d (w : Word) : Nat := fieldOf w 16 6
def fV_a (w : Word) : Nat := fieldOf w 10 6
def fV_b (w : Word) : Nat := fieldOf w 4 6
def fV_t (w : Word) : Nat := fieldOf w 3 1
def fV_s (w : Word) : Nat := fieldOf w 2 1
def fK_ad (w : Word) : Nat := fieldOf w 19 3
def fK_a (w : Word) : Nat := fieldOf w 13 6
def fK_k (w : Word) : Nat := fieldOf w 2 5

/-! ### The checks of R95 -/

/-- A window V(v) … V(v + n − 1) lies wholly within V0–V31 or wholly within V32–V63. -/
def windowOk (v n : Nat) : Bool := decide (v + n ≤ 32) || (decide (32 ≤ v) && decide (v + n ≤ 64))

/-- The opcode is listed for the slot (Tables 04.5 to 04.7). -/
def opListed (slot op : Nat) : Bool :=
  match slot with
  | 0 => decide (op ≤ 0x16) || op == 0x18 || op == 0x19 || op == 0x1A || (decide (0x1C ≤ op) && decide (op ≤ 0x1F))
  | 1 => decide (op ≤ 0x06)
  | 2 => decide (op ≤ 0x06) || (decide (0x10 ≤ op) && decide (op ≤ 0x12))
  | _ => decide (op ≤ 0x16)

/-- The fields of a slot 0 word are legal (Table 04.5, R95, R98). -/
def legal0 (w : Word) : Bool :=
  let op := opOf w
  let g := fieldOf w 25 1
  let d := fR_d w
  let a := fR_a w
  let b := fR_b w
  let f := fR_f w
  let imm := fI_imm w
  let imm8 := decide (-128 ≤ imm) && decide (imm ≤ 127)
  if op ≤ 0x0B then true
  else if op = 0x0C then fieldOf w 16 1 == 0
  else if op = 0x0D then decide (d < 8) && decide (f ≤ 5)
  else if op = 0x0E then decide (d < 8) && decide (f ≤ 4) && (decide (3 ≤ f) || (decide (a < 8) && decide (b < 8)))
  else if op = 0x0F then decide (d < 8) && imm8
  else if op = 0x10 then decide (d < 8) && decide (a < 8) && imm8
  else if op = 0x11 then decide (d < 8) && decide (a < 8) && decide (b < 8)
  else if op = 0x12 then decide (a < 8)
  else if op = 0x13 then decide (d < 8)
  else if op = 0x14 then decide (0 ≤ imm) && decide (imm ≤ 63)
  else if op = 0x15 then d == 0
  else if op = 0x16 then decide (d < 2) && decide (a < 8)
  else if op = 0x18 ∨ op = 0x19 then fieldOf w 0 10 == 0
  else if op = 0x1A then fieldOf w 0 22 == 0
  else if op = 0x1C then
    g == 0 && (fieldOf w 21 1 == 1 || fieldOf w 9 7 == 0)
  else if op = 0x1D then g == 0 && fieldOf w 21 1 == 0 && fieldOf w 9 4 == 0
  else g == 0 && fieldOf w 0 22 == 0

/-- The fields of a slot 1 or slot 2 word are legal (Table 04.6). -/
def legal12 (w : Word) : Bool :=
  let op := opOf w
  if op ≤ 0x04 then true
  else if op ≤ 0x06 then decide (fM_v w < 32)
  else if op = 0x10 ∨ op = 0x11 then fieldOf w 0 15 == 0
  else fieldOf w 0 8 == 0 && decide (2 ≤ fT_n w) && decide (fT_b w ≤ min (fT_n w) 8) && windowOk (fM_v w) (fT_n w)

/-- The fields of a slot 3 word are legal (Table 04.7). -/
def legal3 (w : Word) : Bool :=
  let op := opOf w
  let z2 := fieldOf w 0 2 == 0
  let wid := if fV_t w = 1 then 32 else 16
  if op ≤ 0x02 then z2
  else if op ≤ 0x05 then z2 && fV_s w == 0
  else if op ≤ 0x07 then z2
  else if op = 0x08 then z2 && decide (fV_b w < wid)
  else if op = 0x09 then z2
  else if op = 0x0A then z2 && fV_t w == 0
  else if op = 0x0B then z2 && decide (fV_a w < 32)
  else if op = 0x0C then z2
  else if op = 0x0D then z2 && decide (fV_d w < 8)
  else if op = 0x0E then z2 && decide (fV_d w < 8) && decide (fV_a w < 8) && fV_t w == 0
  else if op = 0x0F then z2 && decide (fV_b w < 8)
  else if op ≤ 0x12 then z2 && fK_k w == 0
  else if op = 0x13 then z2
  else if op = 0x14 then z2 && windowOk (fK_a w) 2
  else if op = 0x15 then z2 && decide (fV_d w < 8) && decide (fV_a w < 32)
  else fieldOf w 0 5 == 0 && decide (fieldOf w 7 6 < 48) && (fieldOf w 5 1 == 0 || fieldOf w 17 5 == 0)

/-- A slot word passes the checks of R95 that concern it alone. -/
def legalSlot (slot : Nat) (w : Word) : Bool :=
  opListed slot (opOf w) && (match slot with | 0 => legal0 w | 1 => legal12 w | 2 => legal12 w | _ => legal3 w)

/-! ### Destinations (R95, last check) -/

/-- A destination register: its set (0 S, 1 V, 2 P, 3 A, 4 E) and its name. -/
abbrev Dest := Nat × Nat

/-- The destination registers a slot word names, the base of a post-incrementing access included. -/
def destsOf (slot : Nat) (w : Word) : List Dest :=
  let op := opOf w
  match slot with
  | 0 =>
    if op = 0 then [] else if op ≤ 0x0C then [(0, fR_d w)]
    else if op ≤ 0x0E then [(2, fR_d w)] else if op ≤ 0x11 then [(4, fR_d w)]
    else if op = 0x12 then [(0, fR_d w)] else if op = 0x13 then [(4, fR_d w)]
    else if op = 0x14 then [(0, fR_d w)] else if op = 0x19 then [(0, 31)] else []
  | 3 =>
    if op = 0 then [] else if op ≤ 0x0B then [(1, fV_d w)]
    else if op = 0x0C then [(1, fV_d w), (1, fV_b w)].eraseDups
    else if op ≤ 0x0E then [(4, fV_d w)] else if op = 0x0F then [(1, fV_d w)]
    else if op ≤ 0x14 then [(3, fK_ad w)] else if op = 0x15 then [(3, fV_d w)]
    else if fieldOf w 5 1 = 0 then [(1, fV_d w)] else []
  | _ =>
    if op = 0x01 then [(1, fM_v w)] else if op = 0x02 then [(1, fM_v w), (0, fM_base w)]
    else if op = 0x04 then [(0, fM_base w)] else if op = 0x05 then [(0, fM_v w)]
    else if op = 0x10 then [(1, fM_v w)]
    else if op = 0x12 then (List.range (fT_n w)).map fun j => (1, fM_v w + j) else []

/-- Whether a bundle passes every check of R95. -/
def legalBundle (b : BitVec 128) : Bool :=
  (List.range 4).all (fun i => legalSlot i (bundleSlot b i)) &&
  decide ((List.range 4).flatMap (fun i => destsOf i (bundleSlot b i))).Nodup

end Sys2Proof.Machine
end

