-- ==== Sys2Proof/Machine/EngOps.lean ====
section
/-!
DEFINITION. The engines' shared operations: registers and their rotation, special registers, memories, stream ports, faults, and how a bundle
is issued slot by slot (R86 to R98, R131).
A bundle is four slot commands, slots 0 to 3 in order. Every slot reads `core`; what the slots write collects in `next` and
is taken over when slot 3 is done (R93). A slot command acts only where the program holds that very instruction at PC.
-/
namespace Sys2Proof.Machine

/-! ### Engines -/

def EngCore.reset : EngCore := ⟨[], [], 0, [], [], [], none, none⟩

/-- An engine after its soft reset (R135): every register 0, streams empty. -/
def Engine.reset : Engine :=
  { core := .reset, next := .reset, slot := 0, stores := [], beats := [], pops := [], branch := none, srW := [], memErr := false,
    haltAfter := false, loopStart := none, skip := none, shiftStart := none, shift := none, ret0 := [], in0 := [], ret1 := [], in1 := [], out0 := [], out1 := [],
    warm0 := 0, warm1 := 0, past := false, atEnd := none, hold := false, taken := false, haltHeld := false,
    resetHeld := false, step := false, stepDone := false }

def State.eng (s : State) (e : Nat) : Engine := mgetD .reset s.engs.eng e
def State.setEng (s : State) (e : Nat) (g : Engine) : State := { s with engs.eng := mputD .reset s.engs.eng e g }

/-- Forgets what the slots of a bundle not completed have written. -/
def Engine.drop (g : Engine) : Engine :=
  { g with next := g.core, slot := 0, stores := [], beats := [], pops := [], branch := none, srW := [], memErr := false,
           haltAfter := false, loopStart := none, skip := none, shiftStart := none }

/-! ### Registers (R86 to R90) -/

/-- The physical register of a vector name (R87). -/
def EngCore.rotb (c : EngCore) : Nat := (mgetD 0 c.sr 0x02).toNat % 32
def EngCore.vPhys (c : EngCore) (n : Nat) : Nat := if n < 32 then n else 32 + (n + 32 - 32 - c.rotb) % 32
/-- The physical predicate of a name (R87). -/
def EngCore.pPhys (c : EngCore) (p : Nat) : Nat := (p + 32 - c.rotb) % 8

def EngCore.sVal (c : EngCore) (i : Nat) : Word := mgetD 0 c.sReg i
def EngCore.vVal (c : EngCore) (n : Nat) : Line := mgetD 0 c.v (c.vPhys n)
def EngCore.pVal (c : EngCore) (p : Nat) : Bool := c.p.getLsbD (c.pPhys p)
def EngCore.aVal (c : EngCore) (i : Nat) : BitVec 1536 := mgetD 0 c.a i
def EngCore.eVal (c : EngCore) (i : Nat) : Byte := mgetD 0 c.e i

def EngCore.setS (c : EngCore) (i : Nat) (x : Word) : EngCore := { c with sReg := mputD 0 c.sReg i x }
def EngCore.setVPhys (c : EngCore) (i : Nat) (x : Line) : EngCore := { c with v := mputD 0 c.v i x }
def EngCore.setPPhys (c : EngCore) (i : Nat) (x : Bool) : EngCore := { c with p := withField c.p i 1 x.toNat }
def EngCore.setA (c : EngCore) (i : Nat) (x : BitVec 1536) : EngCore := { c with a := mputD 0 c.a i x }
def EngCore.setE (c : EngCore) (i : Nat) (x : Byte) : EngCore := { c with e := mputD 0 c.e i x }

/-- A special register's reset value (Table 04.3, R110). -/
def srReset (n : Nat) : Word := if n = 0x09 ∨ n = 0x0A then 256 else if n = 0x11 then 0x00100000 else 0

def EngCore.srVal (c : EngCore) (n : Nat) : Word := mgetD (srReset n) c.sr n
def EngCore.setSr (c : EngCore) (n : Nat) (x : Word) : EngCore := { c with sr := mputD (srReset n) c.sr n x }

/-- Hardware sets bits of STAT (R90). -/
def EngCore.flag (c : EngCore) (bit : Nat) (b : Bool) : EngCore :=
  if b then c.setSr 0 (c.srVal 0 ||| (1 : Word) <<< bit) else c

/-- Overflow and saturation of a narrowing: OVF, SAT and SATCNT, which stops at 0xFFFF (R102). In a bundle that also writes SATCNT by MTSR the
elements saturated add to the value written (DEDUCED, log 134). -/
def EngCore.narrowFlags (c : EngCore) (n : Narrowed) : EngCore :=
  let c := (c.flag 1 (n.ovf != 0)).flag 0 (n.sat != 0)
  c.setSr 1 (BitVec.ofNat 32 (min 0xFFFF ((c.srVal 1).toNat + n.sat)))

/-- The predicates as addressed now (PRED, Table 04.2). -/
def EngCore.predView (c : EngCore) : Word :=
  BitVec.ofNat 32 ((List.range 8).foldl (fun acc p => acc + (c.pVal p).toNat * 2 ^ p) 0)

/-- What a read of a special register gives (R89). -/
def EngCore.srRead (c : EngCore) (e n : Nat) : Word :=
  if n = 0x08 then c.predView
  else if n = 0x13 then BitVec.ofNat 32 ((e / 4) * 256 + e)
  else if n ≤ 0x12 then c.srVal n
  else 0

/-- BLK's value set: 16 to 4,096, a multiple of 16 (Table 04.3). -/
def blkOk (x : Word) : Bool :=
  let b := fieldOf x 0 13
  decide (16 ≤ b) && decide (b ≤ 4096) && b % 16 == 0

/-- Whether a special register takes writes (Table 04.2). -/
def srWritable (n : Nat) : Bool := [0x00, 0x01, 0x02, 0x08, 0x09, 0x0A, 0x0B, 0x0C, 0x0F, 0x10, 0x11].contains n

/-- The effect of an accepted write of a special register (R89, R90). Of a writable register, MTSR leaves reserved and read-only bits as they are
and sets no ARG: R89 names only read-only and unlisted numbers (DEDUCED, log 134). -/
def EngCore.srWrite (c : EngCore) (n : Nat) (x : Word) : EngCore :=
  if n = 0x00 then c.setSr 0 (c.srVal 0 &&& ~~~x)
  else if n = 0x01 then c.setSr 1 (x &&& 0xFFFF)
  else if n = 0x02 then c.setSr 2 (x &&& 0x1F)
  else if n = 0x08 then (List.range 8).foldl (fun d p => d.setPPhys (c.pPhys p) (x.getLsbD p)) c
  else if n = 0x09 ∨ n = 0x0A then
    let bx := c.srVal (n + 2)
    let bx := withField bx 16 13 0
    (c.setSr n (x &&& 0x80001FFF)).setSr (n + 2) (withField bx 0 8 (fieldOf bx 8 8))
  else if n = 0x0B ∨ n = 0x0C then c.setSr n (withField (c.srVal n) 8 8 (fieldOf x 8 8))
  else if n = 0x0F ∨ n = 0x10 then c.setSr n (x &&& 0x1F)
  else c.setSr n x

/-! ### Engine states and the control page -/

/-- An engine's lantern and die. -/
def lanOf (e : Nat) : Nat := e / 4
def dieOfLan (k : Nat) : Nat := k / 3

/-- A lantern's domain is on (LAN_STAT.PWR). -/
def State.lanOn (s : State) (k : Nat) : Bool := s.fld (Pg.lan k) Fld.LAN_LAN_STAT_PWR != 0

/-- A lantern's island runs: its gate is open and its loop locked (R362, R363, Table 15.4). -/
def State.lanClk (s : State) (k : Nat) : Bool :=
  s.fld (Pg.lan k) Fld.LAN_LAN_STAT_PWR == 1 && s.fld Pg.clkMl (Fld.ML_STAT_STATE (32 + k)) == 2 && !s.clk.failed

/-- STATUS.STATE: OFF while the lantern's domain is off (R136, Table 05.1). -/
def State.engState (s : State) (e : Nat) : Nat :=
  if s.lanOn (lanOf e) then s.fld (Pg.engCtl e) Fld.ENG_STATUS_STATE else 0

/-- The clock gate of a lantern follows its engines: it opens when one leaves HALTED, STOPPED and OFF; while PWR_CTRL.AUTOGATE is 1 and
the power manager runs, it closes when all four are in these states (R365, R413, R526). -/
def State.lanGate (s : State) (k : Nat) : State :=
  let idle := [0, 1, 2, 3].all fun i =>
    let st := s.fld (Pg.engCtl (4 * k + i)) Fld.ENG_STATUS_STATE
    st == 0 || st == 1 || st == 3
  let pwr := s.fld (Pg.lan k) Fld.LAN_LAN_STAT_PWR
  if pwr == 2 && !idle then s.setFld (Pg.lan k) Fld.LAN_LAN_STAT_PWR 1
  else if pwr == 1 && idle && s.bit Pg.pwr Fld.PWR_PWR_CTRL_AUTOGATE && s.bit Pg.mbx Fld.MBX_MBX_INFO_FW_RUN then
    s.setFld (Pg.lan k) Fld.LAN_LAN_STAT_PWR 2
  else s

def State.setEngState (s : State) (e n : Nat) : State := (s.setFld (Pg.engCtl e) Fld.ENG_STATUS_STATE n).lanGate (lanOf e)
def State.engPc (s : State) (e : Nat) : Nat := s.fld (Pg.engCtl e) Fld.ENG_PC_PC
def State.setEngPc (s : State) (e n : Nat) : State := s.setFld (Pg.engCtl e) Fld.ENG_PC_PC n

/-- Discards the saved SHIFTIN (R126). -/
def State.clearReplay (s : State) (e : Nat) : State := s.setFld (Pg.engCtl e) Fld.ENG_STATUS_REPLAY 0

/-- A fault (R131): the bundle is dropped, the engine stops, FAULT and FAULT_PC are written, the event raised, TRB0 counts. An engine that a sync has
reached stays in SYNCING (Table 05.2). -/
def State.engFault (s : State) (e code : Nat) (faultPc : Nat) : State :=
  let g := (s.eng e).drop
  let s := s.setEng e { g with taken := false, step := false, stepDone := false, atEnd := none }
  let s := s.setFld (Pg.engCtl e) Fld.ENG_STATUS_FAULT code
  let s := s.setFld (Pg.engCtl e) Fld.ENG_FAULT_PC_FAULT_PC faultPc
  ((if s.engState e = 4 then s else s.setEngState e 3).raise (Pg.engCtl e) Evt.ENG_FAULT).trb (Pg.engCtl e) 0

/-! ### Memories (R91, R92, R121, R524) -/

def progKey (e i : Nat) : Nat := e * 4096 + i
def dataKey (e i : Nat) : Nat := e * 32768 + i
def lanKey (k i : Nat) : Nat := k * 131072 + i

def State.progWord (s : State) (e i : Nat) : ProgWord := mgetD ⟨0, 0⟩ s.engs.prog (progKey e i)
def State.setProgWord (s : State) (e i : Nat) (w : ProgWord) : State :=
  { s with engs.prog := mputD ⟨0, 0⟩ s.engs.prog (progKey e i) w, engs.wbProg := mdel s.engs.wbProg (progKey e i) }
def State.dataWord (s : State) (e i : Nat) : EccWord := mgetD (.ok 0) s.engs.data (dataKey e i)
def State.setDataWord (s : State) (e i : Nat) (w : EccWord) : State :=
  { s with engs.data := mputD (.ok 0) s.engs.data (dataKey e i) w, engs.wbData := mdel s.engs.wbData (dataKey e i) }
def State.lanWord (s : State) (k i : Nat) : EccWord := mgetD (.ok 0) s.engs.lan (lanKey k i)
def State.setLanWord (s : State) (k i : Nat) (w : EccWord) : State :=
  { s with engs.lan := mputD (.ok 0) s.engs.lan (lanKey k i) w, engs.wbLan := mdel s.engs.wbLan (lanKey k i) }

def ProgWord.decode (w : ProgWord) : EccResult := eccDecode 128 9 w.data.toNat w.syn.toNat

/-- A 64-bit word memory an engine or the ring reaches: an engine's data memory or a lantern's memory. -/
def State.memWord (s : State) (m : LanMem) (i : Nat) : EccWord :=
  match m with
  | .lan k => s.lanWord k i
  | .data e => s.dataWord e i
  | .prog e => .ok (BitVec.ofNat 64 (fieldOf (s.progWord e (i / 2)).data (64 * (i % 2)) 64))

def State.setMemWord (s : State) (m : LanMem) (i : Nat) (w : EccWord) : State :=
  match m with
  | .lan k => s.setLanWord k i w
  | .data e => s.setDataWord e i w
  | .prog _ => s

/-- A memory of a lantern is in raw mode (R254). -/
def State.lanRaw (s : State) : LanMem → Bool
  | .lan k => s.isRaw 3 k 0
  | .data e => s.isRaw 4 e 0
  | .prog e => s.isRaw 5 e 0

/-- A corrected error: counted in LANk.TRB1 or ENGn_CTL.TRB4 and written back in an idle cycle (R524); neither in raw mode (R257). -/
def State.memCorrected (s : State) (m : LanMem) (i : Nat) (d : DWord) : State :=
  if s.lanRaw m then s else
  match m with
  | .lan k => { s.trb (Pg.lan k) 1 with engs.wbLan := mput (s.trb (Pg.lan k) 1).engs.wbLan (lanKey k i) d }
  | .data e => { s.trb (Pg.engCtl e) 4 with engs.wbData := mput (s.trb (Pg.engCtl e) 4).engs.wbData (dataKey e i) d }
  | .prog e => s.trb (Pg.engCtl e) 4

/-- Reads a 64-bit word with its check: the data, or none where it cannot be corrected. -/
def State.memRead (s : State) (m : LanMem) (i : Nat) : Option DWord × State :=
  let w := s.memWord m i
  match w.decode with
  | .clean => (some w.data, s)
  | .corrected d => (some (BitVec.ofNat 64 d), s.memCorrected m i (BitVec.ofNat 64 d))
  | .uncorrectable => (none, s)

/-- Reads a 64-byte line of eight words; none where any word cannot be corrected. -/
def State.memReadLine (s : State) (m : LanMem) (i : Nat) : Option Line × State :=
  (List.range 8).foldl (fun (acc : Option Line × State) j =>
    let (d, s) := acc.2.memRead m (i + j)
    (match acc.1, d with
     | some l, some d => some (withField l (64 * j) 64 d.toNat)
     | _, _ => none, s)) (some 0, s)

/-- Writes the bytes of a 64-bit word whose enables are set: a whole word is stored whatever it held; a part is merged into the
corrected word, and refused where the word cannot be corrected (R524). Answers whether it was performed. -/
def State.memWrite (s : State) (m : LanMem) (i : Nat) (be : Nat) (d : DWord) : Bool × State :=
  if be % 256 = 0 then (true, s)
  else if be % 256 = 255 then (true, s.setMemWord m i (.ok d))
  else match s.memRead m i with
    | (some old, s) => (true, s.setMemWord m i (.ok (mergeLanes 8 8 be old d)))
    | (none, s) => (false, s)

/-- Where an engine address leads (R91): the memory and the byte offset. -/
def engMem (e addr : Nat) : Option (LanMem × Nat) :=
  if addr < 0x40000 then some (.data (Fin.ofNat 96 e), addr)
  else if 0x100000 ≤ addr ∧ addr < 0x200000 then some (.lan (Fin.ofNat 24 (lanOf e)), addr - 0x100000)
  else none

/-! ### Stream ports (R106) -/

def Engine.outLen (g : Engine) (k : Nat) : Nat := if k = 0 then g.out0.length else g.out1.length
/-- The beat at the head of INk: the return slots stand before the FIFO. -/
def Engine.inHead (g : Engine) (k : Nat) : Option Beat := if k = 0 then (g.ret0 ++ g.in0).head? else (g.ret1 ++ g.in1).head?
def Engine.inPop (g : Engine) (k : Nat) : Engine :=
  if k = 0 then (if g.ret0.isEmpty then { g with in0 := g.in0.tail } else { g with ret0 := g.ret0.tail })
  else (if g.ret1.isEmpty then { g with in1 := g.in1.tail } else { g with ret1 := g.ret1.tail })

/-- A SHIFTIN takes beats while they are present, up to its b (R109). -/
def Engine.shiftTake (g : Engine) : Nat → Engine
  | 0 => g
  | n + 1 =>
    match g.shift with
    | none => g
    | some sh =>
      if sh.beats.length < sh.b then
        match g.inHead sh.k with
        | none => g
        | some bt => ({ g.inPop sh.k with shift := some { sh with beats := sh.beats ++ [bt] } }).shiftTake n
      else g

/-! ### Issuing a slot -/

/-- How a slot instruction ends: it is done, or it faults. -/
inductive SlotRes where
  | done (s : State)
  | fault (code : Nat)

/-- The engine issues: its clock runs, and it is RUNNING, or has the rest of a bundle begun when a halt or a sync came (R124, Table 05.4). A step is
over once its bundle is done (R128). -/
def State.engIssues (s : State) (e : Nat) : Bool :=
  let g := s.eng e
  let st := s.engState e
  (st == 2 || ((st == 5 || st == 4) && g.slot != 0)) && !g.stepDone && g.atEnd.isNone && s.lanClk (lanOf e)

/-- The first check of a bundle: past bundle 4,095, an uncorrectable fetch, a check of R95. A corrected fetch is counted. -/
def State.fetchBundle (s : State) (e : Nat) : Option Nat × State :=
  if (s.eng e).past then (some 5, s)
  else
    let pc := s.engPc e
    let w := s.progWord e pc
    match w.decode with
    | .uncorrectable => (some 7, s)
    | .clean => (if legalBundle w.data then none else some 1, s)
    | .corrected d =>
      let s := s.memCorrected (.prog (Fin.ofNat 96 e)) pc 0
      let s := if s.lanRaw (.prog (Fin.ofNat 96 e)) then s else
        { s with engs.wbProg := mput s.engs.wbProg (progKey e pc) (BitVec.ofNat 128 d) }
      (if legalBundle (BitVec.ofNat 128 d) then none else some 1, s)

/-- The slot word the bundle at PC holds, as corrected. -/
def State.progSlot (s : State) (e slot : Nat) : Word :=
  let w := s.progWord e (s.engPc e)
  bundleSlot (match w.decode with | .corrected d => BitVec.ofNat 128 d | _ => w.data) slot

/-- Stops with a fault: PCRANGE leaves PC at 0 and names no bundle the field could hold, so FAULT_PC is free (log 13). -/
def State.engStop (s : State) (e code : Nat) : State :=
  if code = 5 then
    let s := (s.engFault e 5 (s.freeLine.toNat % 4096)).useFree
    (s.setEng e { s.eng e with past := false }).setEngPc e 0
  else s.engFault e code (s.engPc e)

/-- The registers named by a slot word that a SHIFTIN in progress holds back (R109): its window, and slot 2 itself. -/
def usesWindow (c : EngCore) (slot : Nat) (w : Word) (sh : Shift) : Bool :=
  let op := opOf w
  let names : List Nat :=
    match slot with
    | 0 => []
    | 3 =>
      if op = 0 then [] else if op ≤ 0x07 ∨ op = 0x0A ∨ op = 0x0C then [fV_d w, fV_a w, fV_b w]
      else if op = 0x08 ∨ op = 0x09 ∨ op = 0x0F then [fV_d w, fV_a w]
      else if op = 0x0B then [fV_d w] else if op = 0x0D then [fV_a w]
      else if op = 0x0E ∨ op = 0x15 then []
      else if op = 0x14 then [fK_a w, fK_a w + 1, fieldOf w 7 6]
      else if op ≤ 0x13 then [fK_a w, fieldOf w 7 6]
      else if fieldOf w 5 1 = 0 then [fV_d w] else []
    | _ => if 1 ≤ op ∧ op ≤ 4 then [fM_v w] else []
  (slot == 2 && op != 0) || names.any (fun n => sh.window.contains (c.vPhys n))
    || (slot == 0 && op == 0x14 && fieldOf w 0 12 == 0x0D + sh.k)

/-- The guard of a slot word is absent or 1 (R94). -/
def EngCore.runs (c : EngCore) (w : Word) : Bool := fieldOf w 25 1 == 0 || c.pVal (fieldOf w 22 3)

/-- The output port a slot word sends a beat to: SOUT, or ACCOUT with O = 1 (Tables 04.6, 04.7). -/
def sendsTo (slot : Nat) (w : Word) : Option Nat :=
  if slot = 2 ∧ opOf w = 0x11 then some (fieldOf w 15 1)
  else if slot = 3 ∧ opOf w = 0x16 ∧ fieldOf w 5 1 = 1 then some (fV_d w % 2)
  else none

/-- The bundle at PC stalls at issue (R108, R109): a slot of it that runs uses what a SHIFTIN holds back, takes a beat from an empty input FIFO, or
its beats do not all find a free entry of their output FIFO. No slot has read anything then. -/
def State.bundleStalls (s : State) (e : Nat) : Bool :=
  let g := s.eng e
  let words := (([0, 1, 2, 3] : List Nat).map fun i => (i, s.progSlot e i)).filter fun w => g.core.runs w.2
  words.any (fun w => g.shift.any (usesWindow g.core w.1 w.2)
      || (w.1 == 2 && opOf w.2 == 0x10 && (g.inHead (fieldOf w.2 15 1)).isNone))
    || ([0, 1] : List Nat).any fun k =>
      let n := (words.filter fun w => sendsTo w.1 w.2 == some k).length
      decide (0 < n) && decide (64 < g.outLen k + n)

/-- WARM_LEN of an output port (R134). -/
def State.warmLen (s : State) (e k : Nat) : Nat :=
  if k = 0 then s.fld (Pg.engCtl e) Fld.ENG_WARM_LEN_OUT0 else s.fld (Pg.engCtl e) Fld.ENG_WARM_LEN_OUT1

/-- The sample count of an output port after one more beat: it stops once it passes WARM_LEN (R134). -/
def warmBump (len cnt : Nat) : Nat := if len < cnt then cnt else cnt + 32

/-- Takes over what the four slots wrote (R93): pops, stores in slot order, beats in slot order, the registers. Answers whether a store met a word
it could not merge (R524). -/
def State.engCommit (s : State) (e : Nat) : Bool × State :=
  let g := s.eng e
  let g' := g.pops.foldl (fun g k => g.inPop k) g
  let g' := g.beats.foldl (fun g b =>
    if b.1 = 0 then { g with out0 := g.out0 ++ [b.2], warm0 := warmBump (s.warmLen e 0) g.warm0 }
    else { g with out1 := g.out1 ++ [b.2], warm1 := warmBump (s.warmLen e 1) g.warm1 }) g'
  let g' := match g.shiftStart with
    | some sh => ({ g' with shift := some sh } : Engine).shiftTake 8
    | none => g'
  let s := s.setEng e { g' with core := g'.next }
  g.stores.foldl (fun (acc : Bool × State) st =>
    match engMem e st.addr with
    | none => acc
    | some (m, off) =>
      if st.wide then
        (acc.1, (List.range 8).foldl (fun s j => (s.memWrite m (off / 8 + j) 255 (BitVec.ofNat 64 (fieldOf st.data (64 * j) 64))).2) acc.2)
      else
        let hi := off / 4 % 2
        let (ok, s) := acc.2.memWrite m (off / 8) (15 <<< (4 * hi)) (BitVec.ofNat 64 (fieldOf st.data 0 32 <<< (32 * hi)))
        (acc.1 || !ok, s)) (false, s)

/-- Evaluates a hardware level at its last bundle: another pass, or the level ends (R115). -/
def endPass (c : EngCore) (lc la : Nat) : Option Nat × EngCore :=
  let n := (c.srVal lc).toNat
  if 0 < n then (some (fieldOf (c.srVal la) 0 12), c.setSr lc (BitVec.ofNat 32 (n - 1))) else (none, c)

/-- One pass end of a rotating body (R118): the window advances, the first stage is fed or drains; answers whether the body repeats. -/
def rotatePass (c : EngCore) (lc : Nat) : Bool × EngCore :=
  let c := c.setSr 0x02 (BitVec.ofNat 32 ((c.rotb + 1) % 32))
  let n := (c.srVal lc).toNat
  let c := if 0 < n then (c.setPPhys (c.pPhys 0) true).setSr lc (BitVec.ofNat 32 (n - 1)) else c.setPPhys (c.pPhys 0) false
  let sg := (c.srVal 0x05).toNat % 8
  let more := (List.range (sg + 1)).any fun p => c.pVal p
  (more, if more then c else c.setSr 0x05 0)

/-- Moves on after the end of a body: to `pc`, with the core given. -/
def State.afterBody (s : State) (e : Nat) (c : EngCore) (pc : Option Nat) (atEnd : Option Nat) : State :=
  let g := s.eng e
  let s := s.setEng e { g with core := c, next := c, atEnd := atEnd, past := if pc.isSome then false else g.past }
  match pc with | some p => s.setEngPc e p | none => s

/-- The last bundle of a hardware loop's body has issued: with LC > 0 another pass begins, else the level ends; level 1 first, then level 0 where its
body ends at the same bundle (R115, R116). Nothing where a rotating level is due, or no body has ended. -/
def State.loopBodyEnd (s : State) (e : Nat) : State :=
  let g := s.eng e
  let c := g.core
  match g.atEnd with
  | none => s
  | some at_ =>
    let level0 (c : EngCore) : State :=
      if c.lv0 = some false ∧ fieldOf (c.srVal 0x06) 16 12 = at_ then
        match endPass c 0x03 0x06 with
        | (some p, c) => s.afterBody e c (some p) none
        | (none, c) => s.afterBody e { c with lv0 := none } none none
      else s.afterBody e c none none
    if c.lv1 = some true ∧ fieldOf (c.srVal 0x07) 16 12 = at_ then s
    else if c.lv1 = none ∧ c.lv0 = some true then s
    else if c.lv1 = some false ∧ fieldOf (c.srVal 0x07) 16 12 = at_ then
      match endPass c 0x04 0x07 with
      | (some p, c) => s.afterBody e c (some p) none
      | (none, c) => level0 { c with lv1 := none }
    else level0 c

/-- The last bundle of a rotating body has issued (R118). Where the level ends and level 0's body ends at the same bundle, level 0 is still due
(R116). -/
def State.rotatingPassEnd (s : State) (e : Nat) : State :=
  let g := s.eng e
  let c := g.core
  match g.atEnd with
  | none => s
  | some at_ =>
    if c.lv1 = some true ∧ fieldOf (c.srVal 0x07) 16 12 = at_ then
      match rotatePass c 0x04 with
      | (true, c) => s.afterBody e c (some (fieldOf (c.srVal 0x07) 0 12)) none
      | (false, c) =>
        s.afterBody e { c with lv1 := none } none
          (if c.lv0.isSome ∧ fieldOf (c.srVal 0x06) 16 12 = at_ then some at_ else none)
    else if c.lv1 = none ∧ c.lv0 = some true ∧ fieldOf (c.srVal 0x06) 16 12 = at_ then
      match rotatePass c 0x03 with
      | (true, c) => s.afterBody e c (some (fieldOf (c.srVal 0x06) 0 12)) none
      | (false, c) => s.afterBody e { c with lv0 := none } none none
    else s

/-- What is due at the end of a body happens with its last bundle (R115, R118): a rotating level, then the hardware levels. -/
def State.bodyEnd (s : State) (e : Nat) : State := (s.rotatingPassEnd e).loopBodyEnd e

/-- A level's body ends at the bundle (LA0, LA1). -/
def EngCore.endsAt (c : EngCore) (pc : Nat) : Bool :=
  (c.lv1.isSome && fieldOf (c.srVal 0x07) 16 12 == pc) || (c.lv0.isSome && fieldOf (c.srVal 0x06) 16 12 == pc)

/-- A loop started by a bundle takes the free level, level 0 first (R116). -/
def EngCore.loopBegun (c : EngCore) : Option (Bool × Nat × Nat) → EngCore
  | none => c
  | some (rot, first, last) =>
    let la : Word := BitVec.ofNat 32 (last * 65536 + first)
    if c.lv0.isNone then { c.setSr 0x06 la with lv0 := some rot } else { c.setSr 0x07 la with lv1 := some rot }

/-- A taken branch whose target lies outside a level's body ends it and any level inside it (R116). -/
def EngCore.branched (c : EngCore) : Option Nat → EngCore
  | none => c
  | some t =>
    let inside (la : Word) : Bool := decide (fieldOf la 0 12 ≤ t) && decide (t ≤ fieldOf la 16 12)
    let end0 := c.lv0.isSome && !inside (c.srVal 0x06)
    let end1 := c.lv1.isSome && (end0 || !inside (c.srVal 0x07))
    let c := if (end1 && c.lv1 == some true) || (end0 && c.lv0 == some true) then c.setSr 0x05 0 else c
    { c with lv0 := if end0 then none else c.lv0, lv1 := if end1 then none else c.lv1 }

/-- The end of a bundle: what it wrote is taken over; PC moves on, to the branch target if one was taken; the end of a loop's body is noted
for LOOP_BODY_END or ROTATING_PASS_END, and is due at once where the engine stops here; a memory error stops the engine at the next bundle; a HALT
instruction or a step ends here (R96, R115, R128, R131). A LOOP with a count of 0 goes on after its body: where an enclosing body ends with the same bundle, that
end is evaluated (DEDUCED, log 134). -/
def State.bundleEnd (s : State) (e : Nat) : State :=
  let pc := s.engPc e
  let (bad, s) := s.engCommit e
  let g := s.eng e
  let err := g.memErr || bad
  let c := (g.core.loopBegun g.loopStart).branched g.branch
  let last := match g.skip with | some t => t - 1 | none => pc
  let atEnd : Option Nat := if g.branch.isNone && c.endsAt last then some last else none
  let nextPc := match g.branch, g.skip with | some t, _ => t | none, some t => t | none, none => pc + 1
  let g' := { ({ g with core := c } : Engine).drop with
    next := c, past := decide (4096 ≤ nextPc), atEnd := atEnd, stepDone := g.step }
  let s := (s.setEng e g').setEngPc e (nextPc % 4096)
  if err then (s.bodyEnd e).engFault e 4 pc
  else if g.haltAfter && s.engState e != 4 then
    let s := s.bodyEnd e
    let g' := s.eng e
    if g.shift.isSome then s.setEng e { g' with step := true, stepDone := true }
    else (s.setEng e { g' with stepDone := false, step := false }).setEngState e 1
  else s

/-- The slot is done; after slot 3 the bundle ends. -/
def State.slotDone (s : State) (e slot : Nat) : State :=
  let s := s.setEng e { s.eng e with slot := slot + 1 }
  if slot = 3 then s.bundleEnd e else s

/-- Issues one slot instruction: nothing happens unless the engine issues, the slot is the bundle's next and one of the instruction's own (opcode values are
separate for each slot, R97), and the program holds that word there. At slot 0 the bundle is fetched and checked (R95, R96), and then stalls whole where it must
(R108): a stall comes before any slot's fault, and of the slots the lowest that faults stops the engine (DEDUCED, log 134). A slot whose guard is 0 has no effect of any kind
(R94). -/
def State.issue (s : State) (slots : List Nat) (x : Issue) (op : BitVec 6) (body : BitVec 22) (act : State → SlotRes) : State :=
  let e := x.eng.val
  let g := s.eng e
  let here := s.progSlot e x.slot
  if !slots.contains x.slot.val || !s.engIssues e || g.slot != x.slot.val then s
  else if here ≠ slotWord op x.guard x.pg body ∧ !(op == 0 && !opListed x.slot (opOf here)) then s
  else if x.slot.val = 0 ∧ g.hold then s.setEng e { g with hold := false }
  else
    let (f, s1) := if x.slot.val = 0 then s.fetchBundle e else (none, s)
    match f with
    | some code => s1.engStop e code
    | none =>
      if x.slot.val = 0 ∧ s.bundleStalls e then s
      else if x.guard ∧ !g.core.pVal x.pg.toNat then s1.slotDone e x.slot
      else match act s1 with
        | .done s2 => s2.slotDone e x.slot
        | .fault code => s1.engStop e code

/-- A slot instruction that writes registers of the engine only: `f` maps what the slots read to what this slot writes. -/
def regOp (e : Nat) (f : EngCore → EngCore → EngCore) (s : State) : SlotRes :=
  let g := s.eng e
  .done (s.setEng e { g with next := f g.core g.next })

end Sys2Proof.Machine
end

