-- ==== Sys2Proof/Machine/Clocks.lean ====
section
/-!
DEFINITION. Clocks (chapter 15): the references and the DPLL's modes, loops, the gating tree, multiplexers. What a failure of the system
reference does stands in ClockFail.lean.
-/
namespace Sys2Proof.Machine

/-! ### References (R354 to R356) -/

/-- An input of the DPLL master, 0 REFA or 1 REFB, is present. -/
def State.refPresent (s : State) (i : Nat) : Bool :=
  s.bit Pg.clkRef (if i = 0 then Fld.REF_REF_STAT_REFA_VALID else Fld.REF_REF_STAT_REFB_VALID)
def State.refFreq (s : State) (i : Nat) : Nat :=
  s.fld Pg.clkRef (if i = 0 then Fld.REF_REF_STAT_REFA_FREQ else Fld.REF_REF_STAT_REFB_FREQ)

/-- MASTER_SEL permits an input. -/
def State.refPermitted (s : State) (i : Nat) : Bool :=
  let m := s.fld Pg.clkRef Fld.REF_DPLL_CTRL_MASTER_SEL
  m == 0 || m == i + 1

/-- The master that MASTER_SEL chooses among the inputs present (R356). -/
def State.chooseMaster (s : State) : Option Nat := [0, 1].find? fun i => s.refPresent i && s.refPermitted i

/-- An input is found absent (0), at 100 MHz (1) or at 156.25 MHz (2). -/
def State.setRefInput (s : State) (i freq : Nat) : State :=
  let v := if freq = 0 then 0 else 1
  if i = 0 then (s.setFld Pg.clkRef Fld.REF_REF_STAT_REFA_FREQ freq).setFld Pg.clkRef Fld.REF_REF_STAT_REFA_VALID v
  else (s.setFld Pg.clkRef Fld.REF_REF_STAT_REFB_FREQ freq).setFld Pg.clkRef Fld.REF_REF_STAT_REFB_VALID v

/-- What a measurement of an input finds: a free value (the spec gives the inputs no value). -/
def State.measureRef (s : State) (i : Nat) : State := s.useFree.setRefInput i (fieldOf s.freeLine 0 8 % 3)

/-- DISAGREE: both inputs are present and differ by more than 100 ppm; how far inputs of one nominal frequency differ is free (R355). -/
def State.compareRefs (s : State) : State :=
  let both := s.refPresent 0 && s.refPresent 1
  let differ := both && (s.refFreq 0 != s.refFreq 1 || s.freeLine.getLsbD 0)
  let s := s.useFree.setFld Pg.clkRef Fld.REF_REF_STAT_DISAGREE differ.toNat
  if differ then s.raise Pg.clkRef Evt.REF_DISAGREE else s

/-! ### Loops (R362 to R364) -/

/-- A loop's range in kHz (Table 15.4); fixed loops, ML62, which UCI_CFG.MAX_RATE sets, and the spare have none. -/
def loopRange (l : Nat) : Option (Nat × Nat) :=
  if l < 32 then some (10000, 1000000) else if l < 56 then some (200000, 1600000) else none

/-- The fixed loops' frequencies in kHz (Table 15.4). -/
def fixedLoops : List (Nat × Nat) :=
  [(56, 2400000), (57, 1000000), (58, 800000), (59, 800000), (60, 156250), (61, 1000000)]

/-- MX1 passes the ring oscillator or ML57 (R368). -/
def State.setMx1 (s : State) (ring : Bool) : State := s.setFld Pg.clkCtl Fld.CLK_MUX_STAT_MX1_SRC ring.toNat

/-- A forced switch is counted (R368). -/
def State.forced (s : State) : State := (s.trb Pg.clkCtl 0).raise Pg.clkCtl Evt.CLK_FORCED

/-- A loop is locked: its islands start at a low phase; MX1 moves to ML57 once that has locked. -/
def State.loopLock (s : State) (l : Nat) : State :=
  let s := (s.setLoopState l 2).setFld Pg.clkMl (Fld.ML_STAT_RELOCKS l) 0
  if l = 57 then s.setMx1 false else s

/-- ON = 1: a loop that is OFF starts (R362). -/
def effLoopOn (l : Nat) (s : State) : State :=
  let s := s.setFld Pg.clkMl (Fld.ML_CFG_ON l) 1
  if s.loopState l = 0 then s.setLoopState l 1 else s

/-- ON = 0: the loop stops. -/
def effLoopOff (l : Nat) (s : State) : State :=
  ((s.setFld Pg.clkMl (Fld.ML_CFG_ON l) 0).setLoopState l 0).setFld Pg.clkMl (Fld.ML_STAT_RELOCKS l) 0

/-! ### SYSREF starts (R357, R377 step 5) -/

/-- The DPLL runs on an input: MASTER. -/
def State.startMaster (s : State) (i : Nat) : State :=
  let s := ((s.setFld Pg.clkRef Fld.REF_DPLL_STAT_MODE 1).setFld Pg.clkRef Fld.REF_DPLL_STAT_REF 0xF).setFld Pg.clkRef Fld.REF_DPLL_STAT_MASTER i
  (s.setFld Pg.clkCtl Fld.CLK_MUX_STAT_MX0_SRC i).setFld Pg.clkCtl Fld.CLK_MUX_STAT_MX0_HUNG 0

/-- The fixed loops are locked and step 5 has ended. -/
def State.fixedStart (s : State) : State :=
  let s := fixedLoops.foldl (fun s e =>
    ((s.setFld Pg.clkMl (Fld.ML_CFG_FREQ_KHZ e.1) e.2).setFld Pg.clkMl (Fld.ML_CFG_ON e.1) 1).loopLock e.1) s
  { s with boot.refsUp := true }

/-- Step 5 of Table 16.2: with a master the DPLL is in MASTER, ML56 to ML61 are locked at their fixed frequencies and MX1 has moved to ML57. -/
def State.refsStart (s : State) : State :=
  match s.chooseMaster with
  | none => s
  | some i =>
    let s := s.startMaster i
    s.fixedStart

/-- OSC_DLY_EXPIRY: the delay has elapsed: both inputs are measured, the DPLL enters MASTER with one present (R354, R355, R357). -/
def execOscDlyExpiry (s : State) : Out :=
  if s.boot.held ≠ 0 ∨ s.boot.refsUp then .next s
  else .next (((s.measureRef 0).measureRef 1).compareRefs.refsStart)

/-! ### Timing references (R357 to R360) -/

/-- REFERENCE_QUALIFIED: a candidate has been valid and in range for QUAL_MS: it may be selected (R358). -/
def execReferenceQualified (j : Fin 8) (s : State) : Out :=
  if s.refPrio j = 0 ∨ s.refQual j ∨ !(s.fld Pg.clkRef Fld.REF_REF_STAT_LANE_VALID).testBit j then .next s
  else .next (s.setRefQual j true).reselect

/-- QUALIFICATION_LOSS: a candidate's frequency leaves ACCEPT_PPM (R358). -/
def execQualificationLoss (j : Fin 8) (s : State) : Out :=
  if s.refQual j then .next (s.setRefQual j false).reselect else .next s

/-- ACQUIRE_COMPLETE: ACQUIRE becomes TRACK (R357). -/
def execAcquireComplete (s : State) : Out :=
  if s.dpllMode = 2 then .next (s.setFld Pg.clkRef Fld.REF_DPLL_STAT_MODE 3) else .next s

/-- REF_PRIO is written: R358 applies afresh; with no candidate left the tracked reference is released (R359). -/
def effRefPrio (s : State) : State :=
  let s : State := { s with clk.released := false }
  let s := (List.range 8).foldl (fun s j => if s.refPrio j = 0 ∧ s.refQual j then s.setRefQual j false else s) s
  let none_ := (List.range 8).all fun j => s.refPrio j == 0
  if none_ then (if 2 ≤ s.dpllMode then s.releaseRef else s) else s.reselect

/-! ### The gating tree (R54, R365, R366) -/

/-- The gate of a lantern is open. -/
def State.lanOpen (s : State) (k : Nat) : Bool := s.fld (Pg.lan k) Fld.LAN_LAN_STAT_PWR == 1

def State.setCregOpen (s : State) (m c : Nat) (b : Bool) : State :=
  let v := s.fld (Pg.fabCtl m) Fld.FABCTL_CREG_ACTIVE_ACTIVE
  s.setFld (Pg.fabCtl m) Fld.FABCTL_CREG_ACTIVE_ACTIVE (v - (if v.testBit c then 2 ^ c else 0) + (if b then 2 ^ c else 0))

/-- A loop that is OFF. -/
def State.loopIsland (s : State) (l : Nat) : List Island := if s.loopState l = 0 then [.loop (Fin.ofNat 64 l)] else []

/-- The closed gates and the stopped loops before an end point: an interface that is ON shows GATED behind them, and what crosses raises a WICK for
each (Table 06.8, R366). -/
def State.epIslands (s : State) (stop ifc : Nat) : List Island :=
  match epKind stop ifc with
  | .lantern k => if s.fld (Pg.lan k) Fld.LAN_LAN_STAT_PWR = 2 then .lantern (Fin.ofNat 24 k) :: s.loopIsland (32 + k) else []
  | .port p =>
    (s.design.children.filter fun x => x.kind == 3 && x.index == p).flatMap fun x =>
      (if s.cregOpen x.die x.creg then [] else [.creg (Fin.ofNat 8 x.die) (Fin.ofNat 16 x.creg)])
        ++ (if s.fdieOpen x.die x.fclk then [] else [.fdie (Fin.ofNat 8 x.die) (Fin.ofNat 32 x.fclk)])
        ++ s.loopIsland x.fclk
  | _ => []

/-- A child of a clock region is busy (R365): a ring port with requests outstanding or a FIFO that is not empty, a lane port whose lane is
neither DISABLED nor OFF, a bank with an output enabled, a group that the image marks live. -/
def State.childBusy (s : State) (c : ClkChild) : Bool :=
  match c.kind with
  | 3 => s.fld (portPg c.index) Fld.FABPRT_OUTSTANDING_COUNT != 0 || !(mgetD [] s.fab.rsp c.index).isEmpty
          || !(mgetD [] s.fab.tgt c.index).isEmpty
  | 5 => let st := s.fld (Pg.lane c.index) Fld.LN_STAT_STATE
         st != 0 && st != 1
  | 4 => s.bankBusy c.index
  | 6 => c.live
  | _ => false

/-- The first of a list of candidates (kind, index, busy) that is busy, the lowest kind and index first. -/
def firstBusy (l : List (Nat × Nat × Bool)) : Option (Nat × Nat) :=
  l.foldl (fun (b : Option (Nat × Nat)) e =>
    if e.2.2 then
      match b with
      | none => some (e.1, e.2.1)
      | some x => if e.1 < x.1 ∨ (e.1 = x.1 ∧ e.2.1 < x.2) then some (e.1, e.2.1) else b
    else b) none

/-- The busy child of a clock region, if any. -/
def State.cregBusy (s : State) (m c : Nat) : Option (Nat × Nat) :=
  firstBusy ((s.design.children.filter fun x => x.die == m && x.creg == c).map fun x => (x.kind, x.index, s.childBusy x))

/-- The busy child of a die branch: an open clock region that selects the fabric clock. -/
def State.fdieBusy (s : State) (m b : Nat) : Option (Nat × Nat) :=
  firstBusy (((List.range 16).filter fun c => (s.cregClks m c).any fun x => s.clkSource m x == some b).map fun c =>
    (2, 16 * m + c, s.cregOpen m c))

/-- The busy child of a loop: an open die branch or lantern gate. -/
def State.loopBusy (s : State) (l : Nat) : Option (Nat × Nat) :=
  if l < 32 then firstBusy ((List.range 8).map fun m => (1, 32 * m + l, s.fdieOpen m l))
  else if l < 56 then (if s.lanOpen (l - 32) then some (7, l - 32) else none)
  else none

/-- The refusal of a request to close a gate: GATE_BUSY, CLK_CTL.TRB1 (R365). -/
def State.gateRefused (s : State) (b : Nat × Nat) : State :=
  let s := s.setReg Pg.clkCtl Reg.CLK_GATE_BUSY 0
  let s := (s.setFld Pg.clkCtl Fld.CLK_GATE_BUSY_KIND b.1).setFld Pg.clkCtl Fld.CLK_GATE_BUSY_INDEX b.2
  (s.setFld Pg.clkCtl Fld.CLK_GATE_BUSY_VALID 1).trb Pg.clkCtl 1

/-- The first busy child that a new gate word asks to close, `busy` naming the child of gate i. -/
def closeBusy (old new n : Nat) (busy : Nat → Option (Nat × Nat)) : Option (Nat × Nat) :=
  (List.range n).findSome? fun i => if new.testBit i && !old.testBit i then busy i else none

/-- CREG_GATE is written: the regions follow their requests. -/
def effCregGate (m old : Nat) (s : State) : State :=
  let v := s.fld (Pg.fabCtl m) Fld.FABCTL_CREG_GATE_GATE
  if s.fld (Pg.fabCtl m) Fld.FABCTL_DIE_STAT_PWR_STATE ≠ 3 then s
  else (List.range 16).foldl (fun s c =>
    let s := if v.testBit c then s else { s with clk.woken := s.clk.woken.filter (· ≠ .creg (Fin.ofNat 8 m) (Fin.ofNat 16 c)) }
    if v.testBit c == old.testBit c then s else s.setCregOpen m c (!v.testBit c)) s

/-- FDIE_GATEm is written: a branch whose request is withdrawn is open for good. -/
def effFdieGate (m : Nat) (s : State) : State :=
  let v := s.reg Pg.clkCtl (Reg.CLK_FDIE_GATE m)
  (List.range 32).foldl (fun s b =>
    if v.getLsbD b then s else { s with clk.woken := s.clk.woken.filter (· ≠ .fdie (Fin.ofNat 8 m) (Fin.ofNat 32 b)) }) s

/-- The clock regions of a die that has just been configured run, but those whose gating is requested. -/
def State.cregStart (s : State) (m : Nat) : State :=
  s.setFld (Pg.fabCtl m) Fld.FABCTL_CREG_ACTIVE_ACTIVE (0xFFFF - s.fld (Pg.fabCtl m) Fld.FABCTL_CREG_GATE_GATE)

/-- GATE_IDLE_CLOSE: an island that a WICK opened has been idle for 64 cycles: it closes again unless the request to close it has been withdrawn
(R366). -/
def execGateIdleClose (i : Island) (s : State) : Out :=
  if !s.clk.woken.contains i then .next s
  else
    match i with
    | .creg m c =>
      if (s.cregBusy m c).isSome then .next s
      else
        let s := { s with clk.woken := s.clk.woken.erase i }
        .next (if (s.fld (Pg.fabCtl m) Fld.FABCTL_CREG_GATE_GATE).testBit c then s.setCregOpen m c false else s)
    | .fdie m b => if (s.fdieBusy m b).isSome then .next s else .next { s with clk.woken := s.clk.woken.erase i }
    | .lantern k => .next ({ s with clk.woken := s.clk.woken.erase i }.lanGate k)
    | _ => .next { s with clk.woken := s.clk.woken.erase i }

/-- WICK_TIMEOUT: a WICK unanswered for 100 µs: WICK_TO, CLK_CTL.TRB2; the crossing keeps waiting (R366). -/
def execWickTimeout (i : Island) (s : State) : Out :=
  if s.wicks.contains i then .next ((s.trb Pg.clkCtl 2).raise Pg.clkCtl Evt.CLK_WICK_TO) else .next s

/-! ### Masters and multiplexers (R356, R367, R368) -/

/-- DRAM controllers exit self-refresh. -/
def State.dramWake (s : State) : State :=
  (List.range 136).foldl (fun s c => if s.cb c Fld.CB_CB_STAT_STATE = 4 then (s.rankUp c 0).rankUp c 1 else s) s

/-- SYSREF runs again; before the hold has ended only the DRAM controllers notice (R369). -/
def State.sysrefBack (s : State) : State :=
  let s : State := { s with clk.lost := false }
  if s.clk.failed then s else s.dramWake

/-- MX0 has to leave an input that has stopped: the forced path at once under AUTO_FORCE, else it hangs and SYSREF stops. -/
def State.mx0Leave (s : State) (next : Nat) : State :=
  if s.bit Pg.clkCtl Fld.CLK_MUX_CTRL_AUTO_FORCE then
    let s := s.forced.setFld Pg.clkCtl Fld.CLK_MUX_STAT_MX0_SRC next
    (s.setFld Pg.clkRef Fld.REF_DPLL_STAT_MASTER next).sysrefBack
  else { s.setFld Pg.clkCtl Fld.CLK_MUX_STAT_MX0_HUNG 1 with clk.lost := true }

/-- MASTER_SEL is written: where it excludes the master in use and permits the other one, which runs, MX0 switches normally. -/
def effMasterSel (s : State) : State :=
  let i := s.fld Pg.clkRef Fld.REF_DPLL_STAT_MASTER
  if s.dpllMode ≠ 0 ∧ !s.refPermitted i ∧ s.refPermitted (1 - i) ∧ s.refPresent (1 - i) ∧ s.refPresent i then
    (s.setFld Pg.clkRef Fld.REF_DPLL_STAT_MASTER (1 - i)).setFld Pg.clkCtl Fld.CLK_MUX_STAT_MX0_SRC (1 - i)
  else s

/-- An input is lost; the loss of the master in use is counted, and MX0 switches to the other input where it is present and permitted
(R356, R361). -/
def State.inputLost (s : State) (i : Nat) : State :=
  if !s.refPresent i then s
  else
    let s := (s.setRefInput i 0).setFld Pg.clkRef Fld.REF_REF_STAT_DISAGREE 0
    if s.dpllMode = 0 ∨ s.fld Pg.clkRef Fld.REF_DPLL_STAT_MASTER ≠ i then s
    else
      let s := (s.trb Pg.clkRef 1).raise Pg.clkRef Evt.REF_MASTER_LOSS
      if s.refPresent (1 - i) && s.refPermitted (1 - i) then s.mx0Leave (1 - i)
      else
        let s := (s.setFld Pg.clkRef Fld.REF_DPLL_STAT_MODE 0).setFld Pg.clkRef Fld.REF_DPLL_STAT_REF 0xF
        { s with clk.lost := true }

/-- CLOCK_LOSS: a monitor declares the loss of a clock (R361). -/
def execClockLoss (c : ClockSrc) (s : State) : Out :=
  match c with
  | .osc => .next (s.setFld Pg.clkCtl Fld.CLK_MUX_STAT_RO_SEL 1)
  | .refA => .next (s.inputLost 0)
  | .refB => .next (s.inputLost 1)
  | .recov j => .next (s.refLost j)
  | .sysref => .next (if s.dpllMode = 0 ∨ !s.boot.refsUp then s else { s with clk.lost := true })

end Sys2Proof.Machine
end

