-- ==== Sys2Proof/Machine/Reset.lean ====
section
/-!
DEFINITION. Reset classes (R12, R424, Table 17.7) and the cold, pin and system reset (R421, R422, R425).
-/
namespace Sys2Proof.Machine

/-- The reset class of a register. The EMB page is held in the ember domain, so its header is too; its lock is not kept (R435, R465). -/
def keyCls (key : Nat) : Option Cls :=
  let off := key % 1024 * 4
  match pageOf (key / 1024) with
  | none => none
  | some (k, i) =>
    match regAt k i off with
    | none => none
    | some (r, _) => some (if k = .emb ∧ off < 0x080 ∧ off ≠ 0x018 ∧ r.cls = .W then .E else r.cls)

/-- The registers of the classes that satisfy `p` keep their content; the others are at their reset value. -/
def State.keepRegs (s : State) (p : Cls → Bool) : State := { s with regs := mkeep (fun k => (keyCls k).any p) s.regs }

/-- Block programs cut off by a reset leave their blocks undefined; a pointer copy that was being programmed fails its CRC (R405,
Table 16.11). -/
def State.nvCut (s : State) : State :=
  let s := s.nv.progs.foldl (fun s p =>
    let l := s.freeLine
    let c := s.useFree.freeLine
    { s.useFree.useFree with nv.blocks := mputD {} s.nv.blocks p.block ⟨l, c.setWidth 64, c.getLsbD 64⟩ }) s
  match s.nv.flip with
  | none => { s with nv := { blocks := s.nv.blocks } }
  | some (off, _) =>
    let l := s.freeLine
    let crc := crcOf 2 (toBytes 60 l)
    { s.useFree with nv := { blocks := mputD {} s.nv.blocks (off / 64) ⟨withField l 480 32 (crc ^^^ 1), 0, false⟩ } }

/-- The whole device is reset except the ember domain: kind 1 cold, 2 pin, 3 system (RST_CAUSE.LAST), with the SYS cause; `held` says what holds
it in reset from then on. What has left the block, its waiting commands, its fuses, the NV store and, but for a cold reset, straps, S fields and applied
repairs stay. -/
def State.deviceReset (s : State) (kind sys held : Nat) : State :=
  let cold := kind == 1
  let s := (s.nvCut).keepRegs fun c => c = .E || (!cold && (c = .P || c = .S))
  let integ : Integ := { copies := s.integ.copies, staged := if cold then [] else s.integ.staged,
                         applied := if cold then [] else s.integ.applied, runtime := if cold then [] else s.integ.runtime }
  let mgmt : Mgmt := { jtagStat := s.mgmt.jtagStat, jtagData := s.mgmt.jtagData, tap := s.mgmt.tap, bsr := s.mgmt.bsr,
                        bsrIn := s.mgmt.bsrIn, perst := s.mgmt.perst, i2cAt := if cold then 0x5A else s.mgmt.i2cAt }
  let boot : Boot := { held := held, resetLow := s.boot.resetLow }
  let t : State := { pending := s.pending, ns := s.ns, free := s.free, partId := s.partId, serialNo := s.serialNo, fuses := s.fuses,
                     out := s.out, regs := s.regs, integ := integ, keys := { kek := s.keys.kek }, nv := s.nv,
                     ember := { s.ember with kekw := [] }, boot := boot, mgmt := mgmt }
  let t := t.setFld Pg.rst Fld.RST_RST_CAUSE_LAST kind
  let t := t.setFld Pg.rst Fld.RST_RST_CAUSE_SYS sys
  if cold then t.setFld Pg.rst Fld.RST_RST_CAUSE_COLD s.ember.cause
  else t.trb Pg.rst (if kind = 2 then 0 else 1)

/-- The D-class registers of a page return to reset (R424). -/
def State.domainReset (s : State) (pages : List Nat) : State :=
  { s with regs := mkeep (fun k => !(pages.contains (k / 1024) && decide (keyCls k = some .D))) s.regs }

end Sys2Proof.Machine
end

