-- ==== Sys2Proof/Machine/Ember.lean ====
section
/-!
DEFINITION. The ember domain (R426 to R434): time, event log, KEK, tamper inputs, supply.
-/
namespace Sys2Proof.Machine

/-! ### Time and log (R427, R432) -/

/-- The time counter: cycles of 32.768 kHz since the domain started. -/
def State.emberTime (s : State) : BitVec 64 := BitVec.ofNat 64 ((s.ns - s.ember.start) * 32768 / 1000000000)

/-- A new entry; with all 64 slots full the oldest is overwritten and LOST counts, saturating. -/
def State.emberLog (s : State) (code data : Nat) : State :=
  let e : EmberRec := ⟨s.emberTime, BitVec.ofNat 32 (code * 2 ^ 24 + data % 2 ^ 24)⟩
  let full := decide (64 ≤ s.ember.log.length)
  let s : State := { s with ember.log := (if full then s.ember.log.drop 1 else s.ember.log) ++ [e] }
  let s := s.setFld Pg.emb Fld.EMB_LOG_STAT_COUNT s.ember.log.length
  if full then s.setFld Pg.emb Fld.EMB_LOG_STAT_LOST (min 255 (s.fld Pg.emb Fld.EMB_LOG_STAT_LOST + 1)) else s

/-- Entry i, the oldest first; zero at or above the number held. -/
def State.emberEntry (s : State) (i : Nat) : EmberRec := s.ember.log.getD i ⟨0, 0⟩

/-- A latched alert source (Table 17.2). -/
def State.alert (s : State) (b : Nat) : State :=
  s.setReg Pg.pwr Reg.PWR_ALERT_SRC (s.reg Pg.pwr Reg.PWR_ALERT_SRC ||| (1 : Word) <<< b)

/-- Main power is present: VCC_AUX is, and the power-on reset has been released. -/
def State.mainPower (s : State) : Bool := !(s.boot.held == 1 || s.boot.held == 5)

/-! ### The KEK (R237, R431) -/

/-- KEK_KCV: bytes 0 to 3 of the encryption of a zero block. -/
def kekKcv (kek : BitVec 256) : Nat := bytesNat ((aesEnc (natBytes 32 kek.toNat) (List.replicate 16 0)).take 4)

/-- The KEK is zeroised: every slot but slot 0 becomes EMPTY at once, and a purge of such a slot ends. -/
def State.kekZero (s : State) : State :=
  let s : State := { s with keys.kek := none }
  let s := s.setFld Pg.emb Fld.EMB_KEK_KCV_KCV 0
  let s := (List.range 1023).foldl (fun s k => if s.slotState (k + 1) = 0 then s else s.zeroSlot (k + 1)) s
  match s.keys.purge with
  | some p => if p.slot = 0 then s else s.purgeDone p.slot
  | none => s

/-- KEK_CTRL.INSTALL: the KEK registers become the KEK. -/
def effInstall (s : State) : State :=
  let kek : BitVec 256 := (List.range 8).foldl (fun v w => v ||| ((mgetD 0 s.ember.kekw w).setWidth 256) <<< (32 * w)) 0
  let s : State := { s with keys.kek := some kek, ember.kekw := [] }
  (s.setFld Pg.emb Fld.EMB_KEK_KCV_KCV (kekKcv kek)).emberLog 0x05 0

/-- KEK_CTRL.ZEROISE. -/
def effZeroise (s : State) : State := s.kekZero.emberLog 0x04 2

/-- KEY.EMB_ALARM_ACK.ACK (R430). -/
def effAlarmAck (s : State) : State := (s.setFld Pg.key Fld.KEY_KEK_STAT_ALARM 0).emberLog 0x06 0

/-! ### Tamper inputs (R428, R429) -/

/-- TAMPERn_CFG fields of input n. -/
def tamperFld (n : Nat) (f : Fld) : Fld := f.sh (4 * n)
def State.tamperEn (s : State) (n : Nat) : Bool := s.bit Pg.emb (tamperFld n Fld.EMB_TAMPER0_CFG_EN)

/-- Whether the inputs are at their active level, input 0 in bit 0: the level of a pin is a free value (log 1). -/
def State.tamperLevels (s : State) : Nat := fieldOf s.freeLine 0 2

/-- An enabled input is at its active level now. -/
def State.tamperActive (s : State) : Bool :=
  (s.tamperEn 0 && s.tamperLevels.testBit 0) || (s.tamperEn 1 && s.tamperLevels.testBit 1)

/-- TAMPER: an enabled input has held its active level for FILTER_MS. What the ember domain does it does from either supply; alert, count
and security alarm need main power, and the alert and the alarm a device that is not held in reset. -/
def execTamper (n : Fin 2) (s : State) : Out :=
  if s.ember.lost ∨ !s.tamperEn n then .next s
  else
    let zero := s.bit Pg.emb (tamperFld n Fld.EMB_TAMPER0_CFG_ZEROISE)
    let s := if zero then s.kekZero else s
    let s := s.emberLog (0x02 + n) 0
    let s := if zero then s.emberLog 0x04 n else s
    let s := s.setFld Pg.key Fld.KEY_KEK_STAT_ALARM 1
    let s := if s.mainPower then s.trb Pg.emb 0 else s
    .next (if s.boot.held = 0 then (s.alert 4).alarm 11 Pg.emb (BitVec.ofNat 32 (2 ^ 29 + n)) else s)

/-! ### Supply (R426, R433, R434) -/

/-- VBAT has been measured: VBAT_LOW below 2.2 V, logged when it falls below, an alert while main power is present. -/
def State.vbatSeen (s : State) (mv : Nat) : State :=
  let low := decide (mv < 2200)
  let s := if low && !s.ember.low then s.emberLog 0x09 mv else s
  let s : State := { s with ember.low := low }
  if low && s.boot.held == 0 then s.alert 3 else s

/-- SUPPLY_SWITCH: the ember domain moves to VBAT, since VCC_AUX is out of range, or back. Without VCC_AUX the device is in cold reset; the cause of
the loss is the removal of the supply, unless a brown-out or a thermal trip came first. -/
def execSupplySwitch (toVbat : Bool) (mv : BitVec 16) (s : State) : Out :=
  if s.ember.lost then .next s
  else if toVbat then
    let s : State := { s with ember.onVbat := true }
    let s := s.vbatSeen mv.toNat
    if s.boot.held = 5 then .next s
    else
      let s : State := if s.boot.held = 1 ∨ s.boot.held = 3 then s else { s with ember.cause := 0 }
      .next (s.deviceReset 1 0 5)
  else
    let s : State := { s with ember.onVbat := false }
    .next (s.vbatSeen mv.toNat)

/-- EMBER_STATE_LOSS: VBAT falls below 1.8 V while VCC_AUX is absent: all ember state is lost. -/
def execEmberStateLoss (s : State) : Out :=
  if s.ember.lost ∨ !s.ember.onVbat then .next s
  else .next { s.keepRegs (fun c => c ≠ .E) with ember := { lost := true, onVbat := true }, keys := { s.keys with kek := none } }

/-- EMBER_START: either supply has returned: every E-class field at reset, the alarm latch set, the time counter at 0, one entry. -/
def execEmberStart (s : State) : Out :=
  if s.ember.lost then .next { s with ember := { start := s.ns, onVbat := s.boot.held == 5 } } else .next s

end Sys2Proof.Machine
end

