-- ==== Sys2Proof/Machine/EngScalar.lean ====
section
/-!
DEFINITION. The slot 0 instructions (R99, Table 04.5; loops R115 to R117): scalar, exponent, predicate and control.
-/
namespace Sys2Proof.Machine

/-! ### Shared operations -/

/-- Sd = op Sa Sb. -/
def aluR (x : Issue) (f : FmtR) (op : Word → Word → Word) : State → SlotRes :=
  regOp x.eng fun c n => n.setS f.d.toNat (op (c.sVal f.a.toNat) (c.sVal f.b.toNat))

/-- A branch to a bundle, taken after this one (R96). -/
def State.branchTo (s : State) (e t : Nat) : State := s.setEng e { s.eng e with branch := some t }

/-- Starts a loop of `count` passes over the `len` bundles that follow (R115 to R117): LOOPNEST when both levels are active or the
innermost one rotates; a count of 0 goes on after the body. A LOOPR inside a rotating body is no innermost level (R117): it faults as LOOP does
(DEDUCED, log 16). -/
def startLoop (e : Nat) (rot : Bool) (stages count len : Nat) (s : State) : SlotRes :=
  let g := s.eng e
  let c := g.core
  if (c.lv0.isSome ∧ c.lv1.isSome) ∨ c.lv0 = some true ∨ c.lv1 = some true then .fault 6
  else
    let pc := s.engPc e
    if count = 0 then .done (s.setEng e { g with skip := some (pc + 1 + len) })
    else
      let lc := if c.lv0.isNone then 0x03 else 0x04
      let n := g.next.setSr lc (BitVec.ofNat 32 (count - 1))
      let n := if rot then
          let n := n.setSr 0x05 (BitVec.ofNat 32 stages)
          (List.range 8).foldl (fun n p => n.setPPhys (c.pPhys p) (p == 0)) n
        else n
      .done (s.setEng e { g with next := n, loopStart := some (rot, pc + 1, pc + len) })

/-! ### The instructions -/

/-- NOP: no effect. It is also what stands for a slot whose opcode is not listed, which stops the engine (R95). -/
def execNop (x : Issue) (s : State) : Out := .next (s.issue [0, 1, 2, 3] x 0 (bodyHere s x) .done)
where
  /-- NOP ignores its fields: whatever the program holds there. -/
  bodyHere (s : State) (x : Issue) : BitVec 22 := BitVec.ofNat 22 (fieldOf (s.progSlot x.eng x.slot) 0 22)

/-- ADD: Sd = Sa + Sb. -/
def execAdd (x : Issue) (f : FmtR) (s : State) : Out := .next (s.issue [0] x 0x01 f.enc (aluR x f (· + ·)))
/-- SUB: Sd = Sa − Sb. -/
def execSub (x : Issue) (f : FmtR) (s : State) : Out := .next (s.issue [0] x 0x02 f.enc (aluR x f (· - ·)))
/-- AND. -/
def execAndR (x : Issue) (f : FmtR) (s : State) : Out := .next (s.issue [0] x 0x03 f.enc (aluR x f (· &&& ·)))
/-- OR. -/
def execOrR (x : Issue) (f : FmtR) (s : State) : Out := .next (s.issue [0] x 0x04 f.enc (aluR x f (· ||| ·)))
/-- XOR. -/
def execXorR (x : Issue) (f : FmtR) (s : State) : Out := .next (s.issue [0] x 0x05 f.enc (aluR x f (· ^^^ ·)))
/-- SHL: Sa shifted left by Sb[4:0]. -/
def execShl (x : Issue) (f : FmtR) (s : State) : Out :=
  .next (s.issue [0] x 0x06 f.enc (aluR x f fun a b => a <<< (b.toNat % 32)))
/-- SHR: logical shift right by Sb[4:0]. -/
def execShr (x : Issue) (f : FmtR) (s : State) : Out :=
  .next (s.issue [0] x 0x07 f.enc (aluR x f fun a b => a >>> (b.toNat % 32)))
/-- SRA: arithmetic shift right by Sb[4:0]. -/
def execSra (x : Issue) (f : FmtR) (s : State) : Out :=
  .next (s.issue [0] x 0x08 f.enc (aluR x f fun a b => a.sshiftRight (b.toNat % 32)))
/-- MUL: the low 32 bits of Sa × Sb. -/
def execMul (x : Issue) (f : FmtR) (s : State) : Out := .next (s.issue [0] x 0x09 f.enc (aluR x f (· * ·)))
/-- ADDI: Sd = Sa + imm. -/
def execAddi (x : Issue) (f : FmtI) (s : State) : Out :=
  .next (s.issue [0] x 0x0A f.enc (regOp x.eng fun c n => n.setS f.d.toNat (c.sVal f.a.toNat + f.imm.signExtend 32)))
/-- MOVI: Sd = imm sign-extended. -/
def execMovi (x : Issue) (f : FmtL) (s : State) : Out :=
  .next (s.issue [0] x 0x0B f.enc (regOp x.eng fun _ n => n.setS f.d.toNat (f.imm.signExtend 32)))
/-- MOVH: Sd[31:16] = imm[15:0], Sd[15:0] kept. -/
def execMovh (x : Issue) (f : FmtL) (s : State) : Out :=
  .next (s.issue [0] x 0x0C f.enc (regOp x.eng fun c n =>
    n.setS f.d.toNat (withField (c.sVal f.d.toNat) 16 16 (f.imm.toNat % 2 ^ 16))))
/-- CMP: Pd = (Sa cond Sb). -/
def execCmp (x : Issue) (f : FmtR) (s : State) : Out :=
  .next (s.issue [0] x 0x0D f.enc (regOp x.eng fun c n =>
    n.setPPhys (c.pPhys f.d.toNat) (cmpCond f.f.toNat (c.sVal f.a.toNat) (c.sVal f.b.toNat))))
/-- POP: predicate logic. -/
def execPop (x : Issue) (f : FmtR) (s : State) : Out :=
  .next (s.issue [0] x 0x0E f.enc (regOp x.eng fun c n =>
    n.setPPhys (c.pPhys f.d.toNat) (match f.f.toNat with
      | 0 => c.pVal f.a.toNat && c.pVal f.b.toNat
      | 1 => c.pVal f.a.toNat || c.pVal f.b.toNat
      | 2 => c.pVal f.a.toNat && !c.pVal f.b.toNat
      | 3 => true
      | _ => false)))
/-- SETE: Ed = imm. -/
def execSete (x : Issue) (f : FmtI) (s : State) : Out :=
  .next (s.issue [0] x 0x0F f.enc (regOp x.eng fun _ n => n.setE f.d.toNat (BitVec.ofInt 8 f.imm.toInt)))
/-- EADD: Ed = Ea + imm, clamped; ARG when clamped. -/
def execEadd (x : Issue) (f : FmtI) (s : State) : Out :=
  .next (s.issue [0] x 0x10 f.enc (regOp x.eng fun c n =>
    let (v, arg) := clamp8 ((c.eVal f.a.toNat).toInt + f.imm.toInt)
    (n.setE f.d.toNat (BitVec.ofInt 8 v)).flag 3 arg))
/-- EMIN: Ed = min(Ea, Eb). -/
def execEmin (x : Issue) (f : FmtR) (s : State) : Out :=
  .next (s.issue [0] x 0x11 f.enc (regOp x.eng fun c n =>
    n.setE f.d.toNat (BitVec.ofInt 8 (min (c.eVal f.a.toNat).toInt (c.eVal f.b.toNat).toInt))))
/-- MFE: Sd = Ea sign-extended. -/
def execMfe (x : Issue) (f : FmtR) (s : State) : Out :=
  .next (s.issue [0] x 0x12 f.enc (regOp x.eng fun c n => n.setS f.d.toNat ((c.eVal f.a.toNat).signExtend 32)))
/-- MTE: Ed = Sa clamped; ARG when clamped. -/
def execMte (x : Issue) (f : FmtR) (s : State) : Out :=
  .next (s.issue [0] x 0x13 f.enc (regOp x.eng fun c n =>
    let (v, arg) := clamp8 (c.sVal f.a.toNat).toInt
    (n.setE f.d.toNat (BitVec.ofInt 8 v)).flag 3 arg))
/-- MFSR: Sd = a special register; an unlisted number reads 0 (R89). -/
def execMfsr (x : Issue) (f : FmtI) (s : State) : Out :=
  .next (s.issue [0] x 0x14 f.enc fun s =>
    let g := s.eng x.eng
    let n := f.imm.toNat
    .done (s.setEng x.eng { g with next := g.next.setS f.d.toNat (g.core.srRead x.eng n) }))
/-- MTSR: a special register = Sa; a read-only or unlisted number, or a bad BLK, leaves every register unchanged and sets ARG (R89, R90). -/
def execMtsr (x : Issue) (f : FmtI) (s : State) : Out :=
  .next (s.issue [0] x 0x15 f.enc fun s =>
    let g := s.eng x.eng
    let n := f.imm.toNat
    let v := g.core.sVal f.a.toNat
    if !srWritable n || ((n == 0x09 || n == 0x0A) && !blkOk v) then
      .done (s.setEng x.eng { g with next := g.next.flag 3 true })
    else .done (s.setEng x.eng { g with next := g.next.srWrite n v, srW := n :: g.srW }))
/-- SETBX: BXk.BXN = Ea (R114). -/
def execSetbx (x : Issue) (f : FmtR) (s : State) : Out :=
  .next (s.issue [0] x 0x16 f.enc (regOp x.eng fun c n =>
    let r := 0x0B + f.d.toNat % 2
    n.setSr r (withField (n.srVal r) 8 8 (c.eVal f.a.toNat).toNat)))
/-- BR: branch to target. -/
def execBr (x : Issue) (f : FmtB) (s : State) : Out :=
  .next (s.issue [0] x 0x18 f.enc fun s => .done (s.branchTo x.eng f.target.toNat))
/-- CALL: S31 = index of the next bundle; branch. -/
def execCall (x : Issue) (f : FmtB) (s : State) : Out :=
  .next (s.issue [0] x 0x19 f.enc fun s =>
    let g := s.eng x.eng
    let s := s.setEng x.eng { g with next := g.next.setS 31 (BitVec.ofNat 32 (s.engPc x.eng + 1)) }
    .done (s.branchTo x.eng f.target.toNat))
/-- RET: branch to S31[11:0]. -/
def execRet (x : Issue) (f : FmtR) (s : State) : Out :=
  .next (s.issue [0] x 0x1A f.enc fun s => .done (s.branchTo x.eng (((s.eng x.eng).core.sVal 31).toNat % 4096)))
/-- LOOP: a hardware loop, its count from an immediate or from Sc (R115, R116). -/
def execLoop (x : Issue) (f : FmtP) (s : State) : Out :=
  .next (s.issue [0] x 0x1C f.enc fun s =>
    let count := if f.i = 1 then f.count.toNat else ((s.eng x.eng).core.sVal (fieldOf f.count 7 5)).toNat
    startLoop x.eng false 0 count (f.len.toNat + 1) s)
/-- LOOPR: a rotating loop of up to eight stages (R117). -/
def execLoopr (x : Issue) (f : FmtP) (s : State) : Out :=
  .next (s.issue [0] x 0x1D f.enc fun s =>
    startLoop x.eng true (fieldOf f.count 4 3) ((s.eng x.eng).core.sVal (fieldOf f.count 7 5)).toNat (f.len.toNat + 1) s)
/-- CLRRB: ROTB = 0 (R88). -/
def execClrrb (x : Issue) (f : FmtR) (s : State) : Out :=
  .next (s.issue [0] x 0x1E f.enc (regOp x.eng fun _ n => n.setSr 0x02 0))
/-- HALT: the engine halts after this bundle. -/
def execHalt (x : Issue) (f : FmtR) (s : State) : Out :=
  .next (s.issue [0] x 0x1F f.enc fun s => .done (s.setEng x.eng { s.eng x.eng with haltAfter := true }))

/-! ### Ends of loop bodies (R115, R116, R118) -/

/-- LOOP_BODY_END: the last bundle of a hardware loop's body has issued (R115, R116). -/
def execLoopBodyEnd (e : Fin 96) (s : State) : Out := .next (s.loopBodyEnd e)

/-- ROTATING_PASS_END: the last bundle of a rotating body has issued (R118). Where the level ends and level 0's body ends at the same bundle,
LOOP_BODY_END is due (R116). -/
def execRotatingPassEnd (e : Fin 96) (s : State) : Out := .next (s.rotatingPassEnd e)

end Sys2Proof.Machine
end

