-- ==== Sys2Proof/Machine/EngMem.lean ====
section
/-!
DEFINITION. The slot 1 and slot 2 instructions (R100, Table 04.6): loads, stores and streams, with the beats of the stream ports
(R106 to R114, R134).
-/
namespace Sys2Proof.Machine

/-! ### Addresses -/

/-- The engine address Sa + off × unit, modulo 2^32. -/
def effAddr (c : EngCore) (f : FmtM) (unit : Int) : Nat :=
  (c.sVal f.base.toNat + BitVec.ofInt 32 (f.off.toInt * unit)).toNat

/-- The base register's address. -/
def baseAddr (c : EngCore) (f : FmtM) : Nat := (c.sVal f.base.toNat).toNat

/-- The fault of an access, if any: ALIGN or ADDR (R91). An address both misaligned and unmapped is reported as ALIGN (DESIGN CHOICE, log 134). -/
def accessFault (e addr size : Nat) : Option Nat :=
  if addr % size ≠ 0 then some 3 else if (engMem e addr).isNone then some 2 else none

/-- A vector load from an address; an uncorrectable word leaves the destination and stops the engine at the bundle's end (R91, R131). -/
def loadVector (e : Nat) (v addr : Nat) (s : State) : State :=
  match engMem e addr with
  | none => s
  | some (m, off) =>
    let (l, s) := s.memReadLine m (off / 8)
    let g := s.eng e
    match l with
    | some l => s.setEng e { g with next := g.next.setVPhys (g.core.vPhys v) l }
    | none => s.setEng e { g with memErr := true }

/-- Sa = Sa + off × 64. -/
def postInc (e : Nat) (f : FmtM) (s : State) : State :=
  let g := s.eng e
  s.setEng e { g with next := g.next.setS f.base.toNat (BitVec.ofNat 32 (effAddr g.core f 64)) }

/-- Notes a store of the bundle. -/
def pushStore (e : Nat) (st : EStore) (s : State) : State :=
  let g := s.eng e
  s.setEng e { g with stores := g.stores ++ [st] }

/-! ### Loads and stores -/

/-- VLD: Vv = vector at Sa + off × 64. -/
def execVld (x : Issue) (f : FmtM) (s : State) : Out :=
  .next (s.issue [1, 2] x 0x01 f.enc fun s =>
    let addr := effAddr (s.eng x.eng).core f 64
    match accessFault x.eng addr 64 with
    | some c => .fault c
    | none => .done (loadVector x.eng f.v.toNat addr s))

/-- VLDI: Vv = vector at Sa; Sa = Sa + off × 64, also where the load meets MEMERR: only its destination is said to be unchanged (DEDUCED, log 134). -/
def execVldi (x : Issue) (f : FmtM) (s : State) : Out :=
  .next (s.issue [1, 2] x 0x02 f.enc fun s =>
    let addr := baseAddr (s.eng x.eng).core f
    match accessFault x.eng addr 64 with
    | some c => .fault c
    | none => .done (postInc x.eng f (loadVector x.eng f.v.toNat addr s)))

/-- VST: vector at Sa + off × 64 = Vv. -/
def execVst (x : Issue) (f : FmtM) (s : State) : Out :=
  .next (s.issue [1, 2] x 0x03 f.enc fun s =>
    let c := (s.eng x.eng).core
    let addr := effAddr c f 64
    match accessFault x.eng addr 64 with
    | some code => .fault code
    | none => .done (pushStore x.eng ⟨addr, true, c.vVal f.v.toNat⟩ s))

/-- VSTI: vector at Sa = Vv; Sa = Sa + off × 64. -/
def execVsti (x : Issue) (f : FmtM) (s : State) : Out :=
  .next (s.issue [1, 2] x 0x04 f.enc fun s =>
    let c := (s.eng x.eng).core
    let addr := baseAddr c f
    match accessFault x.eng addr 64 with
    | some code => .fault code
    | none => .done (postInc x.eng f (pushStore x.eng ⟨addr, true, c.vVal f.v.toNat⟩ s)))

/-- LDW: Sv = word at Sa + off × 4. -/
def execLdw (x : Issue) (f : FmtM) (s : State) : Out :=
  .next (s.issue [1, 2] x 0x05 f.enc fun s =>
    let addr := effAddr (s.eng x.eng).core f 4
    match accessFault x.eng addr 4 with
    | some c => .fault c
    | none =>
      match engMem x.eng addr with
      | none => .fault 2
      | some (m, off) =>
        let (d, s) := s.memRead m (off / 8)
        let g := s.eng x.eng
        match d with
        | some d =>
          .done (s.setEng x.eng { g with next := g.next.setS f.v.toNat (BitVec.ofNat 32 (fieldOf d (32 * (off / 4 % 2)) 32)) })
        | none => .done (s.setEng x.eng { g with memErr := true }))

/-- STW: word at Sa + off × 4 = Sv. -/
def execStw (x : Issue) (f : FmtM) (s : State) : Out :=
  .next (s.issue [1, 2] x 0x06 f.enc fun s =>
    let c := (s.eng x.eng).core
    let addr := effAddr c f 4
    match accessFault x.eng addr 4 with
    | some code => .fault code
    | none => .done (pushStore x.eng ⟨addr, false, (c.sVal f.v.toNat).setWidth 512⟩ s))

/-! ### Sending a beat (R107, R108, R111 to R113, R134) -/

/-- The block state of an output port as a bundle sees it: EN, BLK, SCNT, BXN, BXC (R90, R111). -/
structure PortBlock where
  en : Bool
  blk : Nat
  scnt : Nat
  bxn : Byte
  bxc : Byte
deriving DecidableEq, Repr

/-- Half a beat, 16 samples: a block start takes BXN into BXC; SCNT moves on and returns to 0 at BLK (R111, R112). -/
def PortBlock.half (b : PortBlock) : Bool × PortBlock :=
  let start := b.scnt == 0
  let bxc := if start then b.bxn else b.bxc
  (start, { b with bxc := bxc, scnt := if b.scnt + 16 = b.blk then 0 else b.scnt + 16 })

/-- The two halves of a beat: whether each starts a block, the exponents of each, and what is left. Outside block-floating-point
mode nothing is counted. -/
def PortBlock.beat (b : PortBlock) : (Bool × Byte) × (Bool × Byte) × PortBlock :=
  if b.en then
    let (s0, b0) := b.half
    let (s1, b1) := b0.half
    ((s0, b0.bxc), (s1, b1.bxc), b1)
  else ((false, 0), (false, 0), b)

/-- The block state that a beat of this bundle meets: what the slots read, moved on by the beats the bundle has sent to the port before it. A write of
BFPCFGk or BXk by the bundle itself comes later (R93). -/
def portBlock (g : Engine) (k : Nat) : PortBlock :=
  let c := g.core
  let cfg := c.srVal (0x09 + k)
  let bx := c.srVal (0x0B + k)
  (g.beats.filter fun p => p.1 == k).foldl (fun b _ => b.beat.2.2)
    ⟨cfg.getLsbD 31, fieldOf cfg 0 13, fieldOf bx 16 13, BitVec.ofNat 8 (fieldOf bx 8 8), BitVec.ofNat 8 (fieldOf bx 0 8)⟩

/-- Sends a beat to OUTk: its sideband is put together, the block state and SBOk.LAST move on; the beat enters the FIFO when the bundle
ends. Where the bundle writes BFPCFGk, that write has the last word on SCNT and BXC (R90). -/
def sendBeat (e k : Nat) (data : Line) (s : State) : State :=
  let g := s.eng e
  let b := portBlock g k
  let ((bs0, e0), (bs1, e1), b') := b.beat
  let sbo := g.core.srVal (0x0F + k)
  let first := !(g.beats.any fun p => p.1 == k)
  let lastBit := sbo.getLsbD 4 && first
  let cnt := (List.replicate (g.beats.filter fun p => p.1 == k).length ()).foldl (fun n _ => warmBump (s.warmLen e k) n)
    (if k = 0 then g.warm0 else g.warm1)
  let warm := decide (cnt < s.warmLen e k)
  let sb : BitVec 24 := e1 ++ e0 ++ BitVec.ofBool warm ++ BitVec.ofBool bs1 ++ BitVec.ofBool bs0 ++ BitVec.ofBool lastBit
    ++ BitVec.ofNat 4 (fieldOf sbo 0 4)
  let n := g.next
  let n := if g.srW.contains (0x0F + k) then n else n.setSr (0x0F + k) (withField (n.srVal (0x0F + k)) 4 1 0)
  let n := if g.srW.contains (0x09 + k) || !b.en then n
    else
      let bx := withField (n.srVal (0x0B + k)) 16 13 b'.scnt
      n.setSr (0x0B + k) (withField bx 0 8 b'.bxc.toNat)
  let bt : Beat := ⟨data, sb⟩
  s.setEng e { g with next := n, beats := g.beats ++ [(k, bt)] }

/-! ### Streams -/

/-- SIN: Vv = next beat of INk; SBIk = its sideband. Its bundle has waited for the beat (R108, bundleStalls). -/
def execSin (x : Issue) (f : FmtT) (s : State) : Out :=
  .next (s.issue [2] x 0x10 f.enc fun s =>
    let g := s.eng x.eng
    let k := f.k.toNat
    match g.inHead k with
    | none => .done s
    | some bt =>
      let n := (g.next.setVPhys (g.core.vPhys f.v.toNat) bt.data).setSr (0x0D + k) (bt.sb.setWidth 32)
      .done (s.setEng x.eng { g with next := n, pops := g.pops ++ [k] }))

/-- SOUT: sends Vv as a beat on OUTk. Its bundle has waited for a free FIFO entry (R108, bundleStalls). -/
def execSout (x : Issue) (f : FmtT) (s : State) : Out :=
  .next (s.issue [2] x 0x11 f.enc fun s =>
    .done (sendBeat x.eng f.k.toNat ((s.eng x.eng).core.vVal f.v.toNat) s))

/-- SHIFTIN: issues without waiting and takes b beats from INk while they are present (R109). -/
def execShiftin (x : Issue) (f : FmtT) (s : State) : Out :=
  .next (s.issue [2] x 0x12 f.enc fun s =>
    let g := s.eng x.eng
    let n := f.n1.toNat + 1
    let b := f.b1.toNat + 1
    let sh : Shift := ⟨f.v.toNat, f.k.toNat, n, b, (List.range n).map fun j => g.core.vPhys (f.v.toNat + j), []⟩
    .done (s.setEng x.eng { g with shiftStart := some sh }))

/-- Updates a SHIFTIN's window in one step (R109). -/
def shiftWindow (c : EngCore) (sh : Shift) : EngCore :=
  let old := sh.window.map fun r => mgetD 0 c.v r
  let new := old.drop sh.b ++ sh.beats.map Beat.data
  let c := (sh.window.zip new).foldl (fun c p => c.setVPhys p.1 p.2) c
  match sh.beats.getLast? with
  | some bt => c.setSr (0x0D + sh.k) (bt.sb.setWidth 32)
  | none => c

/-- SHIFTIN_WINDOW_UPDATE: when the last beat has arrived, the window and SBIk are updated in one step (R109). -/
def execShiftinWindowUpdate (e : Fin 96) (s : State) : Out :=
  let g := s.eng e
  match g.shift with
  | none => .next s
  | some sh =>
    if sh.beats.length = sh.b ∧ s.engState e ≠ 0 then
      .next (s.setEng e { g with core := shiftWindow g.core sh, next := shiftWindow g.next sh, shift := none })
    else .next s

/-- INPUT_BEAT: a beat from the fabric enters INk's FIFO of 64 (R106); a SHIFTIN waiting for it takes it (R109). A full FIFO holds the
fabric off: nothing is taken. -/
def execInputBeat (e : Fin 96) (k : Fin 2) (data : Line) (sb : BitVec 24) (s : State) : Out :=
  if s.engState e = 0 ∨ !s.dieUp (dieOfLan (lanOf e)) then .next s
  else
    let g := s.eng e
    let q := if k.val = 0 then g.in0 else g.in1
    if 64 ≤ q.length then .next s
    else
      let bt : Beat := ⟨data, sb⟩
      let g := if k.val = 0 then { g with in0 := g.in0 ++ [bt] } else { g with in1 := g.in1 ++ [bt] }
      .next (s.setEng e (g.shiftTake 8))

/-- OUTPUT_BEAT: the fabric takes the oldest beat of OUTk's FIFO (R106). -/
def execOutputBeat (e : Fin 96) (k : Fin 2) (s : State) : Out :=
  if s.engState e = 0 ∨ !s.dieUp (dieOfLan (lanOf e)) then .next s
  else
    let g := s.eng e
    match (if k.val = 0 then g.out0 else g.out1) with
    | [] => .next s
    | b :: rest =>
      let s := s.setEng e (if k.val = 0 then { g with out0 := rest } else { g with out1 := rest })
      .next (s.emit (.beat e k b))

end Sys2Proof.Machine
end

