-- ==== Sys2Proof/Machine/EngVec.lean ====
section
/-!
DEFINITION. The slot 3 instructions (R101 to R105, Table 04.7): vector ALU, exponents, multiply-accumulate, ACCOUT.
-/
namespace Sys2Proof.Machine

/-! ### Shared operations -/

/-- The element width of a type bit: H 16, W 32. -/
def elemW (t : BitVec 1) : Nat := if t = 1 then 32 else 16
/-- The elements of a vector register of a type. -/
def vElems (t : BitVec 1) (v : Line) : List Int := elems (elemW t) (512 / elemW t) v
/-- A vector put together from elements of a type. -/
def vPack (t : BitVec 1) (l : List Int) : Line := pack 512 (elemW t) l
/-- The 32 elements of an accumulator. -/
def aElems (a : BitVec 1536) : List Int := elems 48 32 a
/-- An accumulator put together from its elements. -/
def aPack (l : List Int) : BitVec 1536 := pack 1536 48 l

/-- Vd = an element operation, narrowed (R102). -/
def vecNarrow (x : Issue) (f : FmtV) (op : EngCore → List Int) : State → SlotRes :=
  regOp x.eng fun c n =>
    let r := narrow (elemW f.t) (f.s == 1) (op c)
    (n.setVPhys (c.vPhys f.d.toNat) (vPack f.t r.elems)).narrowFlags r

/-- Vd = a bitwise operation. -/
def vecBits (x : Issue) (f : FmtV) (op : Line → Line → Line) : State → SlotRes :=
  regOp x.eng fun c n => n.setVPhys (c.vPhys f.d.toNat) (op (c.vVal f.a.toNat) (c.vVal f.b.toNat))

/-- Vd = an element operation that never overflows. -/
def vecMap2 (x : Issue) (f : FmtV) (op : Int → Int → Int) : State → SlotRes :=
  regOp x.eng fun c n =>
    n.setVPhys (c.vPhys f.d.toNat)
      (vPack f.t (List.zipWith op (vElems f.t (c.vVal f.a.toNat)) (vElems f.t (c.vVal f.b.toNat))))

/-- Ad = exact element results taken modulo 2^48; AWRAP where one left the range (R103). -/
def accSet (x : Issue) (ad : Nat) (op : EngCore → List Int) : State → SlotRes :=
  regOp x.eng fun c n =>
    let (l, wrap) := accWrap (op c)
    (n.setA ad (aPack l)).flag 2 wrap

/-- The products Va[i] × Vb[i]. -/
def products (c : EngCore) (f : FmtK) : List Int :=
  List.zipWith (· * ·) (vElems 0 (c.vVal f.a.toNat)) (vElems 0 (c.vVal f.b.toNat))

/-- Ed = a leading-sign count, with M = 1 the smaller of it and the present Ed (R105). -/
def expSet (x : Issue) (f : FmtV) (cnt : EngCore → Nat) : State → SlotRes :=
  regOp x.eng fun c n =>
    let m : Int := cnt c
    n.setE f.d.toNat (BitVec.ofInt 8 (if f.s = 1 then min m (c.eVal f.d.toNat).toInt else m))

/-! ### Vector arithmetic -/

/-- VADD: Vd = Va + Vb narrowed. -/
def execVadd (x : Issue) (f : FmtV) (s : State) : Out :=
  .next (s.issue [3] x 0x01 f.enc (vecNarrow x f fun c =>
    List.zipWith (· + ·) (vElems f.t (c.vVal f.a.toNat)) (vElems f.t (c.vVal f.b.toNat))))
/-- VSUB: Vd = Va − Vb narrowed. -/
def execVsub (x : Issue) (f : FmtV) (s : State) : Out :=
  .next (s.issue [3] x 0x02 f.enc (vecNarrow x f fun c =>
    List.zipWith (· - ·) (vElems f.t (c.vVal f.a.toNat)) (vElems f.t (c.vVal f.b.toNat))))
/-- VAND. -/
def execVand (x : Issue) (f : FmtV) (s : State) : Out := .next (s.issue [3] x 0x03 f.enc (vecBits x f (· &&& ·)))
/-- VOR. -/
def execVor (x : Issue) (f : FmtV) (s : State) : Out := .next (s.issue [3] x 0x04 f.enc (vecBits x f (· ||| ·)))
/-- VXOR. -/
def execVxor (x : Issue) (f : FmtV) (s : State) : Out := .next (s.issue [3] x 0x05 f.enc (vecBits x f (· ^^^ ·)))
/-- VMAX. -/
def execVmax (x : Issue) (f : FmtV) (s : State) : Out := .next (s.issue [3] x 0x06 f.enc (vecMap2 x f max))
/-- VMIN. -/
def execVmin (x : Issue) (f : FmtV) (s : State) : Out := .next (s.issue [3] x 0x07 f.enc (vecMap2 x f min))
/-- VSHL: shifted left by the immediate b, narrowed. -/
def execVshl (x : Issue) (f : FmtV) (s : State) : Out :=
  .next (s.issue [3] x 0x08 f.enc (vecNarrow x f fun c => (vElems f.t (c.vVal f.a.toNat)).map fun y => y * 2 ^ f.b.toNat))
/-- VSRA: shifted right arithmetically by the immediate b; truncates. -/
def execVsra (x : Issue) (f : FmtV) (s : State) : Out :=
  .next (s.issue [3] x 0x09 f.enc (regOp x.eng fun c n =>
    n.setVPhys (c.vPhys f.d.toNat) (vPack f.t ((vElems f.t (c.vVal f.a.toNat)).map fun y => y / 2 ^ f.b.toNat))))
/-- VMUL: (Va × Vb) shifted right by 15, narrowed; type H. -/
def execVmul (x : Issue) (f : FmtV) (s : State) : Out :=
  .next (s.issue [3] x 0x0A f.enc (vecNarrow x f fun c =>
    List.zipWith (fun a b => a * b / 2 ^ 15) (vElems 0 (c.vVal f.a.toNat)) (vElems 0 (c.vVal f.b.toNat))))
/-- VBCST: every element of Vd = Sa. -/
def execVbcst (x : Issue) (f : FmtV) (s : State) : Out :=
  .next (s.issue [3] x 0x0B f.enc (regOp x.eng fun c n =>
    n.setVPhys (c.vPhys f.d.toNat) (vPack f.t (List.replicate (512 / elemW f.t) (c.sVal f.a.toNat).toInt))))
/-- VNORM: Vb[i] = the leading-sign count of Va[i], Vd[i] = Va[i] shifted left by it (R105). The spec does not say which of
the two a register named for both would hold: it is then free (log 14). -/
def execVnorm (x : Issue) (f : FmtV) (s : State) : Out :=
  .next (s.issue [3] x 0x0C f.enc fun s =>
    let g := s.eng x.eng
    let c := g.core
    let l := vElems f.t (c.vVal f.a.toNat)
    let cnt := l.map fun y => (lsCount (elemW f.t) y : Int)
    let sh := List.zipWith (fun y k => y * 2 ^ k.toNat) l cnt
    if f.d = f.b then
      .done (s.setEng x.eng { g with next := g.next.setVPhys (c.vPhys f.d.toNat) s.freeLine }).useFree
    else
      let n := (g.next.setVPhys (c.vPhys f.b.toNat) (vPack f.t cnt)).setVPhys (c.vPhys f.d.toNat) (vPack f.t sh)
      .done (s.setEng x.eng { g with next := n }))

/-! ### Exponents -/

/-- VEXP: the minimum leading-sign count over the elements of Va. -/
def execVexp (x : Issue) (f : FmtV) (s : State) : Out :=
  .next (s.issue [3] x 0x0D f.enc (expSet x f fun c => minLsCount (elemW f.t) (vElems f.t (c.vVal f.a.toNat))))
/-- AEXP: the same over the 32 accumulator elements at width 48. -/
def execAexp (x : Issue) (f : FmtV) (s : State) : Out :=
  .next (s.issue [3] x 0x0E f.enc (expSet x f fun c => minLsCount 48 (aElems (c.aVal f.a.toNat))))
/-- VSCALE: Eb ≥ 0 shifts left by Eb, narrowed; Eb < 0 shifts right by −Eb, truncating. -/
def execVscale (x : Issue) (f : FmtV) (s : State) : Out :=
  .next (s.issue [3] x 0x0F f.enc (vecNarrow x f fun c =>
    let k := (c.eVal f.b.toNat).toInt
    (vElems f.t (c.vVal f.a.toNat)).map fun y => if 0 ≤ k then y * 2 ^ k.toNat else y / 2 ^ (-k).toNat))

/-! ### Multiply-accumulate -/

/-- VMAC: Ad[i] = Ad[i] + Va[i] × Vb[i]. -/
def execVmac (x : Issue) (f : FmtK) (s : State) : Out :=
  .next (s.issue [3] x 0x10 f.enc (accSet x f.ad.toNat fun c => List.zipWith (· + ·) (aElems (c.aVal f.ad.toNat)) (products c f)))
/-- VMPY: Ad[i] = Va[i] × Vb[i]. -/
def execVmpy (x : Issue) (f : FmtK) (s : State) : Out :=
  .next (s.issue [3] x 0x11 f.enc (accSet x f.ad.toNat fun c => products c f))
/-- VMSUB: Ad[i] = Ad[i] − Va[i] × Vb[i]. -/
def execVmsub (x : Issue) (f : FmtK) (s : State) : Out :=
  .next (s.issue [3] x 0x12 f.enc (accSet x f.ad.toNat fun c => List.zipWith (· - ·) (aElems (c.aVal f.ad.toNat)) (products c f)))
/-- VMACB: Ad[i] = Ad[i] + Va[i] × Vb[k]. -/
def execVmacb (x : Issue) (f : FmtK) (s : State) : Out :=
  .next (s.issue [3] x 0x13 f.enc (accSet x f.ad.toNat fun c =>
    let b := (vElems 0 (c.vVal f.b.toNat)).getD f.k.toNat 0
    List.zipWith (· + ·) (aElems (c.aVal f.ad.toNat)) ((vElems 0 (c.vVal f.a.toNat)).map (· * b))))
/-- VFIR: Ad[i] = Ad[i] + Vb[k] × X[32 + i − k], X being Va followed by Va+1. -/
def execVfir (x : Issue) (f : FmtK) (s : State) : Out :=
  .next (s.issue [3] x 0x14 f.enc (accSet x f.ad.toNat fun c =>
    let b := (vElems 0 (c.vVal f.b.toNat)).getD f.k.toNat 0
    let win := vElems 0 (c.vVal f.a.toNat) ++ vElems 0 (c.vVal (f.a.toNat + 1))
    List.zipWith (fun a i => a + b * win.getD (32 + i - f.k.toNat) 0) (aElems (c.aVal f.ad.toNat)) (List.range 32)))
/-- ASET: every element of Ad = Sa sign-extended. -/
def execAset (x : Issue) (f : FmtV) (s : State) : Out :=
  .next (s.issue [3] x 0x15 f.enc (regOp x.eng fun c n =>
    n.setA f.d.toNat (aPack (List.replicate 32 (c.sVal f.a.toNat).toInt))))

/-! ### ACCOUT (R104, R112, R113) -/

/-- floor(Aa[i] / 2^t), narrowed to 16 bits. -/
def accShift (l : List Int) (t : Nat) (sat : Bool) : Narrowed := narrow 16 sat (l.map fun y => y / 2 ^ t)

/-- The shift of a half-beat in block-floating-point mode: sh − BXC clamped to 0 … 47, and whether it was clamped (R112). -/
def bfpShift (sh : Nat) (bxc : Byte) : Nat × Bool :=
  let t : Int := sh - bxc.toInt
  if t < 0 then (0, true) else if 47 < t then (47, true) else (t.toNat, false)

/-- ACCOUT: with O = 0 to Vd, with O = 1 as a beat to OUTk; in block-floating-point mode each half-beat is shifted by sh − BXC and
saturates whatever S is (R104, R112, R113). -/
def execAccout (x : Issue) (f : FmtN) (s : State) : Out :=
  .next (s.issue [3] x 0x16 f.enc fun s =>
    let g := s.eng x.eng
    let c := g.core
    let l := aElems (c.aVal f.aa.toNat)
    let sh := f.sh.toNat
    if f.o = 0 then
      let r := accShift l sh (f.s == 1)
      .done (s.setEng x.eng { g with next := (g.next.setVPhys (c.vPhys f.d.toNat) (pack 512 16 r.elems)).narrowFlags r })
    else
      let k := f.d.toNat % 2
      let b := portBlock g k
      if b.en then
        let ((_, e0), (_, e1), _) := b.beat
        let (t0, c0) := bfpShift sh e0
        let (t1, c1) := bfpShift sh e1
        let r0 := accShift (l.take 16) t0 true
        let r1 := accShift (l.drop 16) t1 true
        let n := ((g.next.narrowFlags r0).narrowFlags r1).flag 3 (c0 || c1)
        .done (sendBeat x.eng k (pack 512 16 (r0.elems ++ r1.elems)) (s.setEng x.eng { g with next := n }))
      else
        let r := accShift l sh (f.s == 1)
        .done (sendBeat x.eng k (pack 512 16 r.elems) (s.setEng x.eng { g with next := g.next.narrowFlags r })))

end Sys2Proof.Machine
end

