-- ==== Sys2Proof/Machine/EngCtl.lean ====
section
/-!
DEFINITION. What acts on an engine from outside its program (chapter 05): halt, resume, step, lantern sync, soft reset, stall reports and
the write-back of corrected words. The commands that are register writes (HALT, RESUME, STEP, SYNC) reach these effects through
the window (Window.lean).
-/
namespace Sys2Proof.Machine

/-! ### Halt (R124, R125, R127) -/

/-- HALT: RUNNING goes to HALTING; in SYNCING the halt is held; elsewhere it is ignored (R127). -/
def effHalt (e : Nat) (s : State) : State :=
  match s.engState e with
  | 2 => s.setEngState e 5
  | 4 => s.setEng e { s.eng e with haltHeld := true }
  | _ => s

/-- HALT_TAKEN: the halt is taken at the bundle boundary, with the end of a loop's body evaluated: PC names the next bundle to issue (R124). A bundle that
has begun to issue is issued whole first; a bundle that stalls has not issued. -/
def execHaltTaken (e : Fin 96) (s : State) : Out :=
  if s.engState e = 5 ∧ (s.eng e).slot = 0 then
    let s := s.bodyEnd e
    .next (s.setEng e { s.eng e with taken := true })
  else .next s

/-- Enters HALTED. -/
def State.engHalted (s : State) (e : Nat) : State :=
  (s.setEng e { s.eng e with taken := false, step := false, stepDone := false }).setEngState e 1

/-- HALT_COMPLETE: every result in flight is written and no SHIFTIN waits: HALTED (R124, R125). -/
def execHaltComplete (e : Fin 96) (s : State) : Out :=
  let g := s.eng e
  if s.engState e = 5 ∧ g.taken ∧ g.shift.isNone then .next (s.engHalted e)
  else if s.engState e = 2 ∧ g.stepDone ∧ g.shift.isNone ∧ g.atEnd.isNone then .next (s.engHalted e)
  else .next s

/-- Abandons a waiting SHIFTIN in one step (R125): its window and SBIk stay, its beats return ahead of every beat of INk, SHIFT_SAVED
and SHIFT_ABORTED are written, TRB1 counts; REPLAY is set where `replay` (not within a lantern sync, Table 05.4). -/
def State.abandonShift (s : State) (e : Nat) (sh : Shift) (replay : Bool) : State :=
  let g := s.eng e
  let g := if sh.k = 0 then { g with ret0 := sh.beats ++ g.ret0, shift := none } else { g with ret1 := sh.beats ++ g.ret1, shift := none }
  let pg := Pg.engCtl e
  let s := (s.setEng e g).setFld pg Fld.ENG_STATUS_SHIFT_ABORTED 1
  let s := if replay then s.setFld pg Fld.ENG_STATUS_REPLAY 1 else s
  let s := s.setFld pg Fld.ENG_SHIFT_SAVED_V sh.v
  let s := s.setFld pg Fld.ENG_SHIFT_SAVED_K sh.k
  let s := s.setFld pg Fld.ENG_SHIFT_SAVED_N_M1 (sh.n - 1)
  (s.setFld pg Fld.ENG_SHIFT_SAVED_B_M1 (sh.b - 1)).trb pg 1

/-- HALT_TIMEOUT: a SHIFTIN whose last beat has not arrived is abandoned, at a halt taken or a step done (R125, R128) or in a
lantern sync (Table 05.4, step 3). -/
def execHaltTimeout (e : Fin 96) (s : State) : Out :=
  let g := s.eng e
  match g.shift with
  | none => .next s
  | some sh =>
    if sh.beats.length = sh.b then .next s
    else if (s.engState e = 5 ∧ g.taken) ∨ (s.engState e = 2 ∧ g.stepDone) then .next (s.abandonShift e sh true)
    else if s.engState e = 4 then .next (s.abandonShift e sh false)
    else .next s

/-! ### Resume and step (R126 to R128, R131) -/

/-- The saved SHIFTIN issues alone (R126): it starts again and REPLAY clears. -/
def State.replayShift (s : State) (e : Nat) : State :=
  let pg := Pg.engCtl e
  let g := s.eng e
  let v := s.fld pg Fld.ENG_SHIFT_SAVED_V
  let n := s.fld pg Fld.ENG_SHIFT_SAVED_N_M1 + 1
  let sh : Shift := ⟨v, s.fld pg Fld.ENG_SHIFT_SAVED_K, n, s.fld pg Fld.ENG_SHIFT_SAVED_B_M1 + 1,
    (List.range n).map fun j => g.core.vPhys (v + j), []⟩
  (s.setEng e (({ g with shift := some sh } : Engine).shiftTake 8)).setFld pg Fld.ENG_STATUS_REPLAY 0

/-- RESUME or STEP of a HALTED or STOPPED engine: FAULT clears, a saved SHIFTIN is issued first, and for STEP that is the whole step
(R126, R131). -/
def effRun (e : Nat) (step : Bool) (s : State) : State :=
  let pg := Pg.engCtl e
  let replay := s.bit pg Fld.ENG_STATUS_REPLAY
  let s := (s.setFld pg Fld.ENG_STATUS_FAULT 0).setEngState e 2
  let s := if replay then s.replayShift e else s
  s.setEng e { s.eng e with step := step, stepDone := step && replay, taken := false }

/-- STEP_COMPLETE: the bundle of a step is done, its results are written and no SHIFTIN waits: HALTED (R128). -/
def execStepComplete (e : Fin 96) (s : State) : Out :=
  let g := s.eng e
  if s.engState e = 2 ∧ g.step ∧ g.stepDone ∧ g.shift.isNone ∧ g.atEnd.isNone then .next (s.engHalted e) else .next s

/-- A write of ENGn_CTL.PC: the next bundle; the saved SHIFTIN is discarded (R126). -/
def effPcWrite (e : Nat) (s : State) : State :=
  (s.setEng e { s.eng e with past := false, atEnd := none }).clearReplay e

/-! ### Stalls and starvation (R92, R110) -/

/-- STALL_LIMIT_EXPIRY: one stall of the engine, at the issue of a bundle, has lasted longer than STALL_LIMIT, and that is not 0: STAT.STALLTO is set and TRB3 counts; the
engine keeps waiting (R110). The command is the event itself: whether the bundle waits for a beat, a FIFO entry, a SHIFTIN or a result in flight is its cause. -/
def execStallLimitExpiry (e : Fin 96) (s : State) : Out :=
  let g := s.eng e
  if s.engState e = 2 ∧ g.slot = 0 ∧ g.core.srVal 0x11 ≠ 0 then
    .next ((s.setEng e { g with core := g.core.flag 4 true, next := g.next.flag 4 true }).trb (Pg.engCtl e) 3)
  else .next s

/-- RING_ACCESS_STARVATION: a ring access has waited 64 engine cycles: a running engine holds its next bundle for one cycle (R92). -/
def execRingAccessStarvation (e : Fin 96) (s : State) : Out :=
  if s.engState e = 2 then .next (s.setEng e { s.eng e with hold := true }) else .next s

/-! ### CYCLE (R89) -/

/-- The edges that a loop has put out by time n, SKIP of every 16 removed (R364). -/
def State.loopEdges (s : State) (l n : Nat) : Nat :=
  let m := n * s.fld Pg.clkMl (Fld.ML_CFG_FREQ_KHZ l) / 1000000
  m - (m / 16 * s.fld Pg.clkMl (Fld.ML_THR_SKIP l) + m % 16 * s.fld Pg.clkMl (Fld.ML_THR_SKIP l) / 16)

/-- The cycles of an engine's clock in the nanosecond that passes: its lantern's loop, divided (R362, Table 15.4). -/
def State.engCycles (s : State) (e : Nat) : Nat :=
  let l := 32 + lanOf e
  if s.loopState l != 2 then 0
  else
    let d := 2 ^ (s.fld Pg.clkMl (Fld.ML_LAN_DIV_DIV (lanOf e)) / 4 ^ (e % 4) % 4)
    s.loopEdges l (s.ns + 1) / d - s.loopEdges l s.ns / d

/-- CYCLE moves on by so many cycles. -/
def EngCore.cycles (c : EngCore) (n : Nat) : EngCore := c.setSr 0x12 (c.srVal 0x12 + BitVec.ofNat 32 n)

/-- The engines after a nanosecond: CYCLE counts in the running ones (R89). -/
def State.enginesTick (s : State) : Engines :=
  ((List.range 24).filter s.lanOn).foldl (fun (acc : Engines) k =>
    ([0, 1, 2, 3] : List Nat).foldl (fun acc i =>
      let e := 4 * k + i
      if s.engState e != 2 then acc
      else
        let g := s.eng e
        let n := s.engCycles e
        { acc with eng := mputD .reset acc.eng e { g with core := g.core.cycles n, next := g.next.cycles n } }) acc) s.engs

/-! ### Soft reset (R135) -/

/-- Returns the registers of class `cls` of a page to their reset values. -/
def State.resetClass (s : State) (pg : Nat) (cls : Cls) : State :=
  { s with regs := mkeep (fun key =>
      !(key / 1024 == pg && (match pageOf pg with
        | none => false
        | some (k, i) => match regAt k i (key % 1024 * 4) with
          | some (r, _) => decide (r.cls = cls)
          | none => false))) s.regs }

/-- An engine's soft reset: registers of Table 04.1 and D-class fields to their reset values, streams empty, HALTED with PC = ENTRY; held
in SYNCING. -/
def effEngReset (e : Nat) (s : State) : State :=
  if s.engState e = 4 then s.setEng e { s.eng e with resetHeld := true }
  else
    let s := ((s.setEng e .reset).resetClass (Pg.engCtl e) .D).resetClass (Pg.engSr e) .D
    let s := s.setEngPc e (s.fld (Pg.engCtl e) Fld.ENG_ENTRY_ENTRY)
    s.setEngState e 1

/-! ### Lantern sync (R132 to R134) -/

/-- The start of a sync: BUSY, and every engine of the lantern enters SYNCING; a bundle that has begun to issue is issued whole (Table 05.4, step 3). A
lantern that is off takes no part (Table 05.2). -/
def effSync (k : Nat) (s : State) : State :=
  if !s.lanOn k then s
  else
    let s := (s.setFld (Pg.lan k) Fld.LAN_SYNC_STAT_BUSY 1).setFld (Pg.lan k) Fld.LAN_SYNC_STAT_DONE 0
    [0, 1, 2, 3].foldl (fun s i =>
      let e := 4 * k + i
      (s.setEng e { s.eng e with taken := false, step := false, stepDone := false, hold := false, haltHeld := false }).setEngState e 4) s

/-- LSYNC: a pulse of the lantern's fabric input starts a sync when FAB_SYNC_EN is 1; a pulse without effect, while BUSY, with FAB_SYNC_EN 0 or with the
lantern off, counts in TRB0 (R132, R138). A die that is not configured drives no pulse. -/
def execLsync (k : Fin 24) (s : State) : Out :=
  if !s.dieUp (dieOfLan k) then .next s
  else if s.lanOn k && s.bit (Pg.lan k) Fld.LAN_SYNC_CTRL_FAB_SYNC_EN && !s.bit (Pg.lan k) Fld.LAN_SYNC_STAT_BUSY then .next (effSync k s)
  else .next (s.trb (Pg.lan k) 0)

/-- What a sync clears of an engine (R133). -/
def Engine.syncClear (g : Engine) (flush : Bool) : Engine :=
  let c := g.core
  let c := { c with v := [], p := 0, a := [], e := [], lv0 := none, lv1 := none }
  let c := [0x02, 0x03, 0x04, 0x05, 0x06, 0x07, 0x0B, 0x0C].foldl (fun c r => c.setSr r 0) c
  { g with core := c, next := c, warm0 := 0, warm1 := 0, past := false, atEnd := none,
           in0 := if flush then [] else g.in0, in1 := if flush then [] else g.in1 }

/-- SYNC_ENGINE_DONE: a syncing engine at a bundle boundary without a waiting SHIFTIN clears the state of R133, zeroes its delay range with valid check bits, sets PC to
ENTRY and its bit of DONE (Table 05.4, step 4). -/
def execSyncEngineDone (e : Fin 96) (s : State) : Out :=
  let k := lanOf e
  let i := e.val % 4
  let g := s.eng e
  if s.engState e ≠ 4 ∨ g.slot ≠ 0 ∨ g.shift.isSome ∨ (s.fld (Pg.lan k) Fld.LAN_SYNC_STAT_DONE).testBit i then .next s
  else
    let pg := Pg.engCtl e
    let s := s.setEng e (g.syncClear (s.bit (Pg.lan k) Fld.LAN_SYNC_CTRL_FLUSH_IN))
    let base := dataKey e (8 * s.fld pg Fld.ENG_DLY_RANGE_BASE)
    let top := min (base + 8 * s.fld pg Fld.ENG_DLY_RANGE_LEN) (dataKey (e.val + 1) 0)
    let out (key : Nat) : Bool := decide (key < base) || decide (top ≤ key)
    let s := { s with engs.data := mkeep out s.engs.data, engs.wbData := mkeep out s.engs.wbData }
    let s := (s.setFld pg Fld.ENG_STATUS_FAULT 0).clearReplay e
    let s := s.setReg pg Reg.ENG_SHIFT_SAVED 0
    let s := s.setEngPc e (s.fld pg Fld.ENG_ENTRY_ENTRY)
    .next (s.setFld (Pg.lan k) Fld.LAN_SYNC_STAT_DONE (s.fld (Pg.lan k) Fld.LAN_SYNC_STAT_DONE ||| 2 ^ i))

/-- SYNC_RELEASE: when all four DONE bits are set the sync is released: engines of RUN_MASK run from ENTRY, the others and those with a
held HALT are HALTED (R127, Table 05.4); a held soft reset follows (R135). -/
def execSyncRelease (k : Fin 24) (s : State) : Out :=
  if !s.bit (Pg.lan k) Fld.LAN_SYNC_STAT_BUSY || s.fld (Pg.lan k) Fld.LAN_SYNC_STAT_DONE != 15 then .next s
  else
    let mask := s.fld (Pg.lan k) Fld.LAN_SYNC_CTRL_RUN_MASK
    let s := s.setFld (Pg.lan k) Fld.LAN_SYNC_STAT_BUSY 0
    .next ([0, 1, 2, 3].foldl (fun s i =>
      let e := 4 * k.val + i
      let g := s.eng e
      let s := (s.setEng e { g with haltHeld := false, resetHeld := false }).setEngState e
        (if mask.testBit i && !g.haltHeld then 2 else 1)
      if g.resetHeld then effEngReset e s else s) s)

/-! ### The write-back of corrected words (R524) -/

/-- LANTERN_WORD_WRITE_BACK: a word corrected by a read is written back in an idle cycle of its bank, unless a write reached it first
(R243, R524); nothing happens to a word without a correction noted, or in raw mode. -/
def execLanternWordWriteBack (m : LanMem) (idx : Fin 131072) (s : State) : Out :=
  if s.lanRaw m then .next s
  else
    match m with
    | .lan k =>
      match mget s.engs.wbLan (lanKey k idx) with
      | none => .next s
      | some d => .next (s.setLanWord k idx (.ok d))
    | .data e =>
      if 32768 ≤ idx.val then .next s
      else match mget s.engs.wbData (dataKey e idx) with
        | none => .next s
        | some d => .next (s.setDataWord e idx (.ok d))
    | .prog e =>
      if 4096 ≤ idx.val then .next s
      else match mget s.engs.wbProg (progKey e idx) with
        | none => .next s
        | some d => .next (s.setProgWord e idx ⟨d, 0⟩)

end Sys2Proof.Machine
end

