-- ==== Sys2Proof/Machine/Crypto.lean ====
section
/-!
DEFINITION. The further algorithms the spec names for images: SHA-384 (FIPS 180-4), ECDSA over P-384 (FIPS 186-4, R393) and AES-256-GCM
(NIST SP 800-38D, R394). Bytes are lists, the first byte first; numbers in bytes are big-endian.
-/
namespace Sys2Proof.Machine

/-- The number of big-endian bytes, and its n big-endian bytes. -/
def beNat (l : List Nat) : Nat := l.foldl (fun acc b => acc * 256 + b) 0
def beBytes (n x : Nat) : List Nat := (natBytes n x).reverse

/-! ### SHA-384 -/

def sha512K0 : List Nat := [0x428A2F98D728AE22, 0x7137449123EF65CD, 0xB5C0FBCFEC4D3B2F, 0xE9B5DBA58189DBBC, 0x3956C25BF348B538,
  0x59F111F1B605D019, 0x923F82A4AF194F9B, 0xAB1C5ED5DA6D8118, 0xD807AA98A3030242, 0x12835B0145706FBE,
  0x243185BE4EE4B28C, 0x550C7DC3D5FFB4E2, 0x72BE5D74F27B896F, 0x80DEB1FE3B1696B1, 0x9BDC06A725C71235,
  0xC19BF174CF692694, 0xE49B69C19EF14AD2, 0xEFBE4786384F25E3, 0x0FC19DC68B8CD5B5, 0x240CA1CC77AC9C65]
def sha512K1 : List Nat := [0x2DE92C6F592B0275, 0x4A7484AA6EA6E483, 0x5CB0A9DCBD41FBD4, 0x76F988DA831153B5, 0x983E5152EE66DFAB,
  0xA831C66D2DB43210, 0xB00327C898FB213F, 0xBF597FC7BEEF0EE4, 0xC6E00BF33DA88FC2, 0xD5A79147930AA725,
  0x06CA6351E003826F, 0x142929670A0E6E70, 0x27B70A8546D22FFC, 0x2E1B21385C26C926, 0x4D2C6DFC5AC42AED,
  0x53380D139D95B3DF, 0x650A73548BAF63DE, 0x766A0ABB3C77B2A8, 0x81C2C92E47EDAEE6, 0x92722C851482353B]
def sha512K2 : List Nat := [0xA2BFE8A14CF10364, 0xA81A664BBC423001, 0xC24B8B70D0F89791, 0xC76C51A30654BE30, 0xD192E819D6EF5218,
  0xD69906245565A910, 0xF40E35855771202A, 0x106AA07032BBD1B8, 0x19A4C116B8D2D0C8, 0x1E376C085141AB53,
  0x2748774CDF8EEB99, 0x34B0BCB5E19B48A8, 0x391C0CB3C5C95A63, 0x4ED8AA4AE3418ACB, 0x5B9CCA4F7763E373,
  0x682E6FF3D6B2B8A3, 0x748F82EE5DEFB2FC, 0x78A5636F43172F60, 0x84C87814A1F0AB72, 0x8CC702081A6439EC]
def sha512K3 : List Nat := [0x90BEFFFA23631E28, 0xA4506CEBDE82BDE9, 0xBEF9A3F7B2C67915, 0xC67178F2E372532B, 0xCA273ECEEA26619C,
  0xD186B8C721C0C207, 0xEADA7DD6CDE0EB1E, 0xF57D4F7FEE6ED178, 0x06F067AA72176FBA, 0x0A637DC5A2C898A6,
  0x113F9804BEF90DAE, 0x1B710B35131C471B, 0x28DB77F523047D84, 0x32CAAB7B40C72493, 0x3C9EBE0A15C9BEBC,
  0x431D67C49C100D4C, 0x4CC5D4BECB3E42B6, 0x597F299CFC657E2A, 0x5FCB6FAB3AD6FAEC, 0x6C44198C4A475817]
/-- The 80 round constants. -/
def sha512K : List Nat := sha512K0 ++ sha512K1 ++ sha512K2 ++ sha512K3
/-- The initial hash value of SHA-384. -/
def sha384H : List Nat := [0xCBBB9D5DC1059ED8, 0x629A292A367CD507, 0x9159015A3070DD17, 0x152FECD8F70E5939,
  0x67332667FFC00B31, 0x8EB44A8768581511, 0xDB0C2E0D64F98FA7, 0x47B5481DBEFA4FA4]

def rotr64 (x n : Nat) : Nat := (x >>> n) ||| ((x <<< (64 - n)) % 2 ^ 64)

/-- The message schedule of a block of 128 bytes. -/
def shaSchedule (block : List Nat) : List Nat :=
  let first := (List.range 16).map fun i => beNat ((block.drop (8 * i)).take 8)
  -- the latest word stands first
  ((List.range 64).foldl (fun ws _ =>
    let w15 := ws.getD 14 0
    let w2 := ws.getD 1 0
    let s0 := rotr64 w15 1 ^^^ rotr64 w15 8 ^^^ (w15 >>> 7)
    let s1 := rotr64 w2 19 ^^^ rotr64 w2 61 ^^^ (w2 >>> 6)
    ((ws.getD 15 0 + s0 + ws.getD 6 0 + s1) % 2 ^ 64) :: ws) first.reverse).reverse

/-- One round on the working variables a to h. -/
def shaRound (v : List Nat) (kw : Nat × Nat) : List Nat :=
  match v with
  | [a, b, c, d, e, f, g, h] =>
    let s1 := rotr64 e 14 ^^^ rotr64 e 18 ^^^ rotr64 e 41
    let ch := (e &&& f) ^^^ ((2 ^ 64 - 1 - e) &&& g)
    let t1 := h + s1 + ch + kw.1 + kw.2
    let s0 := rotr64 a 28 ^^^ rotr64 a 34 ^^^ rotr64 a 39
    let mj := (a &&& b) ^^^ (a &&& c) ^^^ (b &&& c)
    [(t1 + s0 + mj) % 2 ^ 64, a, b, c, (d + t1) % 2 ^ 64, e, f, g]
  | _ => v

def shaBlock (h block : List Nat) : List Nat :=
  ((sha512K.zip (shaSchedule block)).foldl shaRound h).zipWith (fun x y => (x + y) % 2 ^ 64) h

/-- The message's blocks after padding: `n` of them. -/
def shaBlocks (m : List Nat) : (n : Nat) → List (List Nat)
  | 0 => []
  | n + 1 => m.take 128 :: shaBlocks (m.drop 128) n

/-- SHA-384 of a message. -/
def sha384 (m : List Nat) : List Nat :=
  let pad := m ++ 0x80 :: List.replicate ((239 - m.length % 128) % 128) 0 ++ beBytes 16 (8 * m.length)
  (((shaBlocks pad (pad.length / 128)).foldl shaBlock sha384H).take 6).flatMap (beBytes 8)

/-! ### ECDSA over P-384 -/

def p384P : Nat := 2 ^ 384 - 2 ^ 128 - 2 ^ 96 + 2 ^ 32 - 1
def p384N : Nat := 0xFFFFFFFFFFFFFFFFFFFFFFFFFFFFFFFFFFFFFFFFFFFFFFFFC7634D81F4372DDF581A0DB248B0A77AECEC196ACCC52973
def p384B : Nat := 0xB3312FA7E23EE7E4988E056BE3F82D19181D9C6EFE8141120314088F5013875AC656398D8A2ED19D2A85C8EDD3EC2AEF
def p384Gx : Nat := 0xAA87CA22BE8B05378EB1C71EF320AD746E1D3B628BA79B9859F741E082542A385502F25DBF55296C3A545E3872760AB7
def p384Gy : Nat := 0x3617DE4A96262C6F5D9E98BF9292DC29F8F41DBD289A147CE9DA3113B5F0B8C00A60B1CE1D7E819D7A431D7C90EA0E5F

/-- A power modulo a 384-bit number, for exponents of at most 384 bits. -/
def powMod (b e m : Nat) : Nat :=
  ((List.range 384).foldl (fun (acc : Nat × Nat) i => (if e.testBit i then acc.1 * acc.2 % m else acc.1, acc.2 * acc.2 % m)) (1, b % m)).1

/-- The inverse modulo a prime. -/
def invMod (a m : Nat) : Nat := powMod a (m - 2) m

/-- Addition on the curve; none is the point at infinity. -/
def p384Add (a b : Option (Nat × Nat)) : Option (Nat × Nat) :=
  match a, b with
  | none, b => b
  | a, none => a
  | some (x1, y1), some (x2, y2) =>
    let p := p384P
    if x1 = x2 ∧ (y1 + y2) % p = 0 then none
    else
      let l := if x1 = x2 then (3 * x1 * x1 + (p - 3)) * invMod (2 * y1) p % p else (y2 + p - y1) * invMod (x2 + p - x1) p % p
      let x3 := (l * l + 2 * p - x1 - x2) % p
      some (x3, (l * (x1 + p - x3) + p - y1) % p)

/-- A multiple of a point. -/
def p384Mul (k : Nat) (a : Option (Nat × Nat)) : Option (Nat × Nat) :=
  ((List.range 384).foldl (fun (acc : Option (Nat × Nat) × Option (Nat × Nat)) i =>
    (if k.testBit i then p384Add acc.1 acc.2 else acc.1, p384Add acc.2 acc.2)) (none, a)).1

/-- ECDSA verification: public key x and y, digest, r and s. -/
def ecdsaVerify (qx qy e r s : Nat) : Bool :=
  let p := p384P
  let n := p384N
  if qx < p ∧ qy < p ∧ qy * qy % p = (qx * qx * qx + (p - 3) * qx + p384B) % p ∧ 0 < r ∧ r < n ∧ 0 < s ∧ s < n then
    let w := invMod s n
    match p384Add (p384Mul (e * w % n) (some (p384Gx, p384Gy))) (p384Mul (r * w % n) (some (qx, qy))) with
    | none => false
    | some (x, _) => x % n == r
  else false

/-! ### AES-256-GCM -/

/-- Multiplication in GF(2^128) of GCM: bit 127 of a number is the coefficient of 1. -/
def gcmMul (x y : Nat) : Nat :=
  ((List.range 128).foldl (fun (acc : Nat × Nat) i =>
    (if x.testBit (127 - i) then acc.1 ^^^ acc.2 else acc.1,
     if acc.2 % 2 = 1 then (acc.2 / 2) ^^^ (0xE1 * 2 ^ 120) else acc.2 / 2)) (0, y)).1

/-- GHASH over blocks. -/
def ghash (h : Nat) (blocks : List Nat) : Nat := blocks.foldl (fun y b => gcmMul (y ^^^ b) h) 0

/-- Bytes cut into `n` blocks of 16, the last filled with zeros. -/
def gcmBlocks (l : List Nat) : (n : Nat) → List Nat
  | 0 => []
  | n + 1 => beNat (l.take 16 ++ List.replicate (16 - l.length) 0) :: gcmBlocks (l.drop 16) n

/-- The tag of GCM over additional data and ciphertext. -/
def gcmTag (key iv aad ct : List Nat) : List Nat :=
  let h := beNat (aesEnc key (List.replicate 16 0))
  let len := 8 * aad.length * 2 ^ 64 + 8 * ct.length
  let y := ghash h (gcmBlocks aad ((aad.length + 15) / 16) ++ gcmBlocks ct ((ct.length + 15) / 16) ++ [len])
  xorBytes (beBytes 16 y) (aesEnc key (iv ++ [0, 0, 0, 1]))

/-- Counter mode: block i of `n` from the text. -/
def gcmCrypt (key iv : List Nat) (i : Nat) (l : List Nat) : (n : Nat) → List Nat
  | 0 => []
  | n + 1 => xorBytes (l.take 16) (aesEnc key (iv ++ beBytes 4 (i + 2))) ++ gcmCrypt key iv (i + 1) (l.drop 16) n

/-- Decryption of bytes that start at block `i` of the ciphertext. -/
def gcmDecrypt (key iv : List Nat) (i : Nat) (ct : List Nat) : List Nat := gcmCrypt key iv i ct ((ct.length + 15) / 16)

end Sys2Proof.Machine
end

