-- ==== Sys2Proof/Machine/Nv.lean ====
section
/-!
DEFINITION. The NV store (R388, R403 to R406): blocks and their code, the pointer copies and the invalid-sector list.
-/
namespace Sys2Proof.Machine

/-! ### Blocks -/

def State.nvBlock (s : State) (b : Nat) : NvBlock := mgetD {} s.nv.blocks b
def State.setNvBlock (s : State) (b : Nat) (x : NvBlock) : State := { s with nv.blocks := mputD {} s.nv.blocks b x }

/-- Flips bits of a line. -/
def flipBits (d : Line) (l : List Nat) : Line := l.foldl (fun d i => if i < 512 then d ^^^ ((1 : Line) <<< i) else d) d

/-- What a block decodes to (Table 10.1). -/
def NvBlock.decode (x : NvBlock) : EccResult :=
  if x.torn then .uncorrectable
  else if x.diff = 0 then .clean
  else match Config.bchLocate x.diff with
    | some l => .corrected (flipBits x.data l).toNat
    | none => .uncorrectable

/-- Block b lies in the test sector, which can be in raw mode. -/
def nvTestBlock (b : Nat) : Bool := decide (8387584 ≤ b)

/-- A read of a block: corrected blocks count in TRB0, uncorrectable ones, which give no data, in TRB1. -/
def State.nvRead (s : State) (b : Nat) : Option Line × State :=
  let x := s.nvBlock b
  let quiet := nvTestBlock b && s.isRaw 0xE 0 0
  match x.decode with
  | .clean => (some x.data, s)
  | .corrected d => (some (BitVec.ofNat 512 d), if quiet then s else s.trb Pg.nvs 0)
  | .uncorrectable => (none, if quiet then s else s.trb Pg.nvs 1)

/-- The bytes of `n` blocks from block b on; none where one of them is uncorrectable. -/
def State.nvRun (s : State) (b : Nat) : (n : Nat) → Option (List Byte) × State
  | 0 => (some [], s)
  | n + 1 =>
    match s.nvRead b with
    | (none, s) => (none, s)
    | (some d, s) =>
      match s.nvRun (b + 1) n with
      | (none, s) => (none, s)
      | (some l, s) => (some (toBytes 64 d ++ l), s)

/-- n bytes from an offset that is a multiple of 64. -/
def State.nvBytes (s : State) (off n : Nat) : Option (List Byte) × State :=
  let r := s.nvRun (off / 64) ((n + 63) / 64)
  (r.1.map fun l => l.take n, r.2)

/-! ### Layout (Table 16.5) -/

def bankBase (bank : Nat) : Nat := if bank = 0 then 0x00000000 else 0x0F300000
def bankSize : Nat := 0x0F300000
def auxBase (bank : Nat) : Nat := if bank = 0 then 0x1E600000 else 0x1F280000
def auxSize : Nat := 0x00C80000

/-- The bank whose bytes or whose auxiliary half hold an offset. -/
def bankOf (off : Nat) : Option Nat :=
  [0, 1].find? fun b => (decide (bankBase b ≤ off) && decide (off < bankBase b + bankSize))
    || (decide (auxBase b ≤ off) && decide (off < auxBase b + auxSize))

/-- Sector n lies inside a bank or its auxiliary half (R380). -/
def sectorIn (bank n : Nat) : Bool :=
  let a := n * 65536
  let hits (base size : Nat) : Bool := decide (a < base + size) && decide (base < a + 65536)
  hits (bankBase bank) bankSize || hits (auxBase bank) auxSize

/-! ### Pointer copies and the invalid-sector list -/

/-- The content of a 64-byte copy whose CRC is right. -/
def crcGood (d : Line) : Bool := crcOf 2 (toBytes 60 d) == fieldOf d 480 32
def crcSeal (d : Line) : Line := withField d 480 32 (crcOf 2 (toBytes 60 d))

def ptrOff (i : Nat) : Nat := 0x1FF00000 + 0x40 * i
def invOff (i : Nat) : Nat := 0x1FF01000 + 0x40 * i

/-- A pointer copy: SEQ and bank; none where it is not valid (R380, R388). -/
def ptrOf (d : Line) : Option (Nat × Nat) :=
  if fieldOf d 0 32 = 0x50395653 ∧ crcGood d then some (fieldOf d 32 32, fieldOf d 64 8 % 2) else none
def ptrLine (seq bank : Nat) : Line :=
  crcSeal (BitVec.ofNat 512 (0x50395653 + (seq % 2 ^ 32) * 2 ^ 32 + bank * 2 ^ 64))

/-- A list copy: SEQ and 16 entries; none where it is not valid. -/
def invOf (d : Line) : Option (Nat × List Nat) :=
  if crcGood d then some (fieldOf d 0 32, (List.range 16).map fun e => fieldOf d (32 + 16 * e) 16) else none
def invLine (seq : Nat) (l : List Nat) : Line :=
  crcSeal ((List.range 16).foldl (fun d e => withField d (32 + 16 * e) 16 (l.getD e 0)) (BitVec.ofNat 512 (seq % 2 ^ 32)))

/-- Of two copies the valid one with the higher SEQ, with its number. -/
def newerCopy {α : Type} (a b : Option (Nat × α)) : Option (Nat × Nat × α) :=
  match a, b with
  | some x, some y => if x.1 < y.1 then some (1, y.1, y.2) else some (0, x.1, x.2)
  | some x, none => some (0, x.1, x.2)
  | none, some y => some (1, y.1, y.2)
  | none, none => none

/-- Reads a copy. -/
def State.nvCopy {α : Type} (s : State) (off : Nat) (f : Line → Option α) : Option α × State :=
  let r := s.nvRead (off / 64)
  (r.1.bind f, r.2)

/-- INV_SECTe show the list in force. -/
def State.showInv (s : State) (l : List Nat) : State :=
  (List.range 16).foldl (fun s e =>
    let x := l.getD e 0
    (s.setFld Pg.nvs (Fld.NVS_INV_SECT_VALID e) (x / 0x8000)).setFld Pg.nvs (Fld.NVS_INV_SECT_SECTOR e) (x % 0x2000)) s

/-- The sectors listed invalid (R380). -/
def State.badSectors (s : State) : List Nat :=
  ((List.range 16).filter fun e => s.bit Pg.nvs (Fld.NVS_INV_SECT_VALID e)).map fun e => s.fld Pg.nvs (Fld.NVS_INV_SECT_SECTOR e)

/-- Writes a new list over the copy that is not in force. -/
def State.putInv (s : State) (l : List Nat) : State :=
  let (a, s) := s.nvCopy (invOff 0) invOf
  let (b, s) := s.nvCopy (invOff 1) invOf
  let (i, seq) := match newerCopy a b with | some (i, q, _) => (1 - i, q + 1) | none => (0, 1)
  (s.setNvBlock (invOff i / 64) ⟨invLine seq l, 0, false⟩).showInv l

/-- The raw words of the list in force, as INV_SECTe show them. -/
def State.invWords (s : State) : List Nat :=
  (List.range 16).map fun e =>
    s.fld Pg.nvs (Fld.NVS_INV_SECT_VALID e) * 0x8000 + s.fld Pg.nvs (Fld.NVS_INV_SECT_SECTOR e)

/-- A sector is listed, in the first free entry; with all in use it is not (R406); counted in TRB4. -/
def State.listSector (s : State) (sec : Nat) : State :=
  if s.badSectors.contains sec then s
  else match (List.range 16).find? fun e => !s.bit Pg.nvs (Fld.NVS_INV_SECT_VALID e) with
    | none => s
    | some e => (s.putInv (s.invWords.set e (0x8000 + sec))).trb Pg.nvs 4

/-- A block of a listed sector has been programmed: once all 1,024 have, the entry is removed (R406). -/
def State.renewBlock (s : State) (b : Nat) : State :=
  let sec := b / 1024
  if !s.badSectors.contains sec then s
  else
    let l := if s.nv.renewed.contains b then s.nv.renewed else b :: s.nv.renewed
    if (l.filter fun x => x / 1024 == sec).length < 1024 then { s with nv.renewed := l }
    else
      let s : State := { s with nv.renewed := l.filter fun x => x / 1024 != sec }
      s.putInv (s.invWords.map fun w => if w = 0x8000 + sec then 0 else w)

/-- Step 4 of Table 16.2, first part: the pointer copies and the list are read; invalid pointer copies count in TRB5; sectors that the ember domain
recorded as aborted are listed (R380, R406). -/
def State.nvStart (s : State) : State :=
  let (a, s) := s.nvCopy (ptrOff 0) ptrOf
  let (b, s) := s.nvCopy (ptrOff 1) ptrOf
  let s := s.trbN Pg.nvs 5 (a.isNone.toNat + b.isNone.toNat)
  let s := (s.setFld Pg.nvs Fld.NVS_PTR_STAT_A_VALID a.isSome.toNat).setFld Pg.nvs Fld.NVS_PTR_STAT_B_VALID b.isSome.toNat
  let s := match newerCopy a b with
    | some (_, seq, bank) => (s.setFld Pg.nvs Fld.NVS_PTR_STAT_ACTIVE bank).setReg Pg.nvs Reg.NVS_PTR_SEQ (BitVec.ofNat 32 seq)
    | none => s
  let (x, s) := s.nvCopy (invOff 0) invOf
  let (y, s) := s.nvCopy (invOff 1) invOf
  let s := match newerCopy x y with | some (_, _, l) => s.showInv l | none => s
  let s := s.ember.aborted.foldl (fun s sec => s.listSector sec) s
  { s with ember.aborted := [] }

/-- The bank that the pointer in force names, if a copy is valid. -/
def State.pointerBank (s : State) : Option Nat :=
  if s.bit Pg.nvs Fld.NVS_PTR_STAT_A_VALID || s.bit Pg.nvs Fld.NVS_PTR_STAT_B_VALID then some (s.fld Pg.nvs Fld.NVS_PTR_STAT_ACTIVE) else none

/-- The first two sources of R380. -/
def State.bankOrder (s : State) : List Nat := if s.pointerBank = some 1 then [1, 0] else [0, 1]

/-- The protected banks (R403): the pointer's, and the one the running image was loaded from. -/
def State.bankProtected (s : State) (bank : Nat) : Bool :=
  s.pointerBank == some bank || s.fld Pg.cfg Fld.CFG_CFG_STAT_SOURCE == bank + 1

end Sys2Proof.Machine
end

