-- ==== Sys2Proof/Machine/Image.lean ====
section
/-!
DEFINITION. Images (R389 to R394): the header, the section table, decryption, signature and tag. Nothing here changes the state.
-/
namespace Sys2Proof.Machine

/-! ### Bytes -/

/-- n bytes from an offset on, as numbers; their number, the least significant first; whether they are zero. -/
def natAt (l : List Byte) (off n : Nat) : List Nat := ((l.drop off).take n).map BitVec.toNat
def numAt (l : List Byte) (off n : Nat) : Nat := bytesNat (natAt l off n)
def zeroAt (l : List Byte) (off n : Nat) : Bool := (natAt l off n).all (· == 0)
def ofNats (l : List Nat) : List Byte := l.map (BitVec.ofNat 8)

/-! ### The header (Table 16.6) -/

/-- The digest of owner key n (R407). -/
def State.ownerKey (s : State) (n : Nat) : List Nat :=
  (List.range 12).flatMap fun w => natBytes 4 (s.reg Pg.cfg (0x100 + 0x30 * n + 4 * w)).toNat

/-- The image key: unwrapped under the KEK, unless the alarm latch is set (R394). -/
def State.imageKey (s : State) (h : List Byte) : Option (List Nat) :=
  match s.keys.kek with
  | none => none
  | some kek => if s.bit Pg.key Fld.KEY_KEK_STAT_ALARM then none else kwUnwrap 4 kek (natAt h 0x0A0 40)

/-- A die has a region of a number (R62). -/
def State.hasRegion (s : State) (die region : Nat) : Bool := s.design.regions.any fun r => r.1 == die && r.2.1 == region

/-- The checks of Table 16.6 in its order: whether the field is good, the reason, the field's offset. A partial image is bound to the region that
PR_CTRL names (log 35). -/
def State.headerChecks (s : State) (part : Bool) (h : List Byte) : List (Bool × Nat × Nat) :=
  let n (off k : Nat) : Nat := numAt h off k
  let flags := n 0x00B 1
  let enc := flags % 2 == 1
  let slot := n 0x014 1
  let sections := n 0x015 1
  let aux := n 0x018 4
  let len := n 0x00C 4
  let die := n 0x024 1
  let region := n 0x025 1
  [ (n 0x000 4 == 0x49395653, 0x01, 0x000), (n 0x004 2 == 1, 0x01, 0x004), (n 0x006 2 == 0x1000, 0x01, 0x006),
    (n 0x008 1 == s.fld Pg.dev0 Fld.DEV0_PART_ID_FAMILY, 0x02, 0x008), (n 0x009 1 == s.fld Pg.dev0 Fld.DEV0_PART_ID_MEMBER, 0x02, 0x009),
    (decide (1 ≤ n 0x00A 1) && decide (n 0x00A 1 ≤ s.fld Pg.dev0 Fld.DEV0_PART_ID_SPEED), 0x03, 0x00A),
    (flags.testBit 1 == part && (!flags.testBit 2 || s.partId.getLsbD 7) && decide (flags < 8), 0x04, 0x00B),
    (len % 64 == 0 && decide (0x1080 ≤ len) && decide (len ≤ if part then 0x01E10000 else 0x0F300000), 0x05, 0x00C),
    (decide (s.fld Pg.cfg Fld.CFG_SEC_STAT_MIN_SVN ≤ n 0x010 4) && decide (n 0x010 4 ≤ 63), 0x06, 0x010),
    (decide (slot < 4) && (s.fld Pg.cfg Fld.CFG_SEC_STAT_PROGRAMMED).testBit slot && !(s.fld Pg.cfg Fld.CFG_SEC_STAT_REVOKED).testBit slot,
      0x07, 0x014),
    (decide (1 ≤ sections) && decide (sections ≤ 64), 0x08, 0x015), (zeroAt h 0x016 2, 0x01, 0x016),
    (aux % 64 == 0 && decide (aux ≤ if part then 0 else auxSize), 0x05, 0x018),
    (n 0x020 4 == (if part then (s.reg Pg.cfg Reg.CFG_IMAGE_ID).toNat else 0), 0x11, 0x020),
    (die == (if part then s.fld Pg.cfg Fld.CFG_PR_CTRL_DIE else 0), 0x11, 0x024),
    (region == (if part then s.fld Pg.cfg Fld.CFG_PR_CTRL_REGION else 0) && (!part || s.hasRegion die region), 0x11, 0x025),
    (zeroAt h 0x026 26, 0x01, 0x026), (sha384 (natAt h 0x040 96) == s.ownerKey slot, 0x07, 0x040),
    (if enc then (s.imageKey h).isSome else zeroAt h 0x0A0 40, if enc then 0x0E else 0x01, 0x0A0),
    (enc || zeroAt h 0x0C8 12, 0x01, 0x0C8), (zeroAt h 0x0D4 12, 0x01, 0x0D4), (enc || zeroAt h 0x0E0 16, 0x01, 0x0E0),
    (zeroAt h 0x0F0 16, 0x01, 0x0F0), (zeroAt h (0x100 + 16 * sections) (16 * (64 - sections)), 0x08, 0x100), (zeroAt h 0x500 2816, 0x01, 0x500) ]

/-- The first field to fail: reason and offset (R389). -/
def State.headerError (s : State) (part : Bool) (h : List Byte) : Option (Nat × Nat) :=
  ((s.headerChecks part h).find? fun c => !c.1).map Prod.snd

/-! ### The section table (Tables 16.7, 16.8; R390) -/

/-- Entry i of the section table. -/
def sectionAt (h : List Byte) (i : Nat) : Section :=
  let o := 0x100 + 16 * i
  ⟨numAt h o 1, numAt h (o + 1) 1, (numAt h (o + 2) 2).testBit 15, numAt h (o + 4) 4, numAt h (o + 8) 4, numAt h (o + 12) 4⟩

/-- An image from a header that has passed its checks; `verdict` is not known yet. -/
def State.imageOf (s : State) (src : Nat) (h : List Byte) : Image :=
  { src := src, len := numAt h 0x00C 4, auxLen := numAt h 0x018 4, id := BitVec.ofNat 32 (numAt h 0x01C 4), svn := numAt h 0x010 4,
    die := numAt h 0x024 1, region := numAt h 0x025 1,
    key := if numAt h 0x00B 1 % 2 = 1 then (s.imageKey h).map fun l => BitVec.ofNat 256 (bytesNat l) else none,
    iv := BitVec.ofNat 96 (numAt h 0x0C8 12), sections := (List.range (numAt h 0x015 1)).map (sectionAt h), resources := 0, regs := [],
    declOk := true, verdict := 0 }

/-- What an entry must satisfy by itself. -/
def Section.ok (x : Section) (part : Bool) (len auxLen param : Nat) : Bool :=
  decide (1 ≤ x.typ) && decide (x.typ ≤ 6) && (!part || x.typ == 4 || x.typ == 5) && param % 0x8000 == 0 && x.off % 64 == 0
    && (if x.typ ≤ 3 then x.target == 0xFF else if x.typ ≤ 5 then decide (x.target < 8) else decide (x.target < 24))
    && (x.typ != 1 || x.len == 32) && (x.typ != 2 || x.len % 8 == 0) && (x.typ != 4 || part || x.len == 31457280)
    && (if x.aux then decide (x.off + x.len ≤ auxLen) else decide (0x1000 ≤ x.off) && decide (x.off + x.len ≤ len - 96))

/-- Section a lies before b: the auxiliary half comes last. -/
def Section.before (a b : Section) : Bool := (!a.aux && b.aux) || (a.aux == b.aux && decide (a.off + a.len ≤ b.off))

/-- What two entries must satisfy: no overlap, no second section of one kind and target, and the order of Table 16.8 within the image and within the
auxiliary half (DEDUCED, log 145). -/
def Section.compatible (a b : Section) : Bool :=
  (a.before b || b.before a)
    && (if a.typ = b.typ then a.target != b.target && (a.typ == 6 || a.aux != b.aux || a.before b == decide (a.target < b.target))
        else a.aux != b.aux || a.before b == decide (a.typ < b.typ))

/-- The first entry that breaks R390; a section that is missing is reported at the end of the table. -/
def Image.sectionError (img : Image) (part : Bool) (h : List Byte) : Option Nat :=
  let l := img.sections
  let n := l.length
  let bad (i : Nat) : Bool :=
    match l[i]? with
    | none => false
    | some x => !x.ok part img.len img.auxLen (numAt h (0x102 + 16 * i) 2) || (l.take i).any fun y => !y.compatible x
  match (List.range n).find? bad with
  | some i => some i
  | none =>
    let has (t : Nat) : Bool := l.any fun x => x.typ == t
    if part then (if has 4 then none else some n) else (if has 1 && has 2 && has 3 then none else some n)

/-- The image ends its last section with at most 63 zero bytes before the signature (R393). -/
def Image.paddingOk (img : Image) (main : List Byte) : Bool :=
  let e := (img.sections.filter fun x => !x.aux).foldl (fun m x => max m (x.off + x.len)) 0x1000
  decide (img.len - 96 - e ≤ 63) && zeroAt main e (img.len - 96 - e)

/-! ### Content (R393, R394) -/

/-- A section's bytes as stored, and decrypted. -/
def Section.stored (x : Section) (main aux : List Byte) : List Byte := ((if x.aux then aux else main).drop x.off).take x.len
def Image.plain (img : Image) (x : Section) (stored : List Byte) : List Byte :=
  match img.key with
  | none => stored
  | some k =>
    let blk := if x.aux then (img.len - 96 - 0x1000 + x.off) / 16 else (x.off - 0x1000) / 16
    ofNats (gcmDecrypt (natBytes 32 k.toNat) (natBytes 12 img.iv.toNat) blk (stored.map BitVec.toNat))

/-- CHECK of a section (Table 16.7). -/
def Section.checkOk (x : Section) (stored : List Byte) : Bool := crcOf 2 stored == x.check

/-- Signature and tag: 0, or the reason (R393, R394). -/
def Image.judge (img : Image) (main aux : List Byte) : Nat :=
  let m := main.map BitVec.toNat
  let a := aux.map BitVec.toNat
  let body := m.take (img.len - 96)
  let sig := m.drop (img.len - 96)
  let pub := natAt main 0x040 96
  if !ecdsaVerify (beNat (pub.take 48)) (beNat (pub.drop 48)) (beNat (sha384 (body ++ a))) (beNat (sig.take 48)) (beNat ((sig.drop 48).take 48)) then 0x0D
  else match img.key with
    | none => 0
    | some k =>
      let hdr := m.take 0x0E0 ++ List.replicate 16 0 ++ (m.drop 0x0F0).take (0x1000 - 0x0F0)
      if gcmTag (natBytes 32 k.toNat) (natBytes 12 img.iv.toNat) hdr (body.drop 0x1000 ++ a) == natAt main 0x0E0 16 then 0 else 0x0E

/-- The entries of a REGS section: page, offset, value. -/
def regEntries (l : List Byte) (n : Nat) : List (Nat × Nat × Word) :=
  (List.range n).map fun i => (numAt l (8 * i) 2, numAt l (8 * i + 2) 2, BitVec.ofNat 32 (numAt l (8 * i + 4) 4))

end Sys2Proof.Machine
end

