-- ==== Sys2Proof/Machine/Units.lean ====
section
/-!
DEFINITION. The units of Table 10.1 as codewords: how scrub passes and raw accesses reach every memory (R241, R242, R254, R255).
-/
namespace Sys2Proof.Machine

/-- The codes: SECDED, Reed-Solomon of HBM or DDR5, BCH. -/
inductive CwCode where
  | secded | rs (hbm : Bool) | bch
deriving DecidableEq, Repr

/-- A codeword of a unit: code, data and check bits, data, syndrome (stored check bits XOR recomputed ones). -/
structure Codeword where
  code : CwCode
  n : Nat
  c : Nat
  data : Nat
  syn : Nat
deriving DecidableEq, Repr

/-- The check bits that belong to a codeword's data. -/
def Codeword.check (w : Codeword) : Nat :=
  match w.code with
  | .secded => eccCheck w.n w.c w.data
  | .rs hbm => rsCheck hbm w.data
  | .bch => (Config.bchCheck (BitVec.ofNat 512 w.data)).toNat

def Codeword.decode (w : Codeword) : EccResult :=
  match w.code with
  | .secded => eccDecode w.n w.c w.data w.syn
  | .rs hbm =>
    if w.syn = 0 then .clean
    else match rsCorrect hbm w.syn with
      | none => .uncorrectable
      | some (k, e) => .corrected (if 8 * k < w.n then w.data ^^^ (e * 2 ^ (8 * k)) else w.data)
  | .bch =>
    if w.syn = 0 then .clean
    else match Config.bchLocate (BitVec.ofNat 64 w.syn) with
      | none => .uncorrectable
      | some l => .corrected (flipBits (BitVec.ofNat 512 w.data) l).toNat

/-! ### Targets (Table 10.1) -/

/-- The instances of a target; 0 where there is none. -/
def targetInsts (t : Nat) : Nat :=
  if t = 1 ∨ t = 2 ∨ t = 6 ∨ t = 9 ∨ t = 0xA then 8 else if t = 3 then 24 else if t = 4 ∨ t = 5 then 96
  else if t = 7 ∨ t = 8 then 32 else if t = 0xB then 128 else if t = 0xC then 8 else if t = 0xD ∨ t = 0xE then 1 else 0

/-- The units of an instance. -/
def State.targetUnits (s : State) (t inst : Nat) : Nat :=
  match t with
  | 1 => 6291456 | 2 => 4194304 | 3 => 131072 | 4 => 32768 | 5 => 4096 | 6 => 262144 | 7 => 65536 | 8 => 131072 | 9 => 131072 | 0xA => 131072
  | 0xB => hbmLines / 128 | 0xC => chCapGiB (s.chCfg (inst / 2)) * 2 ^ 23 | 0xD => 1024 | 0xE => 8388608 | _ => 0

/-- The memory of an instance that holds a unit; of key store and NV store only the test row and the test sector are memory 0. -/
def rawMem (t idx : Nat) : Nat :=
  if t = 1 then idx / 2048 else if t = 2 then idx / 16384
  else if t = 0xD then (if idx = 1024 then 0 else 1)
  else if t = 0xE then (if nvTestBlock idx then 0 else 1) else 0

/-- A unit that raw accesses can name. -/
def State.rawIndexOk (s : State) (t inst idx : Nat) : Bool := decide (idx < s.targetUnits t inst) || (t == 0xD && idx == 1024)

/-- The die of a target that lies on one, the lantern of one that lies in a lantern. -/
def targetDie (t inst : Nat) : Option Nat :=
  if t = 1 ∨ t = 2 ∨ t = 6 ∨ t = 9 ∨ t = 0xA then some inst else if t = 3 then some (inst / 3) else if t = 4 ∨ t = 5 then some (inst / 12) else none
def targetLan (t inst : Nat) : Option Nat := if t = 3 then some inst else if t = 4 ∨ t = 5 then some (inst / 4) else none

/-- The target's power domain is off, or being snuffed (R248, R251). -/
def State.targetOff (s : State) (t inst : Nat) : Bool :=
  let out (x : Nat × Nat) : Bool := s.ifState x.1 x.2 == 3 || s.ifState x.1 x.2 == 4
  (match targetDie t inst with
    | some m => let p := s.fld (Pg.fabCtl m) Fld.FABCTL_DIE_STAT_PWR_STATE; p == 0 || p == 4
    | none => false)
  || (match targetLan t inst with | some k => s.fld (Pg.lan k) Fld.LAN_LAN_STAT_PWR == 0 || out (lanternAt k) | none => false)
  || (t == 6 && out (dcacheAt inst))

/-- The slot of a die in which a unit of its memories or frames lies; memories and frames are numbered slot by slot (Table 02.1, log 37). -/
def targetSlot (t idx : Nat) : Option Nat :=
  if t = 1 then some (idx / 2048 / 96) else if t = 2 then some (idx / 16384 / 8) else if t = 9 ∨ t = 0xA then some (idx / 4096) else none

/-- A unit lies in a region that is being loaded (R64, R399). -/
def State.unitLoading (s : State) (t inst idx : Nat) : Bool :=
  match targetSlot t idx with
  | some n => let x := s.regSlot inst n; x == 2 || x == 3
  | none => false

/-! ### Frames (R244 to R246) -/

def frameKey (m f : Nat) : Nat := m * 131072 + f

/-- The bits of way w of a frame (bit b belongs to way b mod 4), and the frame from its ways. -/
def frameWay (f : BitVec 1920) (w : Nat) : Nat := (List.range 480).foldl (fun x i => if f.getLsbD (4 * i + w) then x + 2 ^ i else x) 0
def frameOf (ways : List Nat) : BitVec 1920 :=
  BitVec.ofNat 1920 ((List.range 1920).foldl (fun x b => if (ways.getD (b % 4) 0).testBit (b / 4) then x + 2 ^ b else x) 0)

/-- The check word of a frame: the check bits of its four ways. -/
def frameCheck (f : BitVec 1920) : Nat := (List.range 4).foldl (fun x w => x + eccCheck 480 10 (frameWay f w) * 2 ^ (10 * w)) 0

/-- A check word's 40 bits with its own seven check bits. -/
def checkStored (c : Nat) : BitVec 47 := BitVec.ofNat 47 (c + eccCheck 40 7 c * 2 ^ 40)

def State.frameLoaded (s : State) (m f : Nat) : BitVec 1920 := mgetD 0 s.integ.frames (frameKey m f)
def State.frameFlips (s : State) (m f : Nat) : BitVec 1920 := mgetD 0 s.integ.flips (frameKey m f)
def State.checkFlips (s : State) (m f : Nat) : BitVec 47 := mgetD 0 s.integ.chkFlips (frameKey m f)

/-- Sets by which a frame and its check word differ from what was loaded. -/
def State.setFlips (s : State) (m f : Nat) (d : BitVec 1920) (c : BitVec 47) : State :=
  { s with integ.flips := mputD 0 s.integ.flips (frameKey m f) d, integ.chkFlips := mputD 0 s.integ.chkFlips (frameKey m f) c }

/-! ### Cache slots -/

/-- Where a raw content is kept that belongs to no line. -/
def rawKey (t inst idx : Nat) : Nat := t * 2 ^ 32 + inst * 2 ^ 24 + idx

/-- The line in a slot of a cache or directory; the slots of a set follow one another (log 36). -/
def State.dcAt (s : State) (m idx : Nat) : Option (Nat × DcLine) :=
  (s.coh.dc.find? fun e => e.1 / 2 ^ 42 == m && e.1 % 16384 * 16 + e.2.way == idx).map fun e => (e.1 % 2 ^ 42, e.2)
def State.scAt (s : State) (sl idx : Nat) : Option (Nat × ScLine) :=
  s.coh.sc.find? fun e => homeSlice e.1 == sl && e.1 % 4096 * 16 + e.2.way == idx
def State.dirAt (s : State) (sl idx : Nat) : Option (Nat × DirEnt) :=
  s.coh.dir.find? fun e => homeSlice e.1 == sl && e.1 % 8192 * 16 + e.2.way == idx

def dcTag (line : Nat) (l : DcLine) : Nat :=
  Config.tagBits 6 line [match l.st with | .m => 0 | .e => 1 | .s => 2, l.kid.toNat, l.tid.toNat] % 2 ^ 32
def scTag (line : Nat) (l : ScLine) : Nat := Config.tagBits 7 line [l.kid.toNat, l.dirty.toNat, l.poison.toNat] % 2 ^ 32
def dirTag (line : Nat) (e : DirEnt) : Nat := Config.tagBits 8 line [e.dx.toNat, e.pres.toNat, e.kid.toNat] % 2 ^ 32

/-- The words of a line. -/
def lineWords (d : Line) (syn : BitVec 64) : List Codeword :=
  (List.range 8).map fun i => ⟨.secded, 64, 8, fieldOf d (64 * i) 64, fieldOf syn (8 * i) 8⟩

/-- A tag's codeword: its bits as a raw WRITE left them, while its check bits do not match what the line holds. -/
def State.tagWord (s : State) (t inst idx tag syn : Nat) : Codeword :=
  let data := if syn = 0 then tag else match mget s.integ.rawUnit (rawKey t inst idx) with
    | some [(d, _)] => d
    | _ => tag
  ⟨.secded, 32, 7, data, syn⟩

/-- A line of an array is busy: a transaction of its home, or a die cache's request or held snoop (R249). -/
def State.slotBusy (s : State) (t inst idx : Nat) : Bool :=
  match t with
  | 6 => (s.dcAt inst idx).any fun e => (mget s.coh.crd (dcKey inst e.1)).isSome || (mget s.coh.held (dcKey inst e.1)).isSome
  | 7 => (s.scAt inst idx).any fun e => s.lineBusy e.1
  | 8 => (s.dirAt inst idx).any fun e => s.lineBusy e.1
  | _ => false

/-! ### Units -/

/-- The controller of a DRAM unit. -/
def dramCtrl (t inst : Nat) : Nat := if t = 0xB then inst else 128 + inst

/-- The words a raw WRITE stored where no line is; none where nothing did. -/
def State.storedWords (s : State) (t inst idx : Nat) (shape : List (Nat × Nat)) : Option (List Codeword) :=
  (mget s.integ.rawUnit (rawKey t inst idx)).map fun l =>
    (shape.zip l).map fun e => ⟨.secded, e.1.1, e.1.2, e.2.1, e.2.2⟩

/-- The shape of a unit of a cache or of the directory: data bits and check bits of its codewords. -/
def slotShape (t : Nat) : List (Nat × Nat) := if t = 8 then [(32, 7)] else List.replicate 8 (64, 8) ++ [(32, 7)]

/-- A unit is read or written in cycles without a user access: the partial writes of its memory are stored by then (R42, R44); a DRAM line that nothing has written settles to what
its cells hold (R528). -/
def State.unitQuiet (s : State) (t inst idx : Nat) : State :=
  match t with
  | 1 => s.bmSettle (inst * 2 * 3072 + idx / 2048)
  | 2 => s.bmSettle ((inst * 2 + 1) * 3072 + idx / 16384)
  | 0xB | 0xC =>
    let c := dramCtrl t inst
    if (mgetD [] s.dram.wq c).any fun e => e.1 == idx then s else (s.cells c idx).2
  | _ => s

/-- The codewords of a unit as stored; none where its content is undefined: a cache slot without a line. -/
def State.unitWords (s : State) (t inst idx : Nat) : Option (List Codeword) :=
  let word (w : EccWord) : Option (List Codeword) := some [⟨.secded, 64, 8, w.data.toNat, w.syn.toNat⟩]
  match t with
  | 1 => let w := s.bmWord (inst * 2 * 3072 + idx / 2048) (idx % 2048); some [⟨.secded, 36, 7, w.data.toNat % 2 ^ 36, w.syn.toNat⟩]
  | 2 => word (s.bmWord ((inst * 2 + 1) * 3072 + idx / 16384) (idx % 16384))
  | 3 => word (s.lanWord inst idx)
  | 4 => word (s.dataWord inst idx)
  | 5 => let w := s.progWord inst idx; some [⟨.secded, 128, 9, w.data.toNat, w.syn.toNat⟩]
  | 6 => match s.dcAt inst idx with
    | some (a, l) => some (lineWords l.data l.syn ++ [s.tagWord 6 inst idx (dcTag a l) l.tagSyn.toNat])
    | none => s.storedWords 6 inst idx (slotShape 6)
  | 7 => match s.scAt inst idx with
    | some (a, l) => some (lineWords l.data l.syn ++ [s.tagWord 7 inst idx (scTag a l) l.tagSyn.toNat])
    | none => s.storedWords 7 inst idx (slotShape 7)
  | 8 => match s.dirAt inst idx with
    | some (a, e) => some [s.tagWord 8 inst idx (dirTag a e) e.syn.toNat]
    | none => s.storedWords 8 inst idx (slotShape 8)
  | 9 =>
    let fl := s.frameFlips inst idx
    let c := (s.checkFlips inst idx).toNat
    let f := s.frameLoaded inst idx ^^^ fl
    some ((List.range 4).map fun w => ⟨.secded, 480, 10, frameWay f w, (c / 2 ^ (10 * w)) % 1024 ^^^ eccCheck 480 10 (frameWay fl w)⟩)
  | 0xA =>
    let c := (s.checkFlips inst idx).toNat
    some [⟨.secded, 40, 7, frameCheck (s.frameLoaded inst idx) ^^^ c % 2 ^ 40, c / 2 ^ 40 ^^^ eccCheck 40 7 (c % 2 ^ 40)⟩]
  | 0xD => if idx = 1024 then some ((s.storedWords 0xD inst idx [(256, 10), (256, 10)]).getD [⟨.secded, 256, 10, 0, 0⟩, ⟨.secded, 256, 10, 0, 0⟩])
    else let k := s.slotKeys idx; some [⟨.secded, 256, 10, k.1.toNat, 0⟩, ⟨.secded, 256, 10, k.2.toNat, 0⟩]
  | 0xE => let b := s.nvBlock idx; some [⟨.bch, 512, 64, b.data.toNat, b.diff.toNat⟩]
  | _ =>
    let c := dramCtrl t inst
    let hbm := t == 0xB
    let l := match (mgetD [] s.dram.wq c).find? fun e => e.1 == idx with
      | some e => e.2
      | none => (s.cells c idx).1
    some ((List.range (rsWords hbm)).map fun i =>
      ⟨.rs hbm, 8 * rsBytes hbm, 16, fieldOf l.data (8 * rsBytes hbm * i) (8 * rsBytes hbm), (l.diffAt hbm i).toNat⟩)

/-- A line's data and syndromes from its words. -/
def wordsLine (l : List (Nat × Nat)) : Line × BitVec 64 :=
  (BitVec.ofNat 512 ((List.range 8).foldl (fun x i => x + (l.getD i (0, 0)).1 % 2 ^ 64 * 2 ^ (64 * i)) 0),
   BitVec.ofNat 64 ((List.range 8).foldl (fun x i => x + (l.getD i (0, 0)).2 % 256 * 2 ^ (8 * i)) 0))

/-- A tag was stored: whether its codeword still names the line it held, itself or after a correction. -/
def tagKeeps (tag : Nat) (w : Nat × Nat) : Bool :=
  match eccDecode 32 7 (w.1 ^^^ tag) w.2 with
  | .clean => w.1 == tag
  | .corrected d => d == 0
  | .uncorrectable => true

/-- Stores the codewords of a unit, as data and syndrome. A slot whose tag names its line no more holds the line no more; what its new tag names is
open (log 36). -/
def State.setUnit (s : State) (t inst idx : Nat) (l : List (Nat × Nat)) : State :=
  let w := l.getD 0 (0, 0)
  let ecc : EccWord := ⟨BitVec.ofNat 64 w.1, BitVec.ofNat 8 w.2⟩
  let keep (s : State) (x : List (Nat × Nat)) : State := { s with integ.rawUnit := mput s.integ.rawUnit (rawKey t inst idx) x }
  match t with
  | 1 => (s.bmDropWriteBack (inst * 2 * 3072 + idx / 2048) (idx % 2048)).setBmWord (inst * 2 * 3072 + idx / 2048) (idx % 2048) ⟨BitVec.ofNat 64 (w.1 % 2 ^ 36), BitVec.ofNat 8 w.2⟩
  | 2 => (s.bmDropWriteBack ((inst * 2 + 1) * 3072 + idx / 16384) (idx % 16384)).setBmWord ((inst * 2 + 1) * 3072 + idx / 16384) (idx % 16384) ecc
  | 3 => s.setLanWord inst idx ecc
  | 4 => s.setDataWord inst idx ecc
  | 5 => s.setProgWord inst idx ⟨BitVec.ofNat 128 w.1, BitVec.ofNat 9 w.2⟩
  | 6 =>
    let tw := l.getD 8 (0, 0)
    let (d, syn) := wordsLine l
    match s.dcAt inst idx with
    | some (a, x) =>
      if tagKeeps (dcTag a x) tw then keep (s.setDcLine inst a { x with data := d, syn := syn, tagSyn := BitVec.ofNat 7 tw.2 }) [tw]
      else keep (s.delDcLine inst a) l
    | none => keep s l
  | 7 =>
    let tw := l.getD 8 (0, 0)
    let (d, syn) := wordsLine l
    match s.scAt inst idx with
    | some (a, x) =>
      if tagKeeps (scTag a x) tw then
        keep { s with coh.sc := mput s.coh.sc a { x with data := d, syn := syn, tagSyn := BitVec.ofNat 7 tw.2 } } [tw]
      else keep (s.scDrop a) l
    | none => keep s l
  | 8 =>
    match s.dirAt inst idx with
    | some (a, x) =>
      if tagKeeps (dirTag a x) w then keep { s with coh.dir := mput s.coh.dir a { x with syn := BitVec.ofNat 7 w.2 } } [w]
      else keep { s with coh.dir := mdel s.coh.dir a } l
    | none => keep s l
  | 9 =>
    let f := frameOf (l.map Prod.fst)
    let fl := f ^^^ s.frameLoaded inst idx
    let c := (List.range 4).foldl (fun x i => let e := l.getD i (0, 0); x + (e.2 % 1024 ^^^ eccCheck 480 10 (frameWay fl i)) * 2 ^ (10 * i)) 0
    s.setFlips inst idx fl (checkStored c)
  | 0xA =>
    let c := (w.1 % 2 ^ 40) ^^^ frameCheck (s.frameLoaded inst idx)
    s.setFlips inst idx (s.frameFlips inst idx) (BitVec.ofNat 47 (c + (w.2 % 128 ^^^ eccCheck 40 7 c) * 2 ^ 40))
  | 0xD => if idx = 1024 then keep s l else s
  | 0xE => s.setNvBlock idx ⟨BitVec.ofNat 512 w.1, BitVec.ofNat 64 w.2, false⟩
  | _ =>
    let c := dramCtrl t inst
    let hbm := t == 0xB
    let n := 8 * rsBytes hbm
    let d := (List.range (rsWords hbm)).foldl (fun x i => x + (l.getD i (0, 0)).1 % 2 ^ n * 2 ^ (n * i)) 0
    let e := (List.range (rsWords hbm)).foldl (fun x i => x + (l.getD i (0, 0)).2 % 65536 * 2 ^ (16 * i)) 0
    let s := s.arrayAccess c idx
    { s with dram.line := mput s.dram.line (dramKey c idx) ⟨BitVec.ofNat 512 d, BitVec.ofNat 256 e, false⟩,
             dram.wq := mputD [] s.dram.wq c ((mgetD [] s.dram.wq c).filter fun x => x.1 != idx),
             dram.corr := mdel s.dram.corr (dramKey c idx) }

end Sys2Proof.Machine
end

