-- ==== Sys2Proof/Machine/Integrity.lean ====
section
/-!
DEFINITION. Configuration frames, scrub engines, raw mode and repair (chapter 10).
-/
namespace Sys2Proof.Machine

/-! ### Flags and corrections (R244 to R247) -/

/-- PARITY_TREE_FLAG: up to four adjacent bits of a frame from `bit` on are upset (with none, a tree or its reference is); the trees flag the frame,
unless PT_EN is 0, the frame holds site memory contents (R38), its region is being loaded (R64) or the frames are in raw mode (R257). -/
def execParityTreeFlag (die : Fin 8) (frame : Fin 131072) (bit : Fin 1920) (n : Fin 5) (s : State) : Out :=
  let m := die.val
  if !s.diePowered m then .next s
  else
    let mask : BitVec 1920 := (BitVec.ofNat 1920 (2 ^ n.val - 1)) <<< bit.val
    let s := s.setFlips m frame (s.frameFlips m frame ^^^ mask) (s.checkFlips m frame)
    let pg := Pg.eccF m
    let key := frameKey m frame
    if !s.bit pg Fld.ECC_FRM_CTRL_PT_EN || s.design.memFrames.contains key || s.unitLoading 9 m frame || s.isRaw 9 m 0 || s.integ.flags.contains key then .next s
    else
      let s : State := { s.trb pg 1 with integ.flags := key :: s.integ.flags }
      .next (s.setFld pg Fld.ECC_FRM_STAT_PENDING (s.fld pg Fld.ECC_FRM_STAT_PENDING + 1))

/-- What the decode of a frame finds (Table 10.2, step 3): nothing, a correction with the flips left, or an uncorrectable way or check word; with it,
whether the check store was corrected. -/
inductive FrameResult where
  | clean | corrected (left : BitVec 1920) | uncorrectable
deriving DecidableEq, Repr

def State.frameDecode (s : State) (m f : Nat) : FrameResult × Bool :=
  -- a frame of site memory contents carries no ECC (R38)
  if s.design.memFrames.contains (frameKey m f) then (.clean, false)
  else
  let fl := s.frameFlips m f
  let c := (s.checkFlips m f).toNat
  let low := c % 2 ^ 40
  let store := eccDecode 40 7 low (c / 2 ^ 40 ^^^ eccCheck 40 7 low)
  match store with
  | .uncorrectable => (.uncorrectable, false)
  | _ =>
    let word := match store with | .corrected d => d | _ => low
    let ways := (List.range 4).map fun w =>
      let data := frameWay fl w
      (data, eccDecode 480 10 data (word / 2 ^ (10 * w) % 1024 ^^^ eccCheck 480 10 data))
    let fixed := decide (store ≠ .clean)
    if ways.any fun e => decide (e.2 = .uncorrectable) then (.uncorrectable, fixed)
    else if ways.all fun e => decide (e.2 = .clean) then (.clean, fixed)
    else (.corrected (frameOf (ways.map fun e => match e.2 with | .corrected d => d | _ => e.1)), fixed)

/-- The frame read again from the bank of the running image (R246); none where the host loaded the image or the bank cannot be read. -/
def State.frameReload (s : State) (m f : Nat) : Option (BitVec 1920) × State :=
  match s.boot.running with
  | none => (none, s)
  | some img =>
    if img.src ≠ 1 ∧ img.src ≠ 2 then (none, s)
    else match img.sections.find? fun x => x.typ == 4 && x.target == m with
      | none => (some 0, s)
      | some x =>
        let at_ := x.off + 240 * f
        let off := (if x.aux then auxBase (img.src - 1) else bankBase (img.src - 1)) + at_
        let (l, s) := s.nvBytes (off / 64 * 64) 304
        (l.map fun l =>
          let part : Section := { x with off := at_, len := 240 }
          BitVec.ofNat 1920 (numAt (img.plain part ((l.drop (off % 64)).take 240)) 0 240), s)

/-- Records a handled frame: FRM_LAST, PG_EVT.FRAME, the counter of its outcome. -/
def State.frameRecord (s : State) (m f outcome : Nat) : State :=
  let pg := Pg.eccF m
  let s := s.setReg pg Reg.ECC_FRM_LAST 0
  let s := (s.setFld pg Fld.ECC_FRM_LAST_FRAME f).setFld pg Fld.ECC_FRM_LAST_OUTCOME outcome
  let s := s.setFld pg Fld.ECC_FRM_LAST_VALID 1
  let s := if 1 ≤ outcome ∧ outcome ≤ 3 then s.trb pg (outcome + 1) else s
  s.raise pg Evt.ECC_FRAME

/-- The configuration controller handles a frame: corrected (1), reloaded (2), unrecoverable (3), false flag (4). -/
def State.frameHandle (s : State) (m f : Nat) : Nat × State :=
  let (r, fixed) := s.frameDecode m f
  let s := if fixed then s.trb (Pg.eccF m) 5 else s
  match r with
  | .clean => (4, if fixed then s.setFlips m f (s.frameFlips m f) (checkStored (frameCheck (s.frameFlips m f))) else s)
  | .corrected left => (1, s.setFlips m f left (checkStored (frameCheck left)))
  | .uncorrectable =>
    match s.frameReload m f with
    | (some d, s) => (2, { s with integ.frames := mputD 0 s.integ.frames (frameKey m f) d }.setFlips m f 0 0)
    | (none, s) => (3, s.alarm 4 (Pg.eccF m) (BitVec.ofNat 32 (m * 131072 + f)))

/-- The die whose turn it is among those with flagged frames. -/
def State.frameTurn (s : State) : Option Nat :=
  (List.range 8).findSome? fun i =>
    let m := (s.integ.turn + i) % 8
    if s.integ.flags.any fun k => k / 131072 == m then some m else none

/-- FRAME_CORRECTION: the lowest flagged frame of the die whose turn it is. -/
def execFrameCorrection (die : Fin 8) (s : State) : Out :=
  let m := die.val
  if s.frameTurn ≠ some m then .next s
  else
    let mine := s.integ.flags.filter fun k => k / 131072 == m
    let key := mine.foldl min (mine.headD 0)
    let f := key % 131072
    let s : State := { s with integ.flags := s.integ.flags.filter (· ≠ key), integ.turn := (m + 1) % 8 }
    let pg := Pg.eccF m
    let s := s.setFld pg Fld.ECC_FRM_STAT_PENDING (s.fld pg Fld.ECC_FRM_STAT_PENDING - 1)
    let (o, s) := s.frameHandle m f
    .next (s.frameRecord m f o)

/-! ### Scrub passes (R248 to R253) -/

/-- START is refused for its range, its target or the state of the unit. -/
def State.scrubRange (t inst : Nat) : Bool := targetInsts t ≤ inst
def State.unitFailed (s : State) (t inst : Nat) : Bool :=
  (match targetDie t inst with | some m => s.bit (Pg.fabCtl m) Fld.FABCTL_DIE_STAT_BIST_FAIL | none => false)
  || (match targetLan t inst with | some k => (s.reg Pg.bist Reg.BIST_FAIL_LAN).getLsbD k | none => false)
  || (t == 6 && s.heldBit Fld.BIST_FAIL_DIE_DC inst)
  || ((t == 0xB || t == 0xC) && (let x := s.cb (dramCtrl t inst) Fld.CB_CB_STAT_STATE; x == 5 || x == 6))
  || (t == 0xE && s.bit Pg.bist Fld.BIST_FAIL_PORT_NV)

/-- A memory of an instance lies in a range of units. -/
def rawInRange (t inst start len : Nat) (e : Nat × Nat × Nat) : Bool :=
  e.1 == t && e.2.1 == inst && (if t = 1 ∨ t = 2 then decide (rawMem t start ≤ e.2.2) && decide (e.2.2 ≤ rawMem t (start + len - 1))
    else if t = 0xE then decide (8387584 < start + len) else t != 0xD)

def State.scrubState (s : State) (t inst start len : Nat) : Bool :=
  len == 0 || decide (s.targetUnits t inst < start + len) || s.unitFailed t inst || s.targetOff t inst
    || s.integ.rawMode.any (rawInRange t inst start len)

/-- PASS_STAT.STATE of an engine. -/
def State.passState (s : State) (k : Nat) : Nat := s.fld (Pg.scrub k) Fld.SCR_PASS_STAT_STATE

/-- START, accepted: the summary is cleared and the pass runs. -/
def effScrubStart (k : Nat) (s : State) : State :=
  let pg := Pg.scrub k
  let p : ScrubPass := ⟨s.fld pg Fld.SCR_SCR_CTRL_TARGET, s.fld pg Fld.SCR_SCR_CTRL_INSTANCE, s.fld pg Fld.SCR_START_IDX_INDEX, s.fld pg Fld.SCR_LENGTH_UNITS⟩
  let s : State := { s with integ.passes := mput s.integ.passes k p }
  let s := [Reg.SCR_CORR_CNT, Reg.SCR_UE_CNT, Reg.SCR_FIRST_FAIL, Reg.SCR_LAST_FAIL, Reg.SCR_WORST].foldl (fun s r => s.setReg pg r 0) s
  ((s.setFld pg Fld.SCR_NEXT_INDEX p.start).setFld pg Fld.SCR_PASS_STAT_REASON 0).setFld pg Fld.SCR_PASS_STAT_STATE 1

/-- A pass ends early: 1 STOPPED, 2 DOMAIN_OFF, 3 TIMEOUT (R251). -/
def State.scrubEnd (s : State) (k reason : Nat) : State :=
  let pg := Pg.scrub k
  let s := (s.setFld pg Fld.SCR_PASS_STAT_STATE 3).setFld pg Fld.SCR_PASS_STAT_REASON reason
  (s.trb pg 0).raise pg Evt.SCR_PASS_END

/-- STOP. -/
def effScrubStop (k : Nat) (s : State) : State := if s.passState k = 1 then s.scrubEnd k 1 else s

/-- Passes whose target's domain is snuffed or off end. -/
def State.scrubSettle (s : State) : State :=
  s.integ.passes.foldl (fun s e =>
    if s.passState e.1 == 1 && s.targetOff e.2.target e.2.inst then s.scrubEnd e.1 2 else s) s

/-- What a scrub finds in a unit: nothing, or uncorrectable or not, codeword, syndrome. -/
def unitFault (l : List Codeword) : Option (Bool × Nat × Nat) :=
  let r := (List.range l.length).filterMap fun i =>
    match l[i]? with
    | none => none
    | some w => match w.decode with
      | .clean => none
      | .corrected _ => some (false, i, w.syn)
      | .uncorrectable => some (true, i, w.syn)
  (r.find? fun e => e.1).or r.head?

/-- The corrected codewords of a unit: every syndrome is 0. -/
def unitFixed (l : List Codeword) : List (Nat × Nat) :=
  l.map fun w => (match w.decode with | .corrected d => d | _ => w.data, 0)

/-- Counts and records an error in its target's own counters, and acts on a cache line that cannot be corrected as an access would: a die cache drops it or writes it back poisoned
(R183), a slice poisons it (R188, R242). -/
def State.unitCount (s : State) (t inst idx : Nat) (e : Bool × Nat × Nat) : State :=
  let ue := e.1
  match t with
  | 1 => s.bmError ⟨Fin.ofNat 8 inst, false, Fin.ofNat 3072 (idx / 2048), false, Fin.ofNat 16384 (idx % 2048), .later⟩ (idx % 2048) (BitVec.ofNat 8 e.2.2) ue
  | 2 => s.bmError ⟨Fin.ofNat 8 inst, true, Fin.ofNat 3072 (idx / 16384), false, Fin.ofNat 16384 (idx % 16384), .later⟩ (idx % 16384) (BitVec.ofNat 8 e.2.2) ue
  | 3 => s.trb (Pg.lan inst) (if ue then 2 else 1)
  | 4 => s.trb (Pg.engCtl inst) (if ue then 5 else 4)
  | 5 => s.trb (Pg.engCtl inst) (if ue then 5 else 4)
  | 6 =>
    let s := s.trb (Pg.dc inst) (if ue then 1 else 0)
    if !ue then s
    else match s.dcAt inst idx with
      | some (a, x) => if x.st = Mesi.m then s.writeBack inst a x true else s.delDcLine inst a
      | none => s
  | 7 =>
    if !ue then s.trb (Pg.sc inst) 0
    else match s.scAt inst idx with
      | some (a, x) => { s.scPoison a with coh.sc := mput s.coh.sc a { x with poison := true } }
      | none => s.trb (Pg.sc inst) 1
  | 8 => if ue then s else s.trb (Pg.sc inst) 0
  | 0xA => if ue then s else s.trb (Pg.eccF inst) 5
  | 0xE => s.trb Pg.nvs (if ue then 1 else 0)
  | _ => s

/-- A correction is noted, to be written back (R243). -/
def State.scrubNoteFix (s : State) (k t inst idx : Nat) (l : List Codeword) : State :=
  { s with integ.scrubFix := mput s.integ.scrubFix k ⟨t, inst, idx, l.map fun w => (w.data, w.syn), unitFixed l⟩ }

/-- A noted correction is written back, in the engine's next turn (DESIGN CHOICE, log 139), unless the unit has been written since it was read: then it is dropped and counted in TRB1. A user write
stores other codewords than those with the error that was read. -/
def State.scrubFixGo (s : State) (k : Nat) : State :=
  match mget s.integ.scrubFix k with
  | none => s
  | some x =>
    let s : State := { s with integ.scrubFix := mdel s.integ.scrubFix k }
    if s.targetOff x.target x.inst then s
    else if (s.unitWords x.target x.inst x.idx).map (fun l => l.map fun (w : Codeword) => (w.data, w.syn)) = some x.read then s.setUnit x.target x.inst x.idx x.fixed
    else s.trb (Pg.scrub k) 1

/-- A DRAM unit: read as stored; a line in its controller's write queue is clean (R249, R528). -/
def State.scrubDram (s : State) (k t inst idx : Nat) (wb : Bool) : Option (Bool × Nat × Nat) × State :=
  let c := dramCtrl t inst
  if (mgetD [] s.dram.wq c).any fun e => e.1 == idx then (none, s)
  else
    let (l, s) := (s.arrayAccess c idx).cells c idx
    let line := s.lineOf c idx
    let words := (s.unitWords t inst idx).getD []
    let e := (unitFault words).getD (true, 0, 0)
    match l.decode (t == 0xB) with
    | .good _ => (none, s)
    | .corrected _ n =>
      let s := s.dramError c line 0 n
      (some (false, e.2), if wb then s.scrubNoteFix k t inst idx words else s)
    | .poisoned => (some (true, e.2), s.dramError c line 2 15)
    | .uncorrectable => (some (true, e.2), s.dramError c line 1 15)

/-- A frame: corrected, or reloaded under R246, its check word too; with WB = 0 only counted (R247). -/
def State.scrubFrame (s : State) (m f : Nat) (wb : Bool) : Option (Bool × Nat × Nat) × State :=
  let e := ((s.unitWords 9 m f).bind unitFault).getD (true, 0, 0)
  let (r, fixed) := s.frameDecode m f
  let seen : Option (Bool × Nat × Nat) := match r with | .clean => none | .corrected _ => some (false, e.2) | .uncorrectable => some (true, e.2)
  if !wb then (seen, if fixed then s.trb (Pg.eccF m) 5 else s)
  else
    let (o, s) := s.frameHandle m f
    (seen, if seen.isSome then s.frameRecord m f o else s)

/-- One unit read and decoded; with WB = 1 its correction is noted for the write-back (R249). -/
def State.scrubOne (s : State) (k t inst idx : Nat) (wb : Bool) : Option (Bool × Nat × Nat) × State :=
  if s.unitLoading t inst idx then (none, s)
  else if t = 9 then s.scrubFrame inst idx wb
  else if t = 0xB ∨ t = 0xC then s.scrubDram k t inst idx wb
  else if t = 0xE ∧ (s.nvBlock idx).torn then (some (true, 0, fieldOf (s.nvBlock idx).diff 0 16), s.trb Pg.nvs 1)
  else
  let s := s.unitQuiet t inst idx
  match s.unitWords t inst idx with
    | none => (none, s)
    | some l =>
      match unitFault l with
      | none => (none, s)
      | some e =>
        let s := s.unitCount t inst idx e
        (some (e.1, e.2.1, e.2.2 % 65536), if wb && !e.1 && t != 0xE then s.scrubNoteFix k t inst idx l else s)

/-- The summary takes in a failing unit (R253). -/
def State.scrubNote (s : State) (k idx : Nat) (e : Bool × Nat × Nat) : State :=
  let pg := Pg.scrub k
  let first := s.reg pg Reg.SCR_CORR_CNT == 0 && s.reg pg Reg.SCR_UE_CNT == 0
  let cnt := if e.1 then Fld.SCR_UE_CNT_COUNT else Fld.SCR_CORR_CNT_COUNT
  let s := s.setFld pg cnt (min 0xFFFFFFFF (s.fld pg cnt + 1))
  let s := if first then s.setFld pg Fld.SCR_FIRST_FAIL_INDEX idx else s
  let s := s.setFld pg Fld.SCR_LAST_FAIL_INDEX idx
  if !s.bit pg Fld.SCR_WORST_VALID || (e.1 && !s.bit pg Fld.SCR_WORST_UE) then
    let s := (s.setFld pg Fld.SCR_WORST_VALID 1).setFld pg Fld.SCR_WORST_UE e.1.toNat
    (s.setFld pg Fld.SCR_WORST_CODEWORD e.2.1).setFld pg Fld.SCR_WORST_SYN e.2.2
  else s

/-- SCRUB_UNIT: the next unit of a running pass; a flagged frame, a busy line and a controller that does not serve keep it waiting. -/
def execScrubUnit (k : Fin 8) (s : State) : Out :=
  let pg := Pg.scrub k
  match mget s.integ.passes k with
  | none => .next s
  | some p =>
    let idx := s.fld pg Fld.SCR_NEXT_INDEX
    let s := s.scrubFixGo k
    if s.passState k ≠ 1 then .next s
    else if s.targetOff p.target p.inst then .next (s.scrubEnd k 2)
    else if (p.target == 9 && s.integ.flags.contains (frameKey p.inst idx)) || s.slotBusy p.target p.inst idx
        || ((p.target == 0xB || p.target == 0xC) && !s.cbServes (dramCtrl p.target p.inst)) then .next s
    else
      let (e, s) := s.scrubOne k p.target p.inst idx (s.bit pg Fld.SCR_SCR_CTRL_WB)
      let s := match e with | some e => s.scrubNote k idx e | none => s
      let s := s.setFld pg Fld.SCR_NEXT_INDEX (idx + 1)
      if idx + 1 < p.start + p.len then .next s
      else
        let s := s.setFld pg Fld.SCR_PASS_STAT_PASS_CNT (min 65535 (s.fld pg Fld.SCR_PASS_STAT_PASS_CNT + 1))
        let s := s.setFld pg Fld.SCR_PASS_STAT_STATE (if s.bit pg Fld.SCR_SCR_CTRL_REPEAT then 4 else 2)
        .next (s.raise pg Evt.SCR_PASS_END)

/-- SCRUB_TIMEOUT: no unit has completed within TIMEOUT.US. -/
def execScrubTimeout (k : Fin 8) (s : State) : Out := if s.passState k = 1 then .next (s.scrubEnd k 3) else .next s

/-- SCRUB_REPEAT: a pass that waits starts again over the same range, while REPEAT is still 1. -/
def execScrubRepeat (k : Fin 8) (s : State) : Out :=
  let pg := Pg.scrub k
  match mget s.integ.passes k with
  | none => .next s
  | some p =>
    if s.passState k ≠ 4 then .next s
    else if !s.bit pg Fld.SCR_SCR_CTRL_REPEAT then .next (s.setFld pg Fld.SCR_PASS_STAT_STATE 2)
    else .next ((s.setFld pg Fld.SCR_NEXT_INDEX p.start).setFld pg Fld.SCR_PASS_STAT_STATE 1)

/-! ### Raw mode (R254 to R258) -/

/-- The codes of a unit's codewords. -/
def targetShape (t : Nat) : List (CwCode × Nat × Nat) :=
  match t with
  | 1 => [(.secded, 36, 7)] | 2 => [(.secded, 64, 8)] | 3 => [(.secded, 64, 8)] | 4 => [(.secded, 64, 8)] | 5 => [(.secded, 128, 9)]
  | 6 => (slotShape 6).map fun e => (.secded, e.1, e.2)
  | 7 => (slotShape 7).map fun e => (.secded, e.1, e.2)
  | 8 => [(.secded, 32, 7)] | 9 => List.replicate 4 (.secded, 480, 10) | 0xA => [(.secded, 40, 7)]
  | 0xB => List.replicate 16 (.rs true, 32, 16) | 0xC => List.replicate 8 (.rs false, 64, 16)
  | 0xD => List.replicate 2 (.secded, 256, 10) | 0xE => [(.bch, 512, 64)] | _ => []

/-- The registers RAW_DATA and RAW_CHK as one word. -/
def State.rawData (s : State) (pg : Nat) : BitVec 2048 :=
  BitVec.ofNat 2048 ((List.range 64).foldl (fun x i => x + (s.reg pg (Reg.ECC_RAW_DATA i)).toNat * 2 ^ (32 * i)) 0)
def State.setRawData (s : State) (pg : Nat) (v : BitVec 2048) : State :=
  (List.range 64).foldl (fun s i => s.setReg pg (Reg.ECC_RAW_DATA i) (BitVec.ofNat 32 (fieldOf v (32 * i) 32))) s
def State.rawChk (s : State) (pg : Nat) : BitVec 256 :=
  BitVec.ofNat 256 ((List.range 8).foldl (fun x i => x + (s.reg pg (Reg.ECC_RAW_CHK i)).toNat * 2 ^ (32 * i)) 0)
def State.setRawChk (s : State) (pg : Nat) (v : BitVec 256) : State :=
  (List.range 8).foldl (fun s i => s.setReg pg (Reg.ECC_RAW_CHK i) (BitVec.ofNat 32 (fieldOf v (32 * i) 32))) s

/-- Where the data of codeword i lies: RAW_TAG for a cache tag, the bits of its way for a frame, else in codeword order. -/
def State.rawWord (s : State) (pg t i n : Nat) : Nat :=
  if (t = 6 ∨ t = 7) ∧ i = 8 then s.fld pg Fld.ECC_RAW_TAG_BITS
  else if t = 9 then frameWay ((s.rawData pg).setWidth 1920) i
  else fieldOf (s.rawData pg) (n * i) n

/-- The codewords in the raw registers: data, and the stored check bits as a syndrome. -/
def State.rawWords (s : State) (pg t : Nat) : List Codeword :=
  let sh := targetShape t
  (List.range sh.length).map fun i =>
    let e := sh.getD i (.secded, 0, 0)
    let w : Codeword := ⟨e.1, e.2.1, e.2.2, s.rawWord pg t i e.2.1, 0⟩
    { w with syn := fieldOf (s.rawChk pg) (16 * i) e.2.2 ^^^ w.check }

/-- The registers take the data of codewords, and their stored check bits. -/
def State.putRaw (s : State) (pg t : Nat) (l : List Codeword) : State :=
  let main := if t = 6 ∨ t = 7 then l.take 8 else l
  let d := if t = 9 then withField (s.rawData pg) 0 1920 (frameOf (l.map Codeword.data)).toNat
    else (List.range main.length).foldl (fun v i => match main[i]? with | some w => withField v (w.n * i) w.n w.data | none => v) (s.rawData pg)
  let s := s.setRawData pg d
  let s := if t = 6 ∨ t = 7 then (match l[8]? with | some w => s.setFld pg Fld.ECC_RAW_TAG_BITS w.data | none => s) else s
  s.setRawChk pg ((List.range l.length).foldl (fun v i =>
    match l[i]? with | some w => withField v (16 * i) w.c (w.syn ^^^ w.check) | none => v) (s.rawChk pg))

/-- A unit whose content is undefined: free data and check bits. -/
def State.freeWords (s : State) (t : Nat) : List Codeword × State :=
  let sh := targetShape t
  ((List.range sh.length).map fun i =>
    let e := sh.getD i (.secded, 0, 0)
    let x := Config.freeLine (s.free + i)
    ⟨e.1, e.2.1, e.2.2, fieldOf x 0 e.2.1, fieldOf x 480 e.2.2⟩, { s with free := s.free + 16 })

/-- The fields of RAW_SEL and RAW_ADDR. -/
def State.rawTarget (s : State) (pg : Nat) : Nat := s.fld pg Fld.ECC_RAW_SEL_TARGET
def State.rawInst (s : State) (pg : Nat) : Nat := s.fld pg Fld.ECC_RAW_SEL_INSTANCE
def State.rawIdx (s : State) (pg : Nat) : Nat := s.fld pg Fld.ECC_RAW_ADDR_INDEX

/-- RAW_SEL names a target that another page serves. -/
def rawSelRange (pg t inst : Nat) : Bool := decide (targetInsts t ≤ inst) || rawPage t inst != pg

/-- The memory that holds RAW_ADDR is in raw mode. -/
def State.rawHere (s : State) (pg : Nat) : Bool :=
  s.isRaw (s.rawTarget pg) (s.rawInst pg) (rawMem (s.rawTarget pg) (s.rawIdx pg))

/-- A scrub pass covers the memory that holds RAW_ADDR. -/
def State.rawScrubbed (s : State) (pg : Nat) : Bool :=
  let t := s.rawTarget pg
  s.integ.passes.any fun e => (s.passState e.1 == 1 || s.passState e.1 == 4)
    && e.2.target == t && rawInRange t e.2.inst e.2.start e.2.len (t, s.rawInst pg, rawMem t (s.rawIdx pg))

/-- The operation is refused (R255, R256). -/
def State.rawRefused (s : State) (pg op : Nat) : Bool :=
  let t := s.rawTarget pg
  let inst := s.rawInst pg
  let bad := rawSelRange pg t inst || !s.rawIndexOk t inst (s.rawIdx pg)
  if op = 1 then
    bad || s.rawScrubbed pg || ((t == 9 || t == 0xA) && s.fld (Pg.fabCtl inst) Fld.FABCTL_DIE_STAT_PWR_STATE != 2)
      || ((t == 0xD || t == 0xE) && rawMem t (s.rawIdx pg) != 0)
  else if op = 3 ∨ op = 4 then bad || !s.rawHere pg
  else false

/-- The operation that a page's registers name: it stays with this unit while it waits. -/
def State.rawJob (s : State) (pg op : Nat) : RawOp := ⟨op, s.rawTarget pg, s.rawInst pg, s.rawIdx pg⟩

/-- The operation can start: the memory is powered, its controller serves, its line is not busy; READ and WRITE need the memory in raw mode still. -/
def State.rawReadyAt (s : State) (j : RawOp) : Bool :=
  if j.op = 2 ∨ j.op = 5 then true
  else !s.targetOff j.target j.inst && !((j.target == 0xB || j.target == 0xC) && !s.cbServes (dramCtrl j.target j.inst))
    && !((j.op == 3 || j.op == 4) && (s.slotBusy j.target j.inst j.idx || !s.isRaw j.target j.inst (rawMem j.target j.idx)))
def State.rawReady (s : State) (pg op : Nat) : Bool := s.rawReadyAt (s.rawJob pg op)

/-- The operation is done. -/
def State.rawRun (s : State) (pg : Nat) (j : RawOp) : State :=
  let t := j.target
  let inst := j.inst
  let idx := j.idx
  let e := (t, inst, rawMem t idx)
  let s : State := { s.unitQuiet t inst idx with integ.rawOp := mdel s.integ.rawOp pg }
  let s := match j.op with
    | 1 => if s.integ.rawMode.contains e then s else { s with integ.rawMode := e :: s.integ.rawMode }
    | 2 => { s with integ.rawMode := s.integ.rawMode.filter (· ≠ e) }
    | 3 => match s.unitWords t inst idx with
      | some l => s.putRaw pg t l
      | none => let (l, s) := s.freeWords t; s.putRaw pg t l
    | 4 => s.setUnit t inst idx ((s.rawWords pg t).map fun (w : Codeword) => (w.data, w.syn))
    | _ => s.putRaw pg t ((s.rawWords pg t).map fun (w : Codeword) => { w with syn := 0 })
  (s.setFld pg Fld.ECC_RAW_CTRL_BUSY 0).setFld pg Fld.ECC_RAW_CTRL_RESULT 1

/-- RAW_CTRL.OP, accepted: it runs at once where it can start. -/
def effRaw (pg op : Nat) (s : State) : State :=
  if s.rawReady pg op then s.rawRun pg (s.rawJob pg op)
  else { (s.setFld pg Fld.ECC_RAW_CTRL_BUSY 1).setFld pg Fld.ECC_RAW_CTRL_RESULT 0 with integ.rawOp := mput s.integ.rawOp pg (s.rawJob pg op) }

/-- The page of an ECC page's number in a command. -/
def eccPage (pg : Nat) : Nat := 0x388 + pg

/-- RAW_TIMEOUT: 100 µs have passed: an operation that could start by now has; another ends with TIMEOUT. -/
def execRawTimeout (pg : Fin 10) (s : State) : Out :=
  let p := eccPage pg
  match mget s.integ.rawOp p with
  | none => .next s
  | some j =>
    if s.rawReadyAt j then .next (s.rawRun p j)
    else
      let s : State := { s with integ.rawOp := mdel s.integ.rawOp p }
      .next (((s.setFld p Fld.ECC_RAW_CTRL_BUSY 0).setFld p Fld.ECC_RAW_CTRL_RESULT 2).trb p 0)

/-- The memories of a page, of a die or of a lantern leave raw mode. -/
def State.rawDrop (s : State) (p : Nat × Nat × Nat → Bool) : State := { s with integ.rawMode := s.integ.rawMode.filter fun e => !p e }

/-! ### Repair (R259 to R262) -/

/-- Arrays of an instance, spare rows, spare columns (Table 10.3). -/
def spares (t : Nat) : Option (Nat × Nat × Nat) :=
  match t with
  | 1 => some (3072, 2, 1) | 2 => some (256, 4, 2) | 3 => some (16, 4, 2) | 4 => some (8, 2, 1) | 5 => some (1, 2, 1) | 6 => some (16, 8, 4)
  | 7 => some (8, 8, 4) | 8 => some (4, 4, 2) | 0xA => some (1, 8, 4) | 0xD => some (1, 2, 1) | _ => none

/-- The spare an entry names, and the place it repairs (Table 10.5). -/
def repSpare (e : DWord) : Nat := e.toNat / 2 ^ 28
def repPlace (e : DWord) : Nat := e.toNat / 2 ^ 31 * 2 ^ 16 + e.toNat % 2 ^ 16

/-- An entry whose fields lie in Tables 10.5 and 10.1. -/
def repValid (e : DWord) : Bool :=
  match spares (fieldOf e 60 4) with
  | none => false
  | some (arrays, rows, cols) =>
    !e.getLsbD 59 && decide (fieldOf e 52 7 < targetInsts (fieldOf e 60 4)) && decide (fieldOf e 32 20 < arrays)
      && decide (fieldOf e 28 3 < if e.getLsbD 31 then cols else rows) && fieldOf e 16 12 == 0

/-- Applies the entries of a list: how many were applied, how many skipped. -/
def State.applyList (s : State) : List DWord → Nat × Nat × State
  | [] => (0, 0, s)
  | e :: l =>
    let skip := !repValid e || s.integ.applied.any fun x => repSpare x == repSpare e || repPlace x == repPlace e
    if skip then let (a, b, s) := (s.trb Pg.repair 0).applyList l; (a, b + 1, s)
    else let (a, b, s) := ({ s with integ.applied := s.integ.applied ++ [e] }.applyList l); (a + 1, b, s)

/-- RUNTIME: the repairs since the cold power-up that the staged list does not hold. -/
def State.syncRuntime (s : State) : State :=
  s.setFld Pg.repair Fld.REP_REP_STAT_RUNTIME (min 1023 (s.integ.runtime.filter fun e => !s.integ.staged.contains e).length)

/-- Step 2 of Table 10.4, at a cold power-up: the valid copy with the higher sequence number is applied and staged. -/
def State.repairStart (s : State) : State :=
  let good (i : Nat) : Option (Nat × List DWord) := (mget s.integ.copies i).bind fun c => if c.crcOk then some (c.seq, c.entries) else none
  let s := s.trbN Pg.repair 1 ((good 0).isNone.toNat + (good 1).isNone.toNat)
  match newerCopy (good 0) (good 1) with
  | none => (s.setFld Pg.repair Fld.REP_REP_STAT_LIST 1).raise Pg.repair Evt.REP_LIST_BAD
  | some (_, seq, l) =>
    let (a, b, s) := s.applyList l
    let s : State := { s with integ.staged := l }
    let s := (s.setFld Pg.repair Fld.REP_REP_STAT_LIST (if l.isEmpty then 2 else 0)).setFld Pg.repair Fld.REP_REP_STAT_APPLIED a
    (s.setFld Pg.repair Fld.REP_REP_STAT_SKIPPED b).setReg Pg.repair Reg.REP_LIST_SEQ (BitVec.ofNat 32 seq)

/-- ADD. -/
def effAddEntry (s : State) : State :=
  let e : DWord := s.reg Pg.repair Reg.REP_ENTRY_HI ++ s.reg Pg.repair Reg.REP_ENTRY_LO
  ({ s with integ.staged := s.integ.staged ++ [e] }.syncRuntime).setFld Pg.repair Fld.REP_LIST_CTRL_RESULT 1

/-- COMMIT: the repairs that the list does not hold; entries beyond 512 are not taken. -/
def effCommit (s : State) : State :=
  let l := s.integ.runtime.foldl (fun l e => if l.contains e || decide (512 ≤ l.length) then l else l ++ [e]) s.integ.staged
  ({ s with integ.staged := l }.syncRuntime).setFld Pg.repair Fld.REP_LIST_CTRL_RESULT 1

/-- The copy that a WRITE replaces, and the sequence number it gets. -/
def State.listTarget (s : State) : Nat × Nat :=
  let good (i : Nat) : Option (Nat × List DWord) := (mget s.integ.copies i).bind fun c => if c.crcOk then some (c.seq, c.entries) else none
  match newerCopy (good 0) (good 1) with
  | some (i, seq, _) => (1 - i, seq + 1)
  | none => (0, 1)

/-- WRITE begins: the copy with the lower sequence number holds no valid list while it is written. -/
def effListWrite (s : State) : State :=
  let (i, seq) := s.listTarget
  let s := (s.setFld Pg.repair Fld.REP_LIST_CTRL_BUSY 1).setFld Pg.repair Fld.REP_LIST_CTRL_RESULT 0
  { s with integ.copies := mput s.integ.copies i ⟨seq, s.integ.staged, false⟩, integ.writing := some i }

/-- LIST_WRITE_END: the verify ends. -/
def execListWriteEnd (ok : Bool) (s : State) : Out :=
  match s.integ.writing with
  | none => .next s
  | some i =>
    let s : State := { s with integ.writing := none }
    let s := s.setFld Pg.repair Fld.REP_LIST_CTRL_BUSY 0
    if ok then
      let s : State := match mget s.integ.copies i with
        | some c => { s with integ.copies := mput s.integ.copies i { c with crcOk := true } }
        | none => s
      .next (s.setFld Pg.repair Fld.REP_LIST_CTRL_RESULT 1)
    else .next ((s.setFld Pg.repair Fld.REP_LIST_CTRL_RESULT 2).trb Pg.repair 2)

end Sys2Proof.Machine
end

