-- ==== Sys2Proof/Machine/TqLink.lean ====
section
/-!
DEFINITION. Tequel frames and spans (R330 to R336, R344): the frame's fields, blocks with their credits and replay, and the routing of frames.
Multi-byte payload fields are taken least significant byte first (DEDUCED, log 60).
-/
namespace Sys2Proof.Machine

/-! ### Fields and checks -/

/-- The n bytes of a word with its most significant byte first, as headers and trailers travel (Table 14.1). -/
def bytesBe {w : Nat} (n : Nat) (v : BitVec w) : List Byte := (toBytes n v).reverse

def Frame.dst (f : Frame) : Nat := fieldOf f.hdr 114 14
def Frame.src (f : Frame) : Nat := fieldOf f.hdr 100 14
def Frame.queue (f : Frame) : Nat := fieldOf f.hdr 88 12
def Frame.key (f : Frame) : Nat := fieldOf f.hdr 78 10
def Frame.seq (f : Frame) : Nat := fieldOf f.hdr 54 24
def Frame.typ (f : Frame) : Nat := fieldOf f.hdr 48 6
def Frame.len (f : Frame) : Nat := fieldOf f.hdr 41 7
def Frame.hop (f : Frame) : Nat := fieldOf f.hdr 36 5
def Frame.crc (f : Frame) : Nat := fieldOf f.hdr 4 32

/-- The CRC of a frame, HOP and CRC taken as zero (R335). -/
def Frame.goodCrc (f : Frame) : Nat := crcOf 2 (bytesBe 16 (withField (withField f.hdr 36 5 0) 4 32 0) ++ toBytes 64 f.payload)

/-- A frame with its header fields and CRC (R335). -/
def mkFrame (dst src queue key seq typ len : Nat) (payload : Line) : Frame :=
  let h : BitVec 128 := 0
  let h := withField h 114 14 dst
  let h := withField h 100 14 src
  let h := withField h 88 12 queue
  let h := withField h 78 10 key
  let h := withField h 54 24 seq
  let h := withField h 48 6 typ
  let h := withField h 41 7 len
  let f : Frame := ⟨h, payload⟩
  ⟨withField h 4 32 f.goodCrc, payload⟩

/-- The classes (R332): 0 CT, 1 RS, 2 RQ, by type (Table 14.3). -/
def frameClass (typ : Nat) : Nat := if typ < 8 then 2 else if typ < 0x20 then 1 else 0

/-- A type and length of Table 14.3. -/
def Frame.wellFormed (f : Frame) : Bool :=
  match f.typ with
  | 1 | 2 | 3 | 4 => [1, 2, 4, 8, 16, 32, 64].contains f.len
  | 8 | 9 | 0xA => decide (f.len ≤ 3)
  | 0xB | 0x24 => decide (1 ≤ f.len) && decide (f.len ≤ 16)
  | 0x20 | 0x21 | 0x22 | 0x23 | 0x25 | 0x26 | 0x27 => f.len == 0
  | _ => false

/-- Bytes of a payload from byte i on, as a number. -/
def payNum (p : Line) (i n : Nat) : Nat := fieldOf p (8 * i) (8 * n)
/-- A payload from numbers at byte positions with their lengths. -/
def payOf (l : List (Nat × Nat × Nat)) : Line := l.foldl (fun p e => withField p (8 * e.1) (8 * e.2.1) e.2.2) 0

/-! ### Spans (R330 to R333) -/

def State.span (s : State) (sp : Nat) : SpanState := mgetD {} s.tq.spans sp
def State.setSpan (s : State) (sp : Nat) (x : SpanState) : State := { s with tq.spans := mputD {} s.tq.spans sp x }

/-- SP_STAT.STATE is UP. -/
def State.spanUp (s : State) (sp : Nat) : Bool := s.fld (Pg.span sp) Fld.SPAN_SP_STAT_STATE == 2

/-- A span is enabled, and lane number j of it. -/
def State.spanOn (s : State) (sp : Nat) : Bool := s.bit (Pg.span sp) Fld.SPAN_SP_CTRL_ENABLE
def State.spanWidth (s : State) (sp : Nat) : Nat := s.fld (Pg.span sp) Fld.SPAN_SP_CTRL_WIDTH
def State.spanLane (s : State) (sp j : Nat) : Nat :=
  byteOf (s.reg (Pg.span sp) (if j < 4 then Reg.SPAN_SP_LANES0 else Reg.SPAN_SP_LANES1)) (j % 4) |>.toNat

/-- The enabled span a lane belongs to, and its place in it. -/
def State.laneSpan (s : State) (l : Nat) : Option (Nat × Nat) :=
  (List.range 24).findSome? fun sp =>
    if s.spanOn sp then ((List.range (s.spanWidth sp)).find? fun j => s.spanLane sp j == l).map fun j => (sp, j) else none

/-- The credit counts of a trailer: CT, RS, RQ. -/
def SpanState.credit (x : SpanState) : BitVec 24 := x.freedCT ++ x.freedRS ++ x.freedRQ

/-- A block with its trailer (Table 14.1). -/
def mkBlock (x : SpanState) (frame : Option Frame) (seq : Byte) : BitVec 768 :=
  let t : BitVec 128 := 0
  let t := withField t 127 1 (if frame.isSome then 1 else 0)
  let t := withField t 126 1 x.nak.toNat
  let t := withField t 118 8 seq.toNat
  let t := withField t 110 8 (x.rxSeq - 1).toNat
  let t := withField t 86 24 x.credit.toNat
  let f := frame.getD ⟨0, 0⟩
  let body := bytesBe 16 f.hdr ++ toBytes 64 f.payload ++ (bytesBe 16 t).take 12
  let t := withField t 0 32 (crcOf 2 body)
  ofBytes 768 (body ++ (bytesBe 16 t).drop 12)

/-- What the trailers of a span show now. -/
def SpanState.trailer (x : SpanState) : Bool × Byte × BitVec 24 := (x.nak, x.rxSeq - 1, x.credit)

/-- Credits of a class are left (R333: 128 entries for RQ, 128 for RS, 32 for CT). -/
def SpanState.mayCredit (x : SpanState) (typ : Nat) : Bool :=
  match frameClass typ with
  | 0 => decide ((x.sentCT - x.credCT).toNat < 32)
  | 1 => decide ((x.sentRS - x.credRS).toNat < 128)
  | _ => decide ((x.sentRQ - x.credRQ).toNat < 128)

def SpanState.countSent (x : SpanState) (typ : Nat) : SpanState :=
  match frameClass typ with
  | 0 => { x with sentCT := x.sentCT + 1 }
  | 1 => { x with sentRS := x.sentRS + 1 }
  | _ => { x with sentRQ := x.sentRQ + 1 }

def SpanState.countFreed (x : SpanState) (typ : Nat) : SpanState :=
  match frameClass typ with
  | 0 => { x with freedCT := x.freedCT + 1 }
  | 1 => { x with freedRS := x.freedRS + 1 }
  | _ => { x with freedRQ := x.freedRQ + 1 }

/-- Sends the waiting frames of a span in order, class by class, while block credits and the replay buffer of 64 allow. -/
def State.spanSendGo (s : State) (sp : Nat) : (fuel : Nat) → State
  | 0 => s
  | n + 1 =>
    let x := s.span sp
    if x.replay.length < 64 then
      match x.wait.find? fun f => x.mayCredit f.typ with
      | none => s
      | some f =>
        let b := mkBlock x (some f) x.txSeq
        let x := { x.countSent f.typ with wait := x.wait.erase f, replay := x.replay ++ [(x.txSeq, f)], txSeq := x.txSeq + 1, shown := x.trailer }
        ((s.setSpan sp x).emit (.block sp b)).spanSendGo sp n
    else s

/-- Sends what can be sent; where the trailer's NAK, ACK or CREDIT changed and no data block carried it, an idle block does. -/
def State.spanFlush (s : State) (sp : Nat) : State :=
  if s.spanUp sp then
    let s := s.spanSendGo sp ((s.span sp).wait.length)
    let x := s.span sp
    if x.shown = x.trailer ∧ !x.nak then s
    else (s.setSpan sp { x with shown := x.trailer }).emit (.block sp (mkBlock x none x.txSeq))
  else s

/-- Puts a frame into a span's waiting frames and sends. -/
def State.spanSend (s : State) (sp : Nat) (f : Frame) : State :=
  let x := s.span sp
  (s.setSpan sp { x with wait := x.wait ++ [f] }).spanFlush sp

/-! ### Routing (R344) -/

/-- The device's node ID, if it has one. -/
def State.nodeId (s : State) : Nat := s.fld Pg.tq Fld.TQ_NODE_ID
def State.nodeValid (s : State) : Bool := s.bit Pg.tq Fld.TQ_NODE_VALID

/-- Sends a frame onto the span of its entry; discarded and counted in TRB6 where the entry has none or its span is DOWN. -/
def State.routeFrame (s : State) (f : Frame) : State :=
  let e := (mgetD 0x1E s.tq.routes f.dst).toNat
  if e < 24 ∧ s.spanUp e then s.spanSend e f else s.trb Pg.tq 6

/-- Forwards a frame of another node: HOP grows by one; at 31 it is discarded (R344). -/
def State.forwardFrame (s : State) (f : Frame) : State :=
  if f.hop = 31 then s.trb Pg.tq 6 else s.routeFrame ⟨withField f.hdr 36 5 (f.hop + 1), f.payload⟩

/-- Sends a frame of class CT of this node over one span. -/
def State.sendCt (s : State) (sp typ len seq : Nat) (payload : Line) : State :=
  if s.spanUp sp then s.spanSend sp (mkFrame 0 s.nodeId 0 0 seq typ len payload) else s

/-- The UP spans. -/
def State.upSpans (s : State) : List Nat := (List.range 24).filter fun sp => s.spanUp sp

/-- The device's serial. -/
def State.serial (s : State) : BitVec 64 := (s.reg Pg.tq Reg.TQ_SERIAL_HI) ++ (s.reg Pg.tq Reg.TQ_SERIAL_LO)

/-- A HELLO on a span that has come UP (R331): serial, span, best-known claimant and its priority. -/
def State.sendHello (s : State) (sp : Nat) : State :=
  let (pr, cl) := s.tq.net.leader.getD (s.tq.net.best.getD (0, 0))
  s.sendCt sp 0x20 0 0 (payOf [(0, 8, s.serial.toNat), (8, 1, sp), (16, 8, cl.toNat), (24, 1, pr.toNat)])

/-- LINKDOWN to the lamplighter (R334): routed; at the lamplighter itself it is taken in at once. -/
def State.sendLinkdown (s : State) (sp : Nat) : State :=
  let nbr := s.fld (Pg.span sp) Fld.SPAN_SP_NBR_NODE
  if s.bit Pg.tq Fld.TQ_ELECT_LAMPLIGHTER then
    { s with tq.inbox := s.tq.inbox ++ [(sp, .linkdown (BitVec.ofNat 14 s.nodeId) (BitVec.ofNat 14 nbr) (BitVec.ofNat 8 sp))] }
  else if s.bit Pg.tq Fld.TQ_LEADER_VALID then
    s.routeFrame (mkFrame (s.fld Pg.tq Fld.TQ_LEADER_ID) s.nodeId 0 0 0 0x27 0 (payOf [(0, 2, s.nodeId), (2, 2, nbr), (4, 1, sp)]))
  else s

/-! ### A span's state (R331, R334) -/

/-- A span changes to UP: PG_EVT.UP, HELLO. -/
def State.spanToUp (s : State) (sp : Nat) : State :=
  let pg := Pg.span sp
  ((s.setFld pg Fld.SPAN_SP_STAT_STATE 2).raise pg Evt.SPAN_UP).sendHello sp

/-- A span changes to DOWN: counted in TRB2, PG_EVT.DOWN, LINKDOWN; its unacknowledged frames of the routed types are routed again (R334).
Its rate is free to be set anew. -/
def State.spanToDown (s : State) (sp : Nat) : State :=
  let pg := Pg.span sp
  let x := s.span sp
  let frames := (x.replay.map Prod.snd ++ x.wait).filter fun f => decide (f.typ < 0x20) || f.typ == 0x27
  let s := s.setSpan sp { excluded := x.excluded }
  let s := (s.setFld pg Fld.SPAN_SP_STAT_STATE (if s.spanOn sp then 1 else 0)).setFld pg Fld.SPAN_SP_STAT_RATE 0
  let s := ((s.trb pg 2).raise pg Evt.SPAN_DOWN).sendLinkdown sp
  frames.foldl (fun s f => s.routeFrame f) s

end Sys2Proof.Machine
end

