-- ==== Sys2Proof/Machine/Lanes.lean ====
section
/-!
DEFINITION. The general lanes (R279 to R303): rates, taps, states and their changes, the rate probe, electrical idle, the receive FIFO, tests.
-/
namespace Sys2Proof.Machine

/-! ### State -/

def State.lane (s : State) (l : Nat) : Lane := mgetD {} s.lanes l
def State.setLane (s : State) (l : Nat) (x : Lane) : State := { s with lanes := mputD {} s.lanes l x }

/-- Li_STAT.STATE (Table 12.3): 0 OFF, 1 DISABLED, 2 TRAINING, 3 UP, 4 RETRAIN, 5 DOWN, 6 TEST. -/
def State.laneState (s : State) (l : Nat) : Nat := s.fld (Pg.lane l) Fld.LN_STAT_STATE
def State.laneOwner (s : State) (l : Nat) : Nat := s.fld (Pg.lane l) Fld.LN_CTRL_OWNER
def State.lanePcs (s : State) (l : Nat) : Nat := s.fld (Pg.lane l) Fld.LN_CTRL_PCS
/-- TRAINING or RETRAIN. -/
def State.laneTrains (s : State) (l : Nat) : Bool := s.laneState l == 2 || s.laneState l == 4

/-- The home die of a lane's fabric port (R281); while it is off the lane discards what it receives and sends nothing (Table 17.4, step 4). -/
def laneHome (l : Nat) : Nat := if l < 48 then 0 else if l < 96 then 4 else if l < 144 then 3 else 7

/-! ### Rates (R281, R282, Table 12.1) -/

/-- A line code, PCS, FEC and rate of Table 12.1. -/
def laneModeOk (pam4 : Bool) (pcs fec kbps : Nat) : Bool :=
  let within (a b : Nat) : Bool := decide (a ≤ kbps) && decide (kbps ≤ b)
  match pcs, pam4 with
  | 0, false => fec == 0 && within 1250000 56000000
  | 0, true => fec == 0 && within 53125000 112500000
  | 1, false => fec == 0 && within 1250000 12500000
  | 2, false => fec == 0 && within 5000000 56000000
  | 3, false => fec != 0 && within 20000000 56000000
  | 3, true => decide (2 ≤ fec) && within 53125000 112500000
  | _, _ => false

/-- The rate probe list (Table 12.5): rate in kb/s, PAM4, PCS, FEC. -/
def probeRate : Nat → Nat × Bool × Nat × Nat
  | 0 => (1250000, false, 1, 0) | 1 => (10312500, false, 2, 0) | 2 => (25781250, false, 3, 1) | 3 => (28125000, false, 3, 3)
  | 4 => (53125000, false, 3, 2) | 5 => (56000000, false, 3, 3) | 6 => (53125000, true, 3, 2) | 7 => (56250000, true, 3, 3)
  | 8 => (106250000, true, 3, 2) | _ => (112500000, true, 3, 3)

/-- The auto-negotiated PHY types (Table 12.4) by RESULT; type 3 with or without FEC. -/
def anRate (result : Nat) (noFec : Bool) : Option (Nat × Bool × Nat × Nat) :=
  match result with
  | 1 => some (1250000, false, 1, 0) | 2 => some (10312500, false, 2, 0)
  | 3 => some (25781250, false, if noFec then 2 else 3, if noFec then 0 else 1)
  | 4 => some (53125000, true, 3, 2) | 5 => some (106250000, true, 3, 2)
  | _ => none

/-- The lane writes the mode chosen into its own fields (R284). -/
def State.setLaneMode (s : State) (l : Nat) (m : Nat × Bool × Nat × Nat) : State :=
  let pg := Pg.lane l
  let (kbps, pam4, pcs, fec) := m
  let s := s.setFld pg Fld.LN_RATE_KBPS kbps
  let s := s.setFld pg Fld.LN_CTRL_LINE pam4.toNat
  (s.setFld pg Fld.LN_CTRL_PCS pcs).setFld pg Fld.LN_CTRL_FEC fec

/-! ### The transmit taps (R286) -/

def tapsOk (pre main post : Nat) : Bool :=
  decide (pre ≤ 16) && decide (24 ≤ main) && decide (main ≤ 63) && decide (post ≤ 24) && decide (pre + main + post ≤ 63)
    && decide (16 + pre + post ≤ main)

/-- TXFIR.SRC: training owns the taps while TRAIN_EN is 1 and the lane is not DISABLED. -/
def State.syncTaps (s : State) (l : Nat) : State :=
  s.setFld (Pg.lane l) Fld.LN_TXFIR_SRC
    (if s.bit (Pg.lane l) Fld.LN_CTRL_TRAIN_EN && s.laneState l != 1 && s.laneState l != 0 then 1 else 0)

/-! ### The receive equaliser (R288) -/

/-- A stage of the equaliser in a mode of Li_RXEQ adapts: continuously where a receiver runs whose direction is not idle, or in training only (R288, R294). -/
def eqRuns (mode st : Nat) (idle : Bool) : Bool := !idle && ((mode == 0 && decide (2 ≤ st) && st != 5) || (mode == 1 && (st == 2 || st == 4)))

/-- Li_DFEj with taps 1 to n enabled: the others are held at 0. -/
def dfeWord (n j : Nat) (v : Word) : Word := v &&& BitVec.ofNat 32 (2 ^ (8 * (n - 4 * j)) - 1)

/-- What the stages that adapt have come to, with the modes of an Li_RXEQ word: hardware writes values that the channel decides, free ones (log 1). -/
def State.eqAdapt (s : State) (l : Nat) (rxeq : Word) : State :=
  let pg := Pg.lane l
  let runs (f : Fld) : Bool := eqRuns (wf rxeq f) (s.fld pg Fld.LN_STAT_STATE) (s.bit pg Fld.LN_IDLE_RX_IDLE)
  let v := s.freeLine
  let ctle := runs Fld.LN_RXEQ_CTLE_MODE
  let dfe := runs Fld.LN_RXEQ_DFE_MODE
  let s := if ctle then s.setFld pg Fld.LN_RXEQ_CTLE (fieldOf v 0 5) else s
  let s := if dfe then [0, 1, 2].foldl (fun s j =>
      s.setReg pg (Reg.LN_DFE j) (dfeWord (wf rxeq Fld.LN_RXEQ_DFE_TAPS) j (BitVec.ofNat 32 (fieldOf v (32 + 32 * j) 32)))) s else s
  if ctle || dfe then s.useFree else s

/-- A write of Li_RXEQ takes effect at once: an adapting stage that becomes manual starts from what it held, taps that are not enabled are 0. -/
def State.eqWritten (s : State) (l : Nat) (old v : Word) : State :=
  let s := if wf old Fld.LN_RXEQ_DFE_MODE = wf v Fld.LN_RXEQ_DFE_MODE then s
    else s.eqAdapt l (withField old Fld.LN_RXEQ_CTLE_MODE.lo 2 2)
  [0, 1, 2].foldl (fun s j => s.setReg (Pg.lane l) (Reg.LN_DFE j) (dfeWord (wf v Fld.LN_RXEQ_DFE_TAPS) j (s.reg (Pg.lane l) (Reg.LN_DFE j)))) s

/-! ### State changes -/

/-- The lane enters a state; locks and idle hold only where traffic or tests run; a retraining receiver keeps its clock recovery (R292). -/
def State.setLaneState (s : State) (l n : Nat) : State :=
  let pg := Pg.lane l
  let s := (s.eqAdapt l (s.reg pg Reg.LN_RXEQ)).setFld pg Fld.LN_STAT_STATE n
  let s := if n = 3 ∨ n = 6 then
      -- an injection that waited for the transmitter acts now (R303)
      if (s.lane l).inject then
        (s.setLane l { s.lane l with inject := false }).emit
          (.lane l (.inject (if s.fld pg Fld.LN_INJ_MODE = 1 then 1 else s.fld pg Fld.LN_INJ_BURST_LEN)))
      else s
    else
      let s := (s.setFld pg Fld.LN_IDLE_TX_IDLE 0).setFld pg Fld.LN_IDLE_RX_IDLE 0
      let s := if n = 4 then s else s.setFld pg Fld.LN_STAT_CDR_LOCK 0
      (s.setFld pg Fld.LN_STAT_BLOCK_LOCK 0).setFld pg Fld.LN_STAT_FEC_LOCK 0
  (s.syncTaps l).refSync l

/-- A lane leaves UP: a span it serves loses it; counted in TRB3 of the span; the last one takes the span DOWN (R334). -/
def State.laneOut (s : State) (l : Nat) : State :=
  if s.laneState l ≠ 3 then s
  else match s.laneSpan l with
    | none => s
    | some (sp, j) =>
      let m := s.fld (Pg.span sp) Fld.SPAN_SP_STAT_UP_MASK
      if !m.testBit j then s
      else
        let s := (s.setFld (Pg.span sp) Fld.SPAN_SP_STAT_UP_MASK (m - 2 ^ j)).trb (Pg.span sp) 3
        if m = 2 ^ j then s.spanToDown sp else s

/-- The lane runs the rate probe: PROBE_EN is 1, or it is a lane of a span in use (R291, R330). -/
def State.laneProbes (s : State) (l : Nat) : Bool := s.bit (Pg.lane l) Fld.LN_CTRL_PROBE_EN || (s.laneSpan l).isSome

/-- Training starts anew: negotiation or probe with it (R289 to R291); a probe at 1.25 Gb/s in 8b/10b, which the lane's fields show then as the mode
in use (R284; DEDUCED, log 141). -/
def State.laneTrain (s : State) (l n : Nat) : State :=
  let pg := Pg.lane l
  let s := s.laneOut l
  let s := (s.setFld pg Fld.LN_AN_DONE 0).setFld pg Fld.LN_AN_RESULT 0
  let s := s.setLane l { s.lane l with probe := none, probes := 0, ackSent := false, acksIn := 0, uncorr := 0 }
  let s := if n = 2 ∧ s.laneProbes l then s.setLaneMode l (probeRate 0) else s
  s.setLaneState l n

/-- Full retraining at the mode in use: state RETRAIN. -/
def State.laneRetrain (s : State) (l : Nat) : State := (s.laneOut l).setLaneState l 4

/-- ENABLE = 1 on a DISABLED lane whose group has started (R289, R387), outside SAFE_WAIT (R370). -/
def effLaneEnable (l : Nat) (s : State) : State :=
  if s.laneState l ≠ 1 ∨ !s.laneGroups.getLsbD (l / 16) ∨ s.bit Pg.clkRef Fld.REF_LOSS_STAT_SAFE then s
  else if s.laneOwner l = 0 then s.setLaneState l 6
  else s.laneTrain l 2

/-- ENABLE = 0: DISABLED. -/
def effLaneDisable (l : Nat) (s : State) : State :=
  if s.laneState l = 0 then s
  else
    let s := (s.laneOut l).setLaneState l 1
    let s := ((s.setFld (Pg.lane l) Fld.LN_PAT_GEN_EN 0).setFld (Pg.lane l) Fld.LN_PAT_CHK_EN 0).setFld (Pg.lane l) Fld.LN_PAT_CHK_LOCK 0
    s.setLane l { s.lane l with probe := none, probes := 0, ackSent := false, acksIn := 0, uncorr := 0 }

/-- RESTART: training starts again. -/
def effLaneRestart (l : Nat) (s : State) : State := s.laneTrain l 2

/-- LANE_GROUP_START: g ms after user enable the enabled lanes of group g leave DISABLED (Table 16.4). -/
def execLaneGroupStart (g : Fin 12) (s : State) : Out :=
  if s.fld Pg.cfg Fld.CFG_CFG_STAT_STATE ≠ 6 ∨ s.laneGroups.getLsbD g then .next s
  else
    let s := { s with laneGroups := s.laneGroups ||| ((1 : BitVec 12) <<< g.val) }
    .next ((List.range 16).foldl (fun s i =>
      let l := 16 * g.val + i
      if s.bit (Pg.lane l) Fld.LN_CTRL_ENABLE then effLaneEnable l s else s) s)

/-! ### Training (R287, R289 to R291, R331) -/

/-- A span lane reaches UP: the first one fixes the span rate, narrows the other lanes to it and restarts them; one at the span rate joins
(R331). -/
def State.spanLaneUp (s : State) (l : Nat) : State :=
  match s.laneSpan l with
  | none => s
  | some (sp, j) =>
    let pg := Pg.span sp
    let res := s.fld (Pg.lane l) Fld.LN_AN_RESULT
    let m := s.fld pg Fld.SPAN_SP_STAT_UP_MASK
    if (s.span sp).excluded.contains j ∨ res = 0 then s
    else if m = 0 then
      let s := (s.setFld pg Fld.SPAN_SP_STAT_RATE res).setFld pg Fld.SPAN_SP_STAT_UP_MASK (2 ^ j)
      let s := (List.range (s.spanWidth sp)).foldl (fun s i =>
        let k := s.spanLane sp i
        if i = j then s
        else
          let s := s.setFld (Pg.lane k) Fld.LN_AN_ABILITY (2 ^ (res - 1))
          let st := s.laneState k
          if st = 0 ∨ st = 1 ∨ st = 6 then s else s.laneTrain k 2) s
      s.spanToUp sp
    else if s.fld pg Fld.SPAN_SP_STAT_RATE = res then s.setFld pg Fld.SPAN_SP_STAT_UP_MASK (m ||| 2 ^ j)
    else s

/-- A training fails: counted in TRB2, TRAIN_FAIL, and it starts again; a lane that fails at its span's rate stays outside the span (R331). -/
def State.laneTrainFail (s : State) (l : Nat) : State :=
  let pg := Pg.lane l
  let st := s.laneState l
  let s := (s.trb pg 2).raise pg Evt.LN_TRAIN_FAIL
  let s := match s.laneSpan l with
    | none => s
    | some (sp, j) =>
      let x := s.span sp
      if s.spanUp sp && !x.excluded.contains j then
        ((s.setSpan sp { x with excluded := j :: x.excluded }).trb (Pg.span sp) 4)
      else s
  if st = 2 then s.laneTrain l 2 else s

/-- LANE_TRAINING_END: the lane is UP with its locks, or the training failed. With AN_EN the negotiated type (Table 12.4; bit 3: no FEC) must be
one the lane advertises; where the lane probes, the probe must have concluded. -/
def execLaneTrainingEnd (l : Fin 192) (ok : Bool) (an : BitVec 4) (s : State) : Out :=
  let pg := Pg.lane l
  let st := s.laneState l
  if !s.laneTrains l then .next s
  else if !ok then .next (s.laneTrainFail l)
  else
    let neg := decide (st = 2) && s.bit pg Fld.LN_CTRL_AN_EN
    let res := (an.toNat) % 8
    let chosen := if neg then anRate res (an.getLsbD 3) else none
    let common := chosen.isSome && (s.fld pg Fld.LN_AN_ABILITY).testBit (res - 1)
    if neg && !common then .next (s.laneTrainFail l)
    else if st = 2 ∧ s.laneProbes l ∧ s.fld pg Fld.LN_AN_RESULT = 0 then .next s
    else
      let s := match chosen with
        | some m => ((s.setLaneMode l m).setFld pg Fld.LN_AN_RESULT res).setFld pg Fld.LN_AN_DONE 1
        | none => s
      let s := s.setLaneState l 3
      let s := ((s.setFld pg Fld.LN_STAT_SIG_DET 1).setFld pg Fld.LN_STAT_CDR_LOCK 1).setFld pg Fld.LN_STAT_BLOCK_LOCK
        (if s.lanePcs l = 0 then 0 else 1)
      let s := s.setFld pg Fld.LN_STAT_FEC_LOCK (if s.fld pg Fld.LN_CTRL_FEC = 0 then 0 else 1)
      let s := ((s.setLane l { s.lane l with uncorr := 0 }).refSync l).raise pg Evt.LN_UP
      .next (if s.laneOwner l = 2 then s.spanLaneUp l else s)

/-- PROBE_ORDERED_SET: after three identical probes in succession the lane sends three acknowledging ones; with three received the
highest common rate is chosen and BURST_NS becomes the larger of the two (R291). -/
def execProbeOrderedSet (l : Fin 192) (mask : BitVec 10) (burst : BitVec 12) (ack : Bool) (s : State) : Out :=
  let pg := Pg.lane l
  if s.laneState l ≠ 2 ∨ !s.laneProbes l ∨ s.bit pg Fld.LN_AN_DONE then .next s
  else
    let x := s.lane l
    let x := if x.probe = some (mask, burst) then { x with probes := x.probes + 1 } else { x with probe := some (mask, burst), probes := 1, acksIn := 0 }
    let x := if ack then { x with acksIn := x.acksIn + 1 } else x
    let send := decide (3 ≤ x.probes) && !x.ackSent
    let x := { x with ackSent := x.ackSent || send }
    let s := s.setLane l x
    let s := if send then s.emit (.lane l .probeAck) else s
    if x.ackSent && decide (3 ≤ x.acksIn) then
      let common := mask.toNat &&& s.fld pg Fld.LN_AN_ABILITY
      match (List.range 10).reverse.find? fun i => common.testBit i with
      | none => .next s
      | some i =>
        let b := max burst.toNat (s.fld pg Fld.LN_IDLE_BURST_NS)
        let s := ((s.setLaneMode l (probeRate i)).setFld pg Fld.LN_AN_RESULT (i + 1)).setFld pg Fld.LN_AN_DONE 1
        .next ((s.setFld pg Fld.LN_IDLE_BURST_NS b).setFld pg Fld.LN_IDLE_GUARD_US (5 * b / 2))
    else .next s

/-- The probes that lanes which probe send, one every µs, with the rates enabled and BURST_NS (R291). -/
def State.probesOut (s : State) : State :=
  if (s.ns + 1) % 1000 ≠ 0 then s
  else (List.range 192).foldl (fun s l =>
    let pg := Pg.lane l
    if s.laneState l = 2 ∧ s.laneProbes l ∧ !s.bit pg Fld.LN_AN_DONE then
      s.emit (.lane l (.probe (BitVec.ofNat 10 (s.fld pg Fld.LN_AN_ABILITY)) (BitVec.ofNat 12 (s.fld pg Fld.LN_IDLE_BURST_NS))))
    else s) s

/-- PROBE_TIMEOUT: no probe for 100 ms: a failure is counted, TRAIN_FAIL raised, probing goes on (R291). -/
def execProbeTimeout (l : Fin 192) (s : State) : Out :=
  let pg := Pg.lane l
  if s.laneState l ≠ 2 ∨ !s.laneProbes l ∨ s.bit pg Fld.LN_AN_DONE then .next s
  else .next (s.laneTrainFail l)

/-- COEFFICIENT_REQUEST: during training a tap changes by one step; a step that would break R286, or for a tap that this FIR does not have, is not
applied and answered as at the limit (R287). -/
def execCoefficientRequest (l : Fin 192) (tap : Tap) (inc : Bool) (s : State) : Out :=
  let pg := Pg.lane l
  if !s.laneTrains l ∨ !s.bit pg Fld.LN_CTRL_TRAIN_EN then .next s
  else
    let pre := s.fld pg Fld.LN_TXFIR_PRE
    let main := s.fld pg Fld.LN_TXFIR_MAIN
    let post := s.fld pg Fld.LN_TXFIR_POST
    let f (x : Nat) : Option Nat := if inc then some (x + 1) else if x = 0 then none else some (x - 1)
    let next : Option (Nat × Nat × Nat) := match tap with
      | .pre => (f pre).map fun p => (p, main, post)
      | .main => (f main).map fun m => (pre, m, post)
      | .post => (f post).map fun p => (pre, main, p)
      | .other => none
    match next with
    | some (a, b, c) =>
      if tapsOk a b c then
        .next ((((s.setFld pg Fld.LN_TXFIR_PRE a).setFld pg Fld.LN_TXFIR_MAIN b).setFld pg Fld.LN_TXFIR_POST c).emit
          (.lane l (.coef false)))
      else .next (s.emit (.lane l (.coef true)))
    | none => .next (s.emit (.lane l (.coef true)))

/-! ### FEC, locks and loss of signal (R283, R292, R293, R312) -/

/-- FEC_CODEWORD: a corrected codeword counts in TRB4, an uncorrectable one in TRB5 and its data carries ERR (R283). -/
def execFecCodeword (l : Fin 192) (e : CodewordErr) (s : State) : Out :=
  let pg := Pg.lane l
  if s.fld pg Fld.LN_CTRL_FEC = 0 ∨ s.laneState l ≠ 3 then .next s
  else
    let x := s.lane l
    match e with
    | .clean => .next (s.setLane l { x with uncorr := 0 })
    | .corrected => .next ((s.setLane l { x with uncorr := 0 }).trb pg 4)
    | .uncorrectable => .next ((s.setLane l { x with uncorr := x.uncorr + 1, errMark := true }).trb pg 5)

/-- FEC_LOCK_LOSS: after 8 uncorrectable codewords in succession the lane retrains (R283). -/
def execFecLockLoss (l : Fin 192) (s : State) : Out :=
  let x := s.lane l
  if s.laneState l ≠ 3 ∨ x.uncorr < 8 then .next s
  else .next ((s.setLane l { x with uncorr := 0 }).laneRetrain l)

/-- CDR_LOCK_LOSS: the lock bit clears; the recovered reference of a timing lane is not valid then (R292). -/
def execCdrLockLoss (l : Fin 192) (s : State) : Out :=
  if s.laneState l < 2 then .next s else .next ((s.setFld (Pg.lane l) Fld.LN_STAT_CDR_LOCK 0).refSync l)

/-- BLOCK_LOCK_LOSS: block alignment is lost, or an invalid block or code is received; counted in TRB3 (R312). -/
def execBlockLockLoss (l : Fin 192) (invalidOnly : Bool) (s : State) : Out :=
  let pg := Pg.lane l
  if s.laneState l < 2 ∨ s.lanePcs l = 0 then .next s
  else .next ((if invalidOnly then s else s.setFld pg Fld.LN_STAT_BLOCK_LOCK 0).trb pg 3)

/-- LOSS_OF_SIGNAL: signal detect absent for 10 µs on a receiver that has not received the idle marker: counted in TRB0, LOS, alarm 7; the
lane is DOWN (R293). Only a lane that trains or carries traffic declares it (log 141). -/
def execLossOfSignal (l : Fin 192) (s : State) : Out :=
  let pg := Pg.lane l
  let st := s.laneState l
  if !(st = 2 ∨ st = 3 ∨ st = 4) ∨ s.bit pg Fld.LN_IDLE_RX_IDLE then .next s
  else
    let s := (s.setFld pg Fld.LN_STAT_SIG_DET 0).trb pg 0
    let s := (s.raise pg Evt.LN_LOS).laneOut l
    .next ((s.setLaneState l 5).alarm 7 pg (BitVec.ofNat 32 l.val))

/-- SIGNAL_RETURN: a DOWN lane starts full training (R293). -/
def execSignalReturn (l : Fin 192) (s : State) : Out :=
  if s.laneState l ≠ 5 then .next s else .next ((s.setFld (Pg.lane l) Fld.LN_STAT_SIG_DET 1).laneTrain l 2)

/-! ### Electrical idle (R294 to R297) -/

/-- IDLE_ENTRY: the owner's idle request: the marker is sent three times, then the transmitter idles; without effect in raw mode. -/
def execIdleEntry (l : Fin 192) (s : State) : Out :=
  let pg := Pg.lane l
  if s.laneState l ≠ 3 ∨ s.lanePcs l = 0 ∨ s.bit pg Fld.LN_IDLE_TX_IDLE ∨ (s.laneOwner l = 1 ∧ !s.dieUp (laneHome l)) then .next s
  else .next ((s.emit (.lane l .idleMarker)).setFld pg Fld.LN_IDLE_TX_IDLE 1)

/-- TRANSMIT_IDLE_EXIT: the owner withdraws its request: the training burst, then data (R296). -/
def execTransmitIdleExit (l : Fin 192) (s : State) : Out :=
  let pg := Pg.lane l
  if !s.bit pg Fld.LN_IDLE_TX_IDLE then .next s
  else .next ((s.emit (.lane l .burst)).setFld pg Fld.LN_IDLE_TX_IDLE 0)

/-- IDLE_MARKER: the receiver sets RX_IDLE; the loss-of-signal timer stops (R294). -/
def execIdleMarker (l : Fin 192) (s : State) : Out :=
  if s.laneState l ≠ 3 ∨ s.lanePcs l = 0 then .next s
  else .next ((s.setFld (Pg.lane l) Fld.LN_IDLE_RX_IDLE 1).setFld (Pg.lane l) Fld.LN_STAT_SIG_DET 0)

/-- IDLE_EXIT: the signal rises after an idle of so many µs: within IDLE_GUARD and with lock traffic resumes, else FAST_EXIT_MISS and RETRAIN
(Table 12.6). -/
def execIdleExit (l : Fin 192) (idleUs : BitVec 32) (locked : Bool) (s : State) : Out :=
  let pg := Pg.lane l
  if s.laneState l ≠ 3 ∨ !s.bit pg Fld.LN_IDLE_RX_IDLE then .next s
  else
    let s := s.setFld pg Fld.LN_STAT_SIG_DET 1
    if 5 * s.fld pg Fld.LN_IDLE_BURST_NS ≤ 2 * idleUs.toNat ∨ !locked then
      .next (((s.trb pg 1).raise pg Evt.LN_FAST_MISS).laneRetrain l)
    else .next (s.setFld pg Fld.LN_IDLE_RX_IDLE 0)

/-- TRAINING_FRAMES_RECEIVED: training frames while UP, or while an exit is in progress: RETRAIN (R297). -/
def execTrainingFramesReceived (l : Fin 192) (s : State) : Out :=
  if s.laneState l ≠ 3 then .next s else .next (s.laneRetrain l)

/-! ### Receive FIFO and PAUSE (R298 to R300) -/

/-- The bytes of a channel word that are valid. -/
def LaneWord.bytes (w : LaneWord) : Nat := if w.eof then 32 - w.empty.toNat else 32
/-- FIFO occupancy in bytes; FREE shows the rest of the 16 KiB in units of 64. -/
def Lane.occupied (x : Lane) : Nat := (x.fifo.map LaneWord.bytes).sum
def State.syncFifo (s : State) (l : Nat) : State :=
  s.setFld (Pg.lane l) Fld.LN_RXFIFO_FREE ((16384 - (s.lane l).occupied) / 64)

/-- FRAMING = ETH outside raw mode. -/
def State.laneEth (s : State) (l : Nat) : Bool := s.bit (Pg.lane l) Fld.LN_RXFIFO_FRAMING && s.lanePcs l != 0

/-- A PAUSE frame (R299). -/
def State.sendPause (s : State) (l quanta : Nat) : State :=
  let pg := Pg.lane l
  s.emit (.lane l (.pause (BitVec.ofNat 16 quanta)
    (BitVec.ofNat 48 (s.fld pg Fld.LN_PAUSE_SA_HI_SA * 2 ^ 32 + s.fld pg Fld.LN_PAUSE_SA_LO_SA))))

/-- PAUSE follows the FIFO's occupancy: sent at ON, released with quanta 0 below OFF (R299). -/
def State.pauseFollow (s : State) (l : Nat) : State :=
  let pg := Pg.lane l
  let x := s.lane l
  if s.laneEth l && s.bit pg Fld.LN_PAUSE_EN then
    if !x.paused && decide (64 * s.fld pg Fld.LN_PAUSE_ON ≤ x.occupied) then
      (s.setLane l { x with paused := true }).sendPause l (s.fld pg Fld.LN_PAUSE_SA_HI_QUANTA)
    else if x.paused && decide (x.occupied < 64 * s.fld pg Fld.LN_PAUSE_OFF) then (s.setLane l { x with paused := false }).sendPause l 0
    else s
  else if x.paused then s.setLane l { x with paused := false } else s

/-- The channel words of a frame: 32 bytes each; ERR on every word, or on the last only. -/
def frameWords (bytes : List Byte) (errAll errLast : Bool) : List LaneWord :=
  let n := (bytes.length + 31) / 32
  (List.range n).map fun i =>
    let part := (bytes.drop (32 * i)).take 32
    ⟨ofBytes 256 part, i == 0, i + 1 == n, BitVec.ofNat 5 (32 - part.length), errAll || (errLast && i + 1 == n)⟩

/-- Data of a raw stream: each MAX_FRAME bytes are one frame, admitted or dropped at its first word (R298). -/
def State.rawFeed (s : State) (l max : Nat) : (fuel : Nat) → State
  | 0 => s
  | n + 1 =>
    let x := s.lane l
    let w := min 32 (max - x.rawFill)
    if x.rawBuf.length < w ∨ w = 0 then s
    else
      let part := x.rawBuf.take w
      let taken := if x.rawFill = 0 then decide (x.occupied + max ≤ 16384) else x.rawAdmit
      let fill := x.rawFill + w
      let word : LaneWord := ⟨ofBytes 256 part, x.rawFill == 0, fill == max, BitVec.ofNat 5 (32 - w), x.errMark⟩
      let s := if x.rawFill = 0 ∧ !taken then s.trb (Pg.lane l) 6 else s
      (s.setLane l { x with rawBuf := x.rawBuf.drop w, rawFill := if fill = max then 0 else fill, rawAdmit := taken,
                            fifo := if taken then x.fifo ++ [word] else x.fifo }).rawFeed l max n

/-- FRAME_RECEIVED: in ETH framing one frame of the line, else the next bytes of the stream; admitted whole, cut at MAX_FRAME, or dropped and
counted in TRB6 (R298). -/
def execFrameReceived (l : Fin 192) (bytes : List (BitVec 8)) (s : State) : Out :=
  let pg := Pg.lane l
  let max := s.fld pg Fld.LN_RXFIFO_MAX_FRAME
  if s.laneOwner l ≠ 1 ∨ s.laneState l ≠ 3 ∨ bytes.isEmpty ∨ !s.dieUp (laneHome l) then .next s
  else
    let x := s.lane l
    let s := if s.laneEth l then
        if 16384 < x.occupied + max then s.trb pg 6
        else
          let cut := decide (max < bytes.length)
          let s := s.setLane l { x with fifo := x.fifo ++ frameWords (bytes.take max) x.errMark cut }
          if cut then s.trb pg 6 else s
      else (s.setLane l { x with rawBuf := x.rawBuf ++ bytes }).rawFeed l max (bytes.length + 2)
    let s := s.setLane l { s.lane l with errMark := false }
    .next ((s.syncFifo l).pauseFollow l)

/-- RECEIVE_CHANNEL_TRANSFER: the fabric takes the oldest word (R281, R299). -/
def execReceiveChannelTransfer (l : Fin 192) (s : State) : Out :=
  let x := s.lane l
  match x.fifo with
  | [] => .next s
  | w :: rest =>
    if s.laneState l ≠ 3 ∨ !s.dieUp (laneHome l) then .next s
    else
      let s := (s.setLane l { x with fifo := rest }).emit (.lane l (.word w))
      .next ((s.syncFifo l).pauseFollow l)

/-- PAUSE_REPEAT: every QUANTA × 256 bit times while the occupancy stays at or above OFF (R299). -/
def execPauseRepeat (l : Fin 192) (s : State) : Out :=
  let pg := Pg.lane l
  let x := s.lane l
  if s.laneEth l && s.bit pg Fld.LN_PAUSE_EN && x.paused && decide (64 * s.fld pg Fld.LN_PAUSE_OFF ≤ x.occupied) then
    .next (s.sendPause l (s.fld pg Fld.LN_PAUSE_SA_HI_QUANTA))
  else .next s

/-- TRANSMIT_UNDERRUN: a gap in an ETH frame ends it with an error code; in raw mode a PRBS31 word fills the slot; counted in TRB7 (R300). -/
def execTransmitUnderrun (l : Fin 192) (s : State) : Out :=
  if s.laneOwner l ≠ 1 ∨ s.laneState l ≠ 3 ∨ !s.dieUp (laneHome l) then .next s
  else .next ((s.emit (.lane l (if s.lanePcs l = 0 then .prbsWord else .errorCode))).trb (Pg.lane l) 7)

/-! ### Test features (R301 to R303) -/

/-- CHECKER_LOCK: 64 correct bits lock the checker, in TEST with CHK_EN = 1; the receiver has a signal and its CDR is locked then. -/
def execCheckerLock (l : Fin 192) (s : State) : Out :=
  let pg := Pg.lane l
  if s.laneState l = 6 ∧ s.bit pg Fld.LN_PAT_CHK_EN then
    .next ((((s.setFld pg Fld.LN_PAT_CHK_LOCK 1).setFld pg Fld.LN_STAT_SIG_DET 1).setFld pg Fld.LN_STAT_CDR_LOCK 1).refSync l)
  else .next s

/-- Bit errors the locked checker has counted since it was looked at last: their number is the line's, a free value (log 1). -/
def State.errSync (s : State) (l : Nat) : State :=
  if s.bit (Pg.lane l) Fld.LN_PAT_CHK_LOCK then
    let n := s.freeLine.toNat % 2 ^ 48
    let s := s.useFree
    let x := s.lane l
    s.setLane l { x with errs := min (2 ^ 48 - 1) (x.errs + n) }
  else s

/-- CHECKER_LOCK_LOSS: 1,024 errors in 2,048 bits: CHK_LOCK drops, CHK_LOSS; the counter, which holds these errors, keeps its value. -/
def execCheckerLockLoss (l : Fin 192) (s : State) : Out :=
  let pg := Pg.lane l
  if !s.bit pg Fld.LN_PAT_CHK_LOCK then .next s
  else
    let s := s.errSync l
    let x := s.lane l
    let s := s.setLane l { x with errs := min (2 ^ 48 - 1) (x.errs + 1024) }
    .next ((s.setFld pg Fld.LN_PAT_CHK_LOCK 0).raise pg Evt.LN_CHK_LOSS)

/-- FIRE: one bit, or BURST_LEN bits; at once where the lane transmits in TEST or UP, else it stays pending (R303). -/
def effFire (l : Nat) (s : State) : State :=
  let pg := Pg.lane l
  let mode := s.fld pg Fld.LN_INJ_MODE
  if mode = 1 ∨ mode = 2 then
    if s.laneState l = 6 ∨ s.laneState l = 3 then
      s.emit (.lane l (.inject (if mode = 1 then 1 else s.fld pg Fld.LN_INJ_BURST_LEN)))
    else s.setLane l { s.lane l with inject := true }
  else s

/-- A lane reset by soft reset of its page (R311): FIFOs empty, injection and checker stop, the lane starts again as ENABLE and OWNER say; no
register field returns to reset. -/
def effLaneReset (l : Nat) (s : State) : State :=
  let pg := Pg.lane l
  let s := (s.setLane l { s.lane l with fifo := [], rawBuf := [], rawFill := 0, inject := false, rateStop := s.fld pg Fld.LN_INJ_MODE == 3, errMark := false }).setFld pg Fld.LN_PAT_CHK_LOCK 0
  let s := (s.syncFifo l).pauseFollow l
  let st := s.laneState l
  if st = 0 ∨ st = 1 then s
  else
    let s := (s.laneOut l).setLaneState l 1
    if s.bit pg Fld.LN_CTRL_ENABLE then effLaneEnable l s else s

end Sys2Proof.Machine
end

