-- ==== Sys2Proof/Machine/TqQueue.lean ====
section
/-!
DEFINITION. Link queues (R220, R226, R337 to R343): sending with credits, receiving in order, remote access at the target, blocks.
-/
namespace Sys2Proof.Machine

/-! ### Queues -/

def State.queue (s : State) (q : Nat) : LinkQueue := mgetD {} s.tq.queues q
def State.setQueue (s : State) (q : Nat) (x : LinkQueue) : State := { s with tq.queues := mputD {} s.tq.queues q x }

def LinkQueue.en (x : LinkQueue) : Bool := x.cfg.getLsbD 31
def LinkQueue.broken (x : LinkQueue) : Bool := x.cfg.getLsbD 30
def LinkQueue.key (x : LinkQueue) : Nat := fieldOf x.cfg 20 10
def LinkQueue.memKid (x : LinkQueue) : Nat := fieldOf x.cfg 10 10
def LinkQueue.tenant (x : LinkQueue) : Nat := fieldOf x.cfg 0 9
def LinkQueue.node (x : LinkQueue) : Nat := fieldOf x.peer 0 14
def LinkQueue.rqueue (x : LinkQueue) : Nat := fieldOf x.peer 16 12
/-- TX_SEQ and RX_SEQ: the low 24 bits of the extended sequences. -/
def LinkQueue.txSeq (x : LinkQueue) : Nat := fieldOf x.tx 0 24
def LinkQueue.rxSeq (x : LinkQueue) : Nat := fieldOf x.rx 0 24

/-- NET_STATE is RUNNING. -/
def State.netRunning (s : State) : Bool := s.fld Pg.tq Fld.TQ_NODE_NET_STATE == 3

/-- The data unit sequence number of a Tequel payload (R220). -/
def tqDusn (node queue : Nat) (ext : BitVec 64) : Nat := 2 ^ 127 + node * 2 ^ 76 + queue * 2 ^ 64 + ext.toNat

/-- The outbound entries in use (R338). -/
def State.outCount (s : State) : Nat := (s.tq.queues.map fun e => e.2.wait.length + (e.2.out.filter fun o => o.txn.isSome).length).sum

/-! ### Sending (R338, R339) -/

/-- Sends one RQ or RS frame of a queue: it takes the next TX_SEQ and is encrypted under the queue's key index, with the key pair that its
check found in the slot. -/
def State.queueFrame (s : State) (q typ len : Nat) (pair : BitVec 512) (payload : Line) : State :=
  let x := s.queue q
  let p := unitEnc x.key pair (tqDusn s.nodeId x.rqueue x.tx) payload
  let f := mkFrame x.node s.nodeId x.rqueue x.key x.txSeq typ len p
  (s.setQueue q { x with tx := x.tx + 1 }).routeFrame f

/-- An RS frame: the sending engine checks the slot first (R227). -/
def State.responseFrame (s : State) (q typ len : Nat) (payload : Line) : State :=
  let x := s.queue q
  match s.slotCheck false x.key x.tenant with
  | some reason => s.violation 1 x.key x.tenant 57 reason
  | none => s.queueFrame q typ len (s.slotPair x.key) payload

/-- The answer to a request that was refused at receipt: the status stands in LEN and there is no data to encrypt, so it needs no slot and is not
checked again (R227, R340; log 140). -/
def State.bareFrame (s : State) (q typ code : Nat) : State :=
  let x := s.queue q
  (s.setQueue q { x with tx := x.tx + 1 }).routeFrame (mkFrame x.node s.nodeId x.rqueue x.key x.txSeq typ code 0)

/-- The credits a request takes: one for each RQ frame. -/
def OutReq.cost (o : OutReq) : Nat := if o.typ = .rd then 1 else 2

/-- The size code of a request in bytes; the payload of its RDQ, WRA or PWA. -/
def OutReq.size (o : OutReq) : Nat := lenBytes o.len.toNat
def OutReq.header (o : OutReq) : Line :=
  payOf [(0, 5, o.addr.toNat % 2 ^ 33), (8, 8, if o.typ = .rd ∨ o.size < 64 then 0 else if o.len = 7 then o.be.toNat else 2 ^ 64 - 1)]

/-- Sends a queue's waiting requests, the oldest first, while credits last; a posted one is acknowledged once sent (R338). A request has met
the slot check before it waited, and completes under the slot as it then stood (R229); one whose queue has been written since is checked again. -/
def State.queueDrain (s : State) (q : Nat) : (fuel : Nat) → State
  | 0 => s
  | n + 1 =>
    let x := s.queue q
    match x.wait with
    | [] => s
    | o :: rest =>
      if !x.en ∨ x.broken ∨ x.txAvail < o.cost then s
      else
        let s := s.setQueue q { x with wait := rest }
        match if o.pair.isSome then none else s.slotCheck false x.key x.tenant with
        | some reason =>
          let s := s.violation 1 x.key x.tenant 57 reason
          (match o.txn with | some t => s.answer t .busError 0 | none => s).queueDrain q n
        | none =>
          let pair := o.pair.getD (s.slotPair x.key)
          let s := s.setQueue q { s.queue q with txAvail := x.txAvail - o.cost, out := if o.posted then x.out else x.out ++ [o] }
          let s := s.queueFrame q (if o.typ = .rd then 1 else if o.posted then 3 else 2) o.size pair o.header
          let s := if o.typ = .rd then s else s.queueFrame q 4 o.size pair o.data
          let s := match o.posted, o.txn with
            | true, some t => s.answer t .ok 0
            | _, _ => s
          s.queueDrain q n

/-- The enabled queue of a tenant towards a node. -/
def State.queueFor (s : State) (tid node : Nat) : Option Nat :=
  (s.tq.queues.find? fun e => e.2.en && e.2.tenant == tid && e.2.node == node).map Prod.fst

/-- REMOTE_REQUEST: a delivered ring request with bit 47 set is matched to a queue, checked, and waits for the queue's credits (R338). -/
def execRemoteRequest (t : TxnKey) (s : State) : Out :=
  match s.txn t with
  | none => .next s
  | some x =>
    let known := s.tq.queues.any fun e => (e.2.wait ++ e.2.out).any fun o => o.txn == some t
    if x.dst ≠ 57 ∨ x.phase ≠ .delivered ∨ known ∨ 2048 ≤ s.outCount then .next s
    else
      let node := x.addr.toNat / 2 ^ 33 % 2 ^ 14
      let refuse : Out := .next ((s.answer t .busError 0).trb Pg.tq 0)
      match s.queueFor x.tid.toNat node with
      | none => refuse
      | some q =>
        let y := s.queue q
        if !s.netRunning ∨ (mgetD 0x1E s.tq.routes node) = 0x1E ∨ y.broken then refuse
        else match s.slotCheck false y.key y.tenant with
          | some reason => .next ((s.violation 1 y.key y.tenant 57 reason).answer t .busError 0)
          | none =>
            let o : OutReq := ⟨some t, some (s.slotPair y.key), x.typ == .wrp, x.typ, x.addr, x.len, x.data, x.be⟩
            let s := s.setQueue q { y with wait := y.wait ++ [o] }
            .next (s.queueDrain q (y.wait.length + 1))

/-- REMOTE_TIMEOUT: a request without response in RMT_TIMEOUT receives BUS_ERROR; counted in TRB4 (R343). -/
def execRemoteTimeout (t : TxnKey) (s : State) : Out :=
  match s.tq.queues.find? fun e => (e.2.wait ++ e.2.out).any fun o => o.txn == some t with
  | none => .next s
  | some (q, x) =>
    let x := { x with wait := x.wait.filter fun o => o.txn != some t,
                      out := x.out.map fun o => if o.txn == some t then { o with txn := none } else o }
    .next (((s.setQueue q x).answer t .busError 0).trb Pg.tq 4)

/-! ### Credits (R339) -/

/-- Tells the peer of entries freed on a queue, in a CREDIT frame of one entry, while the network runs. -/
def State.creditTell (s : State) (q : Nat) : State :=
  let x := s.queue q
  if !x.en ∨ x.freed = x.told ∨ !s.netRunning then s
  else
    let s := s.setQueue q { x with told := x.freed }
    s.routeFrame (mkFrame x.node s.nodeId 0 0 0 0xB 1 (payOf [(0, 4, x.rqueue * 2 ^ 16 + x.freed.toNat)]))

/-- Every queue tells what it has not told. -/
def State.creditAll (s : State) : State := (s.tq.queues.map Prod.fst).foldl (fun s q => s.creditTell q) s

/-- One entry of a CREDIT frame. -/
def State.creditEntry (s : State) (src : Nat) (e : BitVec 32) : State :=
  let q := fieldOf e 16 12
  let x := s.queue q
  if !x.en ∨ x.node ≠ src then s.trb Pg.tq 2
  else
    let c : BitVec 16 := e.setWidth 16
    let d := (c - x.applied).toNat
    if 1 ≤ d ∧ d ≤ 32767 then (s.setQueue q { x with applied := c, txAvail := x.txAvail + d }).queueDrain q (x.wait.length)
    else s

/-- CREDIT: a received CREDIT frame's running counts give credits (R339). -/
def execCredit (src : BitVec 14) (entries : List (BitVec 32)) (s : State) : Out :=
  match s.tq.inbox.find? fun m => m.2 == .credit src entries with
  | none => .next s
  | some m =>
    let s := { s with tq.inbox := s.tq.inbox.erase m }
    .next (entries.foldl (fun s e => s.creditEntry src.toNat e) s)

/-- Responses go back in the order of the requests: the finished ones at the head of the queue's accesses are answered. -/
def State.innFlush (s : State) (q : Nat) : (fuel : Nat) → State
  | 0 => s
  | n + 1 =>
    let x := s.queue q
    match x.inn with
    | [] => s
    | i :: rest =>
      match i.result with
      | none => s
      | some (st, d) =>
        let s := s.setQueue q { x with inn := rest }
        let code := match st with | .ok => 0 | .busError => 1 | .domainOff => 2 | .poison => 3
        (if i.bare then s.bareFrame q (if i.read then 8 else 9) code
         else if i.read then s.responseFrame q 8 code d
         else if !i.posted then s.responseFrame q 9 code 0
         else if st = .ok then s
         else s.responseFrame q 0xA code (payOf [(0, 5, i.offset)])).innFlush q n

/-- The BUS_ERROR with which a frame refused at receipt is answered, where it carries a request that is answered and comes from the queue's node:
after the responses to the requests taken before it (R227, R340). -/
def State.refuseFrame (s : State) (q : Nat) (f : Frame) : State :=
  let x := s.queue q
  if f.src = x.node ∧ (f.typ = 1 ∨ f.typ = 2) then
    (s.setQueue q { x with inn := x.inn ++ [⟨x.tag, 0, decide (f.typ = 1), false, some (.busError, 0), true⟩] }).innFlush q (x.inn.length + 1)
  else s

/-! ### Receiving (R340, R341) -/

/-- The sequence distance from RX_SEQ. -/
def LinkQueue.ahead (x : LinkQueue) (f : Frame) : Nat := (f.seq + 2 ^ 24 - x.rxSeq) % 2 ^ 24

/-- The frames held out of order (Q_CRED.HELD): those beyond the run that starts at RX_SEQ. -/
def LinkQueue.heldCount (x : LinkQueue) : Nat :=
  let run := ((List.range x.held.length).find? fun i => !x.held.any fun f => x.ahead f.1 == i).getD x.held.length
  x.held.length - run

/-- A frame of class RQ or RS other than CREDIT reaches its node (R340, R341). -/
def State.queueReceive (s : State) (f : Frame) : State :=
  let q := f.queue
  let x := s.queue q
  if !x.en ∨ f.src ≠ x.node ∨ f.key ≠ x.key then (s.trb Pg.tq 2).refuseFrame q f
  else if x.broken then s.trb Pg.tq 2
  else match s.slotCheck false x.key x.tenant with
    | some reason => (s.violation 2 x.key x.tenant 57 reason).refuseFrame q f
    | none =>
      if 2 ^ 23 < x.ahead f ∨ (x.held.any fun g => g.1.seq == f.seq) then s.trb Pg.tq 2
      else s.setQueue q { x with held := x.held ++ [(f, s.slotPair x.key)] }

/-- The next frame in sequence of a queue, if it is of a type: taken off and decrypted with the keys its check at receipt found (R229), its
sequence passed; an RQ frame's entry is free again. -/
def State.queueNext (s : State) (q typ : Nat) : Option (Frame × State) :=
  let x := s.queue q
  if !x.en ∨ x.broken then none
  else match x.held.find? fun f => x.ahead f.1 == 0 && f.1.typ == typ with
    | none => none
    | some (f, pair) =>
      let p := unitDec x.key pair (tqDusn f.src q x.rx) f.payload
      let x' := { x with held := x.held.erase (f, pair), rx := x.rx + 1, freed := if typ < 8 then x.freed + 1 else x.freed }
      some (⟨f.hdr, p⟩, (s.setQueue q x').creditTell q)

/-- A queue becomes BROKEN: its outstanding requests receive BUS_ERROR (R341). -/
def State.queueBreak (s : State) (q : Nat) : State :=
  let x := s.queue q
  let s := (x.wait ++ x.out).foldl (fun s o => match o.txn with | some t => s.answer t .busError 0 | none => s) s
  let s := s.setQueue q { x with cfg := x.cfg ||| 0x40000000, wait := [], out := [], held := [], header := none }
  (s.trb Pg.tq 3).raise Pg.tq Evt.TQ_QBROKEN

/-- QUEUE_GAP_TIMEOUT: the gap before a held frame stays open for GAP_TIMEOUT: the queue becomes BROKEN (R341). -/
def execQueueGapTimeout (q : Fin 4096) (s : State) : Out :=
  let x := s.queue q
  if !x.en ∨ x.broken ∨ x.held.isEmpty ∨ (x.held.any fun f => x.ahead f.1 == 0) then .next s else .next (s.queueBreak q)

/-! ### Remote access at the target (R342) -/

/-- The export window that admits an access: enabled, its range holds the offset, the tenant admitted; the local address, or none where no
window admits it or it crosses the window's end. -/
def State.exportAddr (s : State) (tid off size : Nat) : Option Nat :=
  let pg := Pg.tqExp
  match (List.range 32).find? fun w =>
      let base := s.fld pg (Fld.EXP_OFF_OFF w) * 4096
      s.bit pg (Fld.EXP_OFF_EN w) && decide (base ≤ off) && decide (off < base + 2 ^ s.fld pg (Fld.EXP_OFF_SIZE w))
        && (tid &&& s.fld pg (Fld.EXP_TEN_MASK w) == s.fld pg (Fld.EXP_TEN_TID w) &&& s.fld pg (Fld.EXP_TEN_MASK w)) with
  | none => none
  | some w =>
    let base := s.fld pg (Fld.EXP_OFF_OFF w) * 4096
    if base + 2 ^ s.fld pg (Fld.EXP_OFF_SIZE w) < off + size then none
    else some (s.fld pg (Fld.EXP_LOCH_ADDR w) * 2 ^ 32 + s.fld pg (Fld.EXP_LOCL_ADDR w) * 4096 + (off - base))

/-- The length code of a size in bytes. -/
def sizeLen (n : Nat) : BitVec 3 := match n with | 1 => 1 | 2 => 2 | 4 => 3 | 8 => 4 | 16 => 5 | 32 => 6 | _ => 0

/-- Serves a remote access: through its window as a ring request of STOP57 under the queue's tenant and MEM_KID, or BUS_ERROR. -/
def State.serveRemote (s : State) (q : Nat) (typ : ReqType) (off size : Nat) (data : Line) (be : BitVec 64) : State :=
  let x := s.queue q
  let i : InReq := ⟨x.tag, off, decide (typ = .rd), decide (typ = .wrp), none, false⟩
  match s.exportAddr x.tenant off size with
  | none => (s.setQueue q { x with inn := x.inn ++ [{ i with result := some (.busError, 0) }] }).innFlush q (x.inn.length + 1)
  | some a =>
    let masked := decide (typ ≠ .rd) && size == 64 && be != BitVec.allOnes 64
    let r : EpReq := ⟨BitVec.ofNat 64 (x.memKid * 2 ^ 48 + a), if masked then 7 else sizeLen size, x.tag, data, be, BitVec.ofNat 12 q⟩
    let e : EpEntry := ⟨typ, r, BitVec.ofNat 9 x.tenant, false⟩
    (s.setQueue q { x with inn := x.inn ++ [i], tag := x.tag + 1 }).handIn 57 0 e

/-- The ring's answer to an access of a queue. -/
def State.tqResponse (s : State) (q : Nat) (tag : Byte) (st : Status) (data : Line) : State :=
  let x := s.queue q
  let x := { x with inn := x.inn.map fun i => if i.tag == tag && i.result.isNone then { i with result := some (st, data) } else i }
  (s.setQueue q x).innFlush q x.inn.length

/-- RDQ: the next frame of the queue is a remote read: it is served through an export window. -/
def execRdq (q : Fin 4096) (s : State) : Out :=
  match s.queueNext q 1 with
  | none => .next s
  | some (f, s) => .next (s.serveRemote q .rd (payNum f.payload 0 5 % 2 ^ 33) f.len 0 0)

/-- WRA: the next frame of the queue announces a remote write; its WD follows. -/
def execWra (q : Fin 4096) (s : State) : Out :=
  match s.queueNext q 2 with
  | none => .next s
  | some (f, s) => .next (s.setQueue q { s.queue q with header := some f })
/-- PWA: the same for a posted write. -/
def execPwa (q : Fin 4096) (s : State) : Out :=
  match s.queueNext q 3 with
  | none => .next s
  | some (f, s) => .next (s.setQueue q { s.queue q with header := some f })

/-- WD: the data of the write announced: the access is issued. A WD that follows no announcement is discarded and counted in TRB2. -/
def execWd (q : Fin 4096) (s : State) : Out :=
  match s.queueNext q 4 with
  | none => .next s
  | some (f, s) =>
    match (s.queue q).header with
    | none => .next (s.trb Pg.tq 2)
    | some h =>
      let s := s.setQueue q { s.queue q with header := none }
      .next (s.serveRemote q (if h.typ = 3 then .wrp else .wr) (payNum h.payload 0 5 % 2 ^ 33) h.len f.payload
        (if h.len = 64 then BitVec.ofNat 64 (payNum h.payload 8 8) else 0))

/-! ### Responses at the source (R343) -/

/-- A response answers the queue's oldest outstanding request; one whose request has timed out is discarded and counted in TRB5. -/
def State.sourceResponse (s : State) (q : Nat) (f : Frame) (data : Line) : State :=
  let x := s.queue q
  match x.out with
  | [] => s.trb Pg.tq 5
  | o :: rest =>
    let s := s.setQueue q { x with out := rest }
    let st : Status := match f.len with | 0 => .ok | 2 => .domainOff | 3 => .poison | _ => .busError
    match o.txn with
    | none => s.trb Pg.tq 5
    | some t => s.answer t st (if st = .ok ∨ st = .poison then data else 0)

/-- RDATA: the data of a remote read. -/
def execRdataFrame (q : Fin 4096) (s : State) : Out :=
  match s.queueNext q 8 with
  | none => .next s
  | some (f, s) => .next (s.sourceResponse q f f.payload)
/-- WACK: the end of a remote write. -/
def execWackFrame (q : Fin 4096) (s : State) : Out :=
  match s.queueNext q 9 with
  | none => .next s
  | some (f, s) => .next (s.sourceResponse q f 0)

/-- PERR: the failure of a posted write is recorded, or counted as lost in TRB7 where 16 records are held (R343). -/
def execPerr (q : Fin 4096) (s : State) : Out :=
  match s.queueNext q 0xA with
  | none => .next s
  | some (f, s) =>
    let st : Status := match f.len with | 0 => .ok | 2 => .domainOff | 3 => .poison | _ => .busError
    let s := if s.tq.perr.length < 16 then { s with tq.perr := s.tq.perr ++ [⟨payNum f.payload 0 5 % 2 ^ 33, st, q.val⟩] }
      else s.trb Pg.tq 7
    .next (s.raise Pg.tq Evt.TQ_PERR)

/-- A write of 1 to PERR_HI.VALID removes the shown record. -/
def effPerrPop (s : State) : State := { s with tq.perr := s.tq.perr.drop 1 }

/-! ### Configuration of a queue (R337) -/

/-- Enabling queue q with a configuration is accepted. -/
def State.queueEnableOk (s : State) (q : Nat) (cfg : Word) : Bool :=
  let x := { s.queue q with cfg := cfg }
  let others := s.tq.queues.filter fun e => e.1 != q && e.2.en
  !(others.any fun e => e.2.tenant == x.tenant && e.2.node == x.node) && x.node != s.nodeId
    && decide ((others.map fun e => e.2.rxCredits.toNat).sum + x.rxCredits.toNat ≤ 16384)

/-- An accepted write of Q_CFG: the key index is written, so the wrap counts return to 0 (R220); enabling zeroes the sequences and the
counts, and frees the queue's receive entries (log 61); disabling clears BROKEN. -/
def effQueueCfg (q : Nat) (v : Word) (s : State) : State :=
  let x := s.queue q
  let cfg := v &&& 0xBFFFFDFF
  let x := { x with cfg := cfg, tx := x.tx &&& 0xFFFFFF, rx := x.rx &&& 0xFFFFFF, held := [], header := none,
                    wait := x.wait.map fun o => { o with pair := none } }
  let x := if v.getLsbD 31 then { x with tx := 0, rx := 0, txAvail := 0, freed := x.rxCredits.setWidth 16, told := 0, applied := 0 } else x
  (s.setQueue q x).creditTell q

/-! ### Blocks (R332 to R336) -/

/-- A beacon, report and so on as frames carry them (Table 14.3). -/
def Frame.message (f : Frame) : Option CtMsg :=
  let n (i k : Nat) : Nat := payNum f.payload i k
  match f.typ with
  | 0xB => some (.credit (BitVec.ofNat 14 f.src) ((List.range f.len).map fun e => BitVec.ofNat 32 (n (4 * e) 4)))
  | 0x20 => some (.hello ⟨BitVec.ofNat 64 (n 0 8), BitVec.ofNat 8 (n 8 1), BitVec.ofNat 64 (n 16 8), BitVec.ofNat 8 (n 24 1), BitVec.ofNat 14 f.src, false⟩)
  | 0x21 => some (.claim ⟨BitVec.ofNat 8 (n 8 1), BitVec.ofNat 64 (n 0 8)⟩ (BitVec.ofNat 8 (n 9 1)))
  | 0x22 | 0x26 =>
    let r : Report := ⟨BitVec.ofNat 64 (n 0 8), BitVec.ofNat 64 (n 8 8), BitVec.ofNat 8 (n 16 1), BitVec.ofNat 8 (n 17 1), BitVec.ofNat 14 (n 18 2), (n 18 2).testBit 15⟩
    some (if f.typ = 0x22 then .report r else .join r)
  | 0x23 => some (.assign (BitVec.ofNat 64 (n 0 8)) (BitVec.ofNat 14 (n 8 2)))
  | 0x24 => some (.topo (BitVec.ofNat 24 f.seq) ((List.range f.len).map fun e =>
      (BitVec.ofNat 14 (n (4 * e) 4 / 2 ^ 14), BitVec.ofNat 14 (n (4 * e) 4))))
  | 0x25 => some (.beacon ⟨BitVec.ofNat 8 (n 8 1), BitVec.ofNat 64 (n 0 8), BitVec.ofNat 14 (n 10 2), BitVec.ofNat 24 (n 12 3), BitVec.ofNat 32 (n 16 4)⟩)
  | 0x27 => some (.linkdown (BitVec.ofNat 14 (n 0 2)) (BitVec.ofNat 14 (n 2 2)) (BitVec.ofNat 8 (n 4 1)))
  | _ => none

/-- A HELLO frame carries no bit that says whether its sender holds an ID: that is a free value (log 1). -/
def State.messageOf (s : State) (f : Frame) : Option CtMsg × State :=
  match f.message with
  | some (.hello h) => (some (.hello { h with idValid := s.freeLine.getLsbD 0 }), s.useFree)
  | m => (m, s)

/-- A frame arrives over a span (R335, R336, R344): the CRC is checked at its destination; a frame of class CT concerns every node it passes, except
the routed LINKDOWN. -/
def State.frameIn (s : State) (sp : Nat) (f : Frame) : State :=
  if !f.wellFormed then s.trb Pg.tq 2
  else
    let mine := s.nodeValid && f.dst == s.nodeId
    let hopByHop := decide (0x20 ≤ f.typ) && f.typ != 0x27
    if !mine ∧ !hopByHop then s.forwardFrame f
    else if f.crc ≠ f.goodCrc then s.trb Pg.tq 1
    else if f.typ < 0x20 ∧ f.typ ≠ 0xB then s.queueReceive f
    else if s.bit Pg.tq Fld.TQ_ELECT_MANUAL ∧ 0x20 < f.typ then s
    else
      let (m, s) := s.messageOf f
      match m with
      | none => s
      | some m => { s with tq.inbox := s.tq.inbox ++ [(sp, m)] }

/-- Takes the data blocks in sequence that have come ahead. -/
def State.spanTake (s : State) (sp : Nat) : (fuel : Nat) → State
  | 0 => s
  | n + 1 =>
    let x := s.span sp
    match x.ahead.find? fun e => e.1 == x.rxSeq with
    | none => s
    | some (seq, f) =>
      let x := { x.countFreed f.typ with rxSeq := x.rxSeq + 1, ahead := x.ahead.erase (seq, f), nak := false }
      ((s.setSpan sp x).frameIn sp f).spanTake sp n

/-- BLOCK: a block is received on an UP span: one that fails CHECK is discarded, counted in TRB0 and NAKed; ACK, NAK and CREDIT of a good one
apply; its data block is ordered by SEQ within a window of 64, a duplicate discarded (R333). -/
def execTqBlock (sp : Fin 24) (b : BitVec 768) (s : State) : Out :=
  if !s.spanUp sp then .next s
  else
    let bytes := toBytes 96 b
    let num (i n : Nat) : Nat := ((bytes.drop i).take n).foldl (fun acc x => 256 * acc + x.toNat) 0
    let trailer := num 80 16
    let field (lo n : Nat) : Nat := trailer / 2 ^ lo % 2 ^ n
    if crcOf 2 (bytes.take 92) ≠ field 0 32 then
      .next (((s.setSpan sp { s.span sp with nak := true }).trb (Pg.span sp) 0).spanFlush sp)
    else
      let x := s.span sp
      let ack := BitVec.ofNat 8 (field 110 8)
      let newer (old : Byte) (n : Nat) : Byte := let n := BitVec.ofNat 8 n; if (n - old).toNat < 128 then n else old
      let x := { x with replay := if x.replay.any fun e => e.1 == ack then (x.replay.dropWhile fun e => e.1 != ack).drop 1 else x.replay,
                        credCT := newer x.credCT (field 102 8), credRS := newer x.credRS (field 94 8), credRQ := newer x.credRQ (field 86 8) }
      let s := s.setSpan sp x
      -- NAK: replay from ACK + 1
      let s := if field 126 1 = 1 ∧ !x.replay.isEmpty then
          (x.replay.foldl (fun s e => s.emit (.block sp (mkBlock x (some e.2) e.1))) s).trb (Pg.span sp) 1
        else s
      let seq := BitVec.ofNat 8 (field 118 8)
      let d := (seq - x.rxSeq).toNat
      let s := if field 127 1 = 1 ∧ d < 64 ∧ !(x.ahead.any fun e => e.1 == seq) then
          let f : Frame := ⟨BitVec.ofNat 128 (num 0 16), ofBytes 512 ((bytes.drop 16).take 64)⟩
          (s.setSpan sp { s.span sp with ahead := x.ahead ++ [(seq, f)] }).spanTake sp 65
        else s
      .next (s.spanFlush sp)

/-- BLOCK_GAP_TIMEOUT: a gap in SEQ open for 1 µs: what came after it is discarded and a replay requested (R333). -/
def execBlockGapTimeout (sp : Fin 24) (s : State) : Out :=
  let x := s.span sp
  if x.ahead.isEmpty then .next s else .next ((s.setSpan sp { x with ahead := [], nak := true }).spanFlush sp)

end Sys2Proof.Machine
end

