-- ==== Sys2Proof/Machine/TqNet.lean ====
section
/-!
DEFINITION. The Tequel network (R331, R344 to R349): HELLO, election, IDs, topology, routing tables, manual operation, and what the writes of
the TQ pages set off. A message command acts on a message that has reached this node (`Tequel.inbox`).
-/
namespace Sys2Proof.Machine

/-! ### Messages -/

/-- Takes a received message off, if it is there. -/
def State.takeMsg (s : State) (m : Nat × CtMsg) : Option State :=
  if s.tq.inbox.contains m then some { s with tq.inbox := s.tq.inbox.erase m } else none

def State.setNet (s : State) (n : Net) : State := { s with tq.net := n }
def State.setNetState (s : State) (n : Nat) : State := s.setFld Pg.tq Fld.TQ_NODE_NET_STATE n
def State.netState (s : State) : Nat := s.fld Pg.tq Fld.TQ_NODE_NET_STATE
def State.manual (s : State) : Bool := s.bit Pg.tq Fld.TQ_ELECT_MANUAL
def State.lamplighter (s : State) : Bool := s.bit Pg.tq Fld.TQ_ELECT_LAMPLIGHTER

/-- One claim is better than another: a higher priority, or the same and a lower serial (R346). -/
def betterClaim (a b : Byte × BitVec 64) : Bool := decide (b.1 < a.1) || (a.1 == b.1 && decide (a.2 < b.2))
def betterOf (a : Byte × BitVec 64) (b : Option (Byte × BitVec 64)) : Bool := match b with | none => true | some b => betterClaim a b

/-- This node's claim. -/
def State.ownClaim (s : State) : Byte × BitVec 64 := (BitVec.ofNat 8 (s.fld Pg.tq Fld.TQ_ELECT_PRIORITY), s.serial)

/-- Sends a CT frame on every UP span but one. -/
def State.floodCt (s : State) (skip : Option Nat) (typ len seq : Nat) (p : Line) : State :=
  (s.upSpans.filter fun sp => some sp != skip).foldl (fun s sp => s.sendCt sp typ len seq p) s

def State.sendClaim (s : State) (skip : Option Nat) (c : Byte × BitVec 64) (round : Byte) : State :=
  s.floodCt skip 0x21 0 0 (payOf [(0, 8, c.2.toNat), (8, 1, c.1.toNat), (9, 1, round.toNat)])

def State.sendBeacon (s : State) (skip : Option Nat) (b : Beacon) : State :=
  s.floodCt skip 0x25 0 0 (payOf [(0, 8, b.serial.toNat), (8, 1, b.priority.toNat), (10, 2, b.node.toNat), (12, 3, b.epoch.toNat), (16, 4, b.count.toNat)])

/-- The lamplighter's BEACON: its claim, its ID, the epoch and its edge count. -/
def State.ownBeacon (s : State) : State :=
  let c := s.ownClaim
  s.sendBeacon none ⟨c.1, c.2, BitVec.ofNat 14 s.nodeId, s.tq.net.epoch, s.tq.net.count.getD 0⟩

/-- A report of one of this node's spans (Table 14.3). -/
def State.spanReport (s : State) (sp : Nat) : Report :=
  ⟨s.serial, mgetD 0 s.tq.net.nbrSerial sp, BitVec.ofNat 8 sp, BitVec.ofNat 8 (s.fld (Pg.span sp) Fld.SPAN_SP_NBR_SPAN), BitVec.ofNat 14 s.nodeId, s.nodeValid⟩

def reportPayload (r : Report) : Line :=
  payOf [(0, 8, r.serial.toNat), (8, 8, r.nbr.toNat), (16, 1, r.span.toNat), (17, 1, r.nbrSpan.toNat), (18, 2, r.id.toNat + r.idValid.toNat * 2 ^ 15)]

/-- A report goes up the tree; the lamplighter records it: a change of what it holds waits for a new epoch (R347, R348). -/
def State.reportUp (s : State) (r : Report) : State :=
  if s.lamplighter then
    let n := s.tq.net
    if n.reports.contains r then s
    else s.setNet { n with reports := (n.reports.filter fun o => !(o.serial == r.serial && o.span == r.span)) ++ [r], changed := true }
  else match s.tq.net.parent with
    | some p => s.sendCt p 0x22 0 0 (reportPayload r)
    | none => s

/-- One REPORT per UP span. -/
def State.reportAll (s : State) : State := s.upSpans.foldl (fun s sp => s.reportUp (s.spanReport sp)) s

/-- JOIN on a span: the content of a REPORT (R348). -/
def State.sendJoin (s : State) (sp : Nat) : State := s.sendCt sp 0x26 0 0 (reportPayload (s.spanReport sp))

/-! ### Routing tables (R345) -/

/-- The serialNbrs of a node that a legal route may enter next: upward to lower IDs only before the first downward span. -/
def routeSteps (edges : List (BitVec 14 × BitVec 14)) (n : Nat) (up : Bool) : List (Nat × Bool) :=
  let step (v : Nat) : List (Nat × Bool) := if v < n then (if up then [(v, true)] else []) else if n < v then [(v, false)] else []
  edges.flatMap fun e => (if e.1.toNat = n then step e.2.toNat else []) ++ (if e.2.toNat = n then step e.1.toNat else [])

/-- Keeps the first entry of each node and phase not seen before. -/
def routeNew (seen : List (Nat × Bool)) : List (Nat × Bool × Nat) → List (Nat × Bool × Nat)
  | [] => []
  | e :: l => if seen.contains (e.1, e.2.1) then routeNew seen l else e :: routeNew ((e.1, e.2.1) :: seen) l

/-- The first span of the shortest legal route to each node, the lowest span number first, over at most `fuel` more hops. -/
def routeGo (edges : List (BitVec 14 × BitVec 14)) : (fuel : Nat) → List (Nat × Bool × Nat) → List (Nat × Bool) → KMap (BitVec 5) → KMap (BitVec 5)
  | 0, _, _, routes => routes
  | n + 1, frontier, seen, routes =>
    let routes := frontier.foldl (fun (r : KMap (BitVec 5)) e => if (mget r e.1).isSome then r else mput r e.1 (BitVec.ofNat 5 e.2.2)) routes
    let seen := frontier.map (fun e => (e.1, e.2.1)) ++ seen
    routeGo edges n (routeNew seen (frontier.flatMap fun e => (routeSteps edges e.1 e.2.1).map fun v => (v.1, v.2, e.2.2))) seen routes

/-- The node's table from the topology it holds: the shortest legal routes of at most 31 hops. -/
def State.routeTable (s : State) : KMap (BitVec 5) :=
  let u := s.nodeId
  let edges := s.tq.net.edges
  let first := s.upSpans.filterMap fun sp =>
    let v := s.fld (Pg.span sp) Fld.SPAN_SP_NBR_NODE
    if s.bit (Pg.span sp) Fld.SPAN_SP_NBR_ID_VALID && v != u && edges.any (fun e => (e.1.toNat == u && e.2.toNat == v) || (e.2.toNat == u && e.1.toNat == v))
    then some (v, decide (v < u), sp) else none
  routeGo edges 31 (routeNew [] first) [(u, true), (u, false)] [(u, 0x1F)]

/-- NET_STATE becomes RUNNING: PG_EVT.RUNNING, and the queues tell what they have freed. -/
def State.netRun (s : State) : State :=
  let s := if s.netState = 3 then s else (s.setNetState 3).raise Pg.tq Evt.TQ_RUNNING
  s.creditAll

/-- A node with an ID that holds all the edges of the announced epoch computes its table and is RUNNING (R347). -/
def State.netCheck (s : State) : State :=
  let n := s.tq.net
  match n.count with
  | none => s
  | some c =>
    if s.nodeValid ∧ c.toNat = n.edges.length ∧ c ≠ 0 then
      ({ s with tq.routes := s.routeTable, tq.net := { n with epoch := n.edgeEpoch } }).netRun
    else s

/-! ### IDs -/

/-- The node takes an ID; queues bound under another one become BROKEN (R348); its neighbours hear of it in a HELLO (log 62). -/
def State.takeId (s : State) (id : BitVec 14) : State :=
  let old := s.tq.net.bound
  let s := (s.setFld Pg.tq Fld.TQ_NODE_ID id.toNat).setFld Pg.tq Fld.TQ_NODE_VALID 1
  let s := { s with tq.net.bound := some id }
  let s := if old.isSome ∧ old ≠ some id then
      ((s.tq.queues.filter fun e => e.2.en && !e.2.broken).map Prod.fst).foldl (fun s q => s.queueBreak q) s else s
  if old = some id then s else s.upSpans.foldl (fun s sp => s.sendHello sp) s

/-- The node drops its ID and joins the network of a better lamplighter (R348). -/
def State.dropId (s : State) (c : Byte × BitVec 64) : State :=
  let s := ((s.setFld Pg.tq Fld.TQ_NODE_VALID 0).setFld Pg.tq Fld.TQ_ELECT_LAMPLIGHTER 0).setFld Pg.tq Fld.TQ_LEADER_VALID 0
  let n := s.tq.net
  (s.setNet { n with role := .none, best := some c, leader := some c, parent := none, child := [], reports := [], ids := [], lost := [],
                     changed := false, edges := [], count := none }).setNetState 2

/-! ### HELLO and JOIN (R331, R348) -/

/-- HELLO: the neighbour is recorded in SP_NBR with its best-known claimant. A node of another network joins a better one; a node without an
ID asks a neighbour with one to join (R348). With MANUAL the neighbour is recorded and nothing else happens (R349). -/
def execHello (sp : Fin 24) (h : Hello) (s : State) : Out :=
  match s.takeMsg (sp.val, .hello h) with
  | none => .next s
  | some s =>
    let pg := Pg.span sp
    let known := s.bit pg Fld.SPAN_SP_NBR_VALID
    let s := (s.setFld pg Fld.SPAN_SP_NBR_VALID 1).setFld pg Fld.SPAN_SP_NBR_SPAN h.span.toNat
    let s := (s.setFld pg Fld.SPAN_SP_NBR_ID_VALID h.idValid.toNat).setFld pg Fld.SPAN_SP_NBR_NODE h.node.toNat
    let s := { s with tq.net.nbrSerial := mput s.tq.net.nbrSerial sp h.serial }
    if s.manual then .next s
    else
      let c := (h.priority, h.claimant)
      let n := s.tq.net
      if c.1 ≠ 0 ∧ n.leader.isSome ∧ betterOf c n.leader then .next ((s.dropId c).sendJoin sp)
      else
        let s := if c.1 ≠ 0 ∧ betterOf c n.best then { s with tq.net.best := some c } else s
        let s := if n.leader.isSome ∧ !known then s.reportUp (s.spanReport sp) else s
        let s := if !s.nodeValid ∧ h.idValid ∧ s.tq.net.parent.isNone ∧ !s.lamplighter then s.sendJoin sp else s
        .next s.netCheck

/-- JOIN: the neighbour of a new device forwards it to the lamplighter as a REPORT (R348). -/
def execJoin (sp : Fin 24) (r : Report) (s : State) : Out :=
  match s.takeMsg (sp.val, .join r) with
  | none => .next s
  | some s => .next (({ s with tq.net.child := mput s.tq.net.child r.serial.toNat sp.val }).reportUp r)

/-! ### Election (R346) -/

/-- The node becomes a claimant; its round begins with CLAIM on every UP span. -/
def State.claimStart (s : State) (round : Byte) : State :=
  let own := s.ownClaim
  let n := s.tq.net
  let n := { n with role := .claiming, round := round, best := if betterOf own n.best then some own else n.best }
  ((s.setNet n).setNetState 1).sendClaim none own round

/-- ELECT.START: a node that may claim starts an election. -/
def effElectionStart (s : State) : State :=
  if s.manual ∨ s.fld Pg.tq Fld.TQ_ELECT_PRIORITY = 0 then s else s.claimStart 0

/-- CLAIM: relayed if better than the best seen; a claimant ends its round and backs off (Table 14.4). -/
def execClaim (sp : Fin 24) (c : Claim) (round : BitVec 8) (s : State) : Out :=
  match s.takeMsg (sp.val, .claim c round) with
  | none => .next s
  | some s =>
    let x := (c.priority, c.serial)
    let s := if betterOf x s.tq.net.best then ({ s with tq.net.best := some x }).sendClaim (some sp) x round else s
    let s := if s.tq.net.role = .claiming ∧ x ≠ s.ownClaim then { s with tq.net.role := .backoff } else s
    .next (if s.netState = 0 then s.setNetState 1 else s)

/-- BACKOFF_END: a follower if it has seen a better claim, otherwise a claimant in the next round. -/
def execBackoffEnd (s : State) : Out :=
  let n := s.tq.net
  if n.role ≠ .backoff then .next s
  else if n.best.any fun b => betterClaim b s.ownClaim then .next (s.setNet { n with role := .none })
  else .next (s.claimStart (n.round + 1))

/-- CLAIM_ROUND_END: a round of 2 ms without a CLAIM makes the claimant lamplighter: PG_EVT.LAMPLIGHTER, BEACON on every UP span (R347). -/
def execClaimRoundEnd (s : State) : Out :=
  let n := s.tq.net
  if n.role ≠ .claiming then .next s
  else
    let s := s.setNet { n with role := .none, leader := some s.ownClaim, parent := none, child := [], reports := [], count := none, changed := false }
    let s := (s.setFld Pg.tq Fld.TQ_ELECT_LAMPLIGHTER 1).raise Pg.tq Evt.TQ_LAMPLIGHTER
    let s := ((s.setFld Pg.tq Fld.TQ_LEADER_VALID 1).setFld Pg.tq Fld.TQ_LEADER_ID s.nodeId).setNetState 2
    .next (s.ownBeacon.reportAll)

/-! ### BEACON (R347, R348) -/

/-- The first BEACON of a lamplighter: its span is the parent; it is flooded onwards and one REPORT per UP span goes up the tree. -/
def State.beaconFirst (s : State) (sp : Nat) (b : Beacon) : State :=
  let c := (b.priority, b.serial)
  let n := s.tq.net
  let s := s.setNet { n with role := .none, leader := some c, parent := some sp, child := [],
                             best := if betterOf c n.best then some c else n.best }
  let s := (s.setFld Pg.tq Fld.TQ_ELECT_LAMPLIGHTER 0).setNetState 2
  let s := (s.setFld Pg.tq Fld.TQ_LEADER_VALID 1).setFld Pg.tq Fld.TQ_LEADER_ID b.node.toNat
  ((s.sendBeacon (some sp) b).reportAll)

/-- The epoch and the edge count a BEACON announces. -/
def State.beaconEpoch (s : State) (b : Beacon) : State :=
  if b.count = 0 then s
  else
    let n := s.tq.net
    let n := if n.edgeEpoch = b.epoch then { n with count := some b.count } else { n with edgeEpoch := b.epoch, edges := [], count := some b.count }
    let running := s.netState = 3 ∧ n.epoch = n.edgeEpoch
    let s := s.setNet n
    if running then s else s.netCheck

/-- BEACON: the first one of the network's lamplighter, a later one from the parent, which is flooded onwards, or one of a better lamplighter,
which the node joins; any other is dropped. -/
def execBeacon (sp : Fin 24) (b : Beacon) (s : State) : Out :=
  match s.takeMsg (sp.val, .beacon b) with
  | none => .next s
  | some s =>
    let c := (b.priority, b.serial)
    let n := s.tq.net
    if n.leader = some c then
      if s.lamplighter then .next s
      else match n.parent with
        | none => .next ((s.beaconFirst sp b).beaconEpoch b)
        | some p =>
          if p = sp.val then
            let s := s.setFld Pg.tq Fld.TQ_LEADER_ID b.node.toNat
            .next ((s.sendBeacon (some sp.val) b).beaconEpoch b)
          else .next s
    else if n.leader.isNone then .next ((s.beaconFirst sp b).beaconEpoch b)
    else if betterOf c n.leader then .next (((s.dropId c).beaconFirst sp b).beaconEpoch b)
    else .next s

/-- BEACON_TIMEOUT: no BEACON for 4 ms while a span is UP: the lamplighter is lost, IDs are kept, and a node that may claim starts an election. -/
def execBeaconTimeout (s : State) : Out :=
  let n := s.tq.net
  if s.manual ∨ s.lamplighter ∨ s.upSpans.isEmpty ∨ n.role ≠ .none then .next s
  else
    let s := (s.setNet { n with best := none, leader := none, parent := none }).setFld Pg.tq Fld.TQ_LEADER_VALID 0
    let s := if n.leader.isSome then s.setNetState 1 else s
    .next (effElectionStart s)

/-- BEACON_TICK: the lamplighter sends a BEACON every 1 ms. -/
def execBeaconTick (s : State) : Out := if s.lamplighter ∧ !s.manual then .next s.ownBeacon else .next s

/-! ### Reports and epochs at the lamplighter (R347, R348) -/

/-- REPORT: its child span is recorded; it is relayed up the tree, or recorded by the lamplighter. -/
def execReport (sp : Fin 24) (r : Report) (s : State) : Out :=
  match s.takeMsg (sp.val, .report r) with
  | none => .next s
  | some s => .next (({ s with tq.net.child := mput s.tq.net.child r.serial.toNat sp.val }).reportUp r)

/-- LINKDOWN: the lamplighter removes the span from its topology; a new epoch follows. -/
def execLinkdown (rep nbr : BitVec 14) (sp : BitVec 8) (s : State) : Out :=
  match s.tq.inbox.find? fun m => m.2 == .linkdown rep nbr sp with
  | none => .next s
  | some m =>
    let s := { s with tq.inbox := s.tq.inbox.erase m }
    if !s.lamplighter then .next s
    else
      let n := s.tq.net
      let of (id : BitVec 14) (serial : BitVec 64) : Bool := mget n.ids serial.toNat == some id
      let gone (r : Report) : Bool := (of rep r.serial && r.span == sp) || (of rep r.nbr && of nbr r.serial && r.nbrSpan == sp)
      .next (s.setNet { n with reports := n.reports.filter fun r => !gone r, changed := true })

/-- Numbers in rising order. -/
def insertNat (x : Nat) : List Nat → List Nat
  | [] => [x]
  | y :: l => if x ≤ y then x :: y :: l else y :: insertNat x l
def sortNat (l : List Nat) : List Nat := l.foldr insertNat []

/-- The serials reached from a list of serials over the reported spans, in order of hop distance, ties by the lower serial. -/
def reachGo (reports : List Report) : (fuel : Nat) → (frontier seen : List Nat) → List Nat
  | 0, _, seen => seen
  | n + 1, frontier, seen =>
    let next := frontier.flatMap fun x => reports.flatMap fun r =>
      (if r.serial.toNat = x then [r.nbr.toNat] else []) ++ (if r.nbr.toNat = x then [r.serial.toNat] else [])
    let next := sortNat (next.filter fun x => !seen.contains x).eraseDups
    if next.isEmpty then seen else reachGo reports n next (seen ++ next)

/-- The serialNbrs of a serial. -/
def serialNbrs (reports : List Report) (x : Nat) : List Nat :=
  reports.flatMap fun r => (if r.serial.toNat = x then [r.nbr.toNat] else []) ++ (if r.nbr.toNat = x then [r.serial.toNat] else [])

/-- Keeps the IDs of nodes with a lower-ID neighbour, the lowest ID's and the lamplighter's (R345, R347). -/
def keepIds (reports : List Report) (own : Nat) : (fuel : Nat) → KMap Nat → KMap Nat
  | 0, ids => ids
  | n + 1, ids =>
    let ok (e : Nat × Nat) : Bool := e.1 == own || ids.all (fun o => decide (e.2 ≤ o.2)) ||
      (serialNbrs reports e.1).any fun y => match mget ids y with | some i => decide (i < e.2) | none => false
    let kept := ids.filter ok
    if kept.length = ids.length then ids else keepIds reports own n kept

/-- The lowest ID above a bound that is not in use. -/
def lowestId (used : List Nat) (above : Nat) : Option Nat :=
  ((List.range 16384).drop above).find? fun i => !used.contains i

/-- Assigns IDs by R347 and R348: kept ones, then the others in order of hop distance, each the lowest free ID above a neighbour's. -/
def assignIds (reports : List Report) (own : Nat) (order : List Nat) (cur : KMap Nat) (lost : List Nat) : KMap Nat :=
  -- a duplicate ID stays with the lower serial
  let cur : KMap Nat := cur.foldl (fun (m : KMap Nat) e => if m.any fun o => o.2 == e.2 then m else mput m e.1 e.2) []
  let lowerNbr (x i : Nat) : Bool := cur.all (fun o => decide (i ≤ o.2)) ||
    (serialNbrs reports x).any fun y => match mget cur y with | some k => decide (k < i) | none => false
  let cur := match mget cur own with
    | some i => if lowerNbr own i then cur else mdel cur own
    | none => cur
  let used (m : KMap Nat) : List Nat := m.map Prod.snd ++ lost
  let cur := match mget cur own with
    | some _ => cur
    | none => match lowestId (used cur) 0 with | some i => mput cur own i | none => cur
  let cur := keepIds reports own cur.length cur
  order.foldl (fun (m : KMap Nat) x =>
    if (mget m x).isSome then m
    else
      let near := (serialNbrs reports x).filterMap fun y => mget m y
      let above := match near.min? with | some i => i + 1 | none => 0
      match lowestId (used m) above with | some i => mput m x i | none => m) cur

/-- Pieces of at most 16 edges, for TOPO. -/
def topoPieces (l : List (BitVec 14 × BitVec 14)) : (fuel : Nat) → List (List (BitVec 14 × BitVec 14))
  | 0 => []
  | n + 1 => if l.isEmpty then [] else l.take 16 :: topoPieces (l.drop 16) n

def topoPayload (l : List (BitVec 14 × BitVec 14)) : Line :=
  payOf (l.zipIdx.map fun e => (4 * e.2, 4, e.1.1.toNat * 2 ^ 14 + e.1.2.toNat))

/-- The spans that lead down the tree. -/
def State.childSpans (s : State) : List Nat := sortNat (s.tq.net.child.map Prod.snd).eraseDups

/-- Sends TOPO down the tree. -/
def State.sendTopo (s : State) (skip : Option Nat) (epoch : BitVec 24) (edges : List (BitVec 14 × BitVec 14)) : State :=
  (s.childSpans.filter fun sp => some sp != skip).foldl (fun s sp => s.sendCt sp 0x24 edges.length epoch.toNat (topoPayload edges)) s

/-- The lamplighter assigns IDs, sends ASSIGN to each node, then the edges in TOPO frames of a new epoch, then a BEACON with that epoch. -/
def State.newEpoch (s : State) : State :=
  let n := s.tq.net
  let own := s.serial.toNat
  let order := reachGo n.reports (n.reports.length + 1) [own] [own]
  let current (x : Nat) : Option Nat :=
    if x = own then (if s.nodeValid then some s.nodeId else none)
    else match mget n.ids x with
      | some i => some i.toNat
      | none => (n.reports.find? fun r => r.serial.toNat == x && r.idValid).map fun r => r.id.toNat
  let cur : KMap Nat := order.foldl (fun (m : KMap Nat) x => match current x with | some i => mput m x i | none => m) []
  let gone := (n.ids.filter fun e => !order.contains e.1).map Prod.snd
  let lost := (n.lost ++ gone).eraseDups
  let ids := assignIds n.reports own order cur (lost.map BitVec.toNat)
  let reports := n.reports.filter fun r => order.contains r.serial.toNat
  let pairs : List (Nat × Nat) := (reports.filterMap fun r =>
    match mget ids r.serial.toNat, mget ids r.nbr.toNat with | some a, some b => some (min a b, max a b) | _, _ => none).eraseDups
  let edges := pairs.map fun e => (BitVec.ofNat 14 e.1, BitVec.ofNat 14 e.2)
  let epoch := n.epoch + 1
  let s := s.setNet { n with reports := reports, lost := lost, changed := false, epoch := epoch, edgeEpoch := epoch, edges := edges,
                             count := some (BitVec.ofNat 32 edges.length), ids := ids.map fun e => (e.1, BitVec.ofNat 14 e.2) }
  let s := match mget ids own with | some i => s.takeId (BitVec.ofNat 14 i) | none => s
  let s := s.setFld Pg.tq Fld.TQ_LEADER_ID s.nodeId
  let s := ids.foldl (fun s e =>
    match mget s.tq.net.child e.1 with
    | some sp => if e.1 = own then s else s.sendCt sp 0x23 0 0 (payOf [(0, 8, e.1), (8, 2, e.2)])
    | none => s) s
  let s := (topoPieces edges edges.length).foldl (fun s l => s.sendTopo none epoch l) s
  let s := s.ownBeacon
  ({ s with tq.routes := s.routeTable }).netRun

/-- REPORT_QUIET: after 1 ms without a REPORT the lamplighter in set-up assigns IDs. -/
def execReportQuiet (s : State) : Out := if s.lamplighter ∧ s.netState = 2 then .next s.newEpoch else .next s

/-- EPOCH_TIMER: 1 ms after the last change the lamplighter of a running network issues a new epoch. -/
def execEpochTimer (s : State) : Out := if s.lamplighter ∧ s.netState = 3 ∧ s.tq.net.changed then .next s.newEpoch else .next s

/-- ID_FREE_TIMER: an ID is freed 10 s after its node was last reachable. -/
def execIdFreeTimer (id : BitVec 14) (s : State) : Out := .next { s with tq.net.lost := s.tq.net.lost.filter fun i => i != id }

/-- ASSIGN: the node named takes the ID; another one passes it down the tree. -/
def execAssign (sp : Fin 24) (serial : BitVec 64) (id : BitVec 14) (s : State) : Out :=
  match s.takeMsg (sp.val, .assign serial id) with
  | none => .next s
  | some s =>
    if serial = s.serial then .next (s.takeId id).netCheck
    else match mget s.tq.net.child serial.toNat with
      | some c => .next (s.sendCt c 0x23 0 0 (payOf [(0, 8, serial.toNat), (8, 2, id.toNat)]))
      | none => .next s

/-- TOPO: edges of an epoch are collected and passed down the tree; a node that holds them all computes its table (R347). -/
def execTopo (sp : Fin 24) (epoch : BitVec 24) (edges : List (BitVec 14 × BitVec 14)) (s : State) : Out :=
  match s.takeMsg (sp.val, .topo epoch edges) with
  | none => .next s
  | some s =>
    let n := s.tq.net
    let n := if n.edgeEpoch = epoch then n else { n with edgeEpoch := epoch, edges := [], count := none }
    let n := { n with edges := n.edges ++ edges.filter fun e => !n.edges.contains e }
    let s := (s.setNet n).sendTopo (some sp.val) epoch edges
    .next (if s.netState = 3 ∧ n.epoch = epoch then s else s.netCheck)

/-! ### What writes of the TQ pages set off -/

/-- A span in use trains once user logic is enabled (Tables 16.3, 16.4). -/
def State.spanStart (s : State) (sp : Nat) : State :=
  if s.spanOn sp ∧ s.bit Pg.cfg Fld.CFG_CFG_STAT_USER_EN ∧ !s.spanUp sp then s.setFld (Pg.span sp) Fld.SPAN_SP_STAT_STATE 1 else s

/-- A write of SP_CTRL that turns ENABLE on: the span trains; its lanes run the rate probe (R330, R331). -/
def effSpanEnable (sp : Nat) (s : State) : State :=
  let s := s.spanStart sp
  (List.range (s.spanWidth sp)).foldl (fun s j =>
    let l := s.spanLane sp j
    let st := s.laneState l
    if st = 0 ∨ st = 1 ∨ st = 6 then s else s.laneTrain l 2) s

/-- ENABLE turned off: the span goes DOWN; lanes kept outside may join the next time (R331). -/
def effSpanDisable (sp : Nat) (s : State) : State :=
  let pg := Pg.span sp
  let s := if s.spanUp sp then s.spanToDown sp else s
  let s := (s.setFld pg Fld.SPAN_SP_STAT_STATE 0).setFld pg Fld.SPAN_SP_STAT_UP_MASK 0
  s.setSpan sp { s.span sp with excluded := [] }

/-- An accepted write of NODE with MANUAL = 1 (R349). -/
def effNodeWrite (v : Word) (s : State) : State :=
  let s := (s.setFld Pg.tq Fld.TQ_NODE_ID (fieldOf v 0 14)).setFld Pg.tq Fld.TQ_NODE_VALID (fieldOf v 31 1)
  if v.getLsbD 31 then ({ s with tq.net.bound := some (v.setWidth 14) }).netRun else s.setNetState 0

/-- RT_IDX advances after an access to RT_DATA with AUTOINC. -/
def State.rtAdvance (s : State) : State :=
  if s.bit Pg.tq Fld.TQ_RT_IDX_AUTOINC then
    s.setFld Pg.tq Fld.TQ_RT_IDX_INDEX ((s.fld Pg.tq Fld.TQ_RT_IDX_INDEX + 1) % 16384) else s

/-- RT_DATA: the entry at INDEX. -/
def State.rtEntry (s : State) : BitVec 5 := mgetD 0x1E s.tq.routes (s.fld Pg.tq Fld.TQ_RT_IDX_INDEX)
def effRtData (v : BitVec 5) (s : State) : State :=
  ({ s with tq.routes := mputD 0x1E s.tq.routes (s.fld Pg.tq Fld.TQ_RT_IDX_INDEX) v }).rtAdvance

/-- LOC of an enabled export window is aligned, its range aligned and within 8 GiB, and it overlaps no other enabled one (Table 14.10). -/
def State.exportOk (s : State) (w : Nat) : Bool :=
  let pg := Pg.tqExp
  let range (w : Nat) : Nat × Nat := (s.fld pg (Fld.EXP_OFF_OFF w) * 4096, 2 ^ s.fld pg (Fld.EXP_OFF_SIZE w))
  let (b, n) := range w
  let loc := s.fld pg (Fld.EXP_LOCH_ADDR w) * 2 ^ 32 + s.fld pg (Fld.EXP_LOCL_ADDR w) * 4096
  b % n == 0 && loc % n == 0 && decide (b + n ≤ 2 ^ 33) &&
    (List.range 32).all fun k => k == w || !s.bit pg (Fld.EXP_OFF_EN k) || (let (c, m) := range k; decide (b + n ≤ c) || decide (c + m ≤ b))

end Sys2Proof.Machine
end

