-- ==== Sys2Proof/Machine/Ucie.lean ====
section
/-!
DEFINITION. The UCIe site (R320 to R327): bring-up, units with credits and replay, retrain and failure.
-/
namespace Sys2Proof.Machine

def State.uciMod (s : State) (u : Nat) : UciState := mgetD {} s.uci u
def State.setUciMod (s : State) (u : Nat) (x : UciState) : State := { s with uci := mputD {} s.uci u x }

/-- M_STAT.STATE: 0 DISABLED, 1 TRAINING, 2 ACTIVE, 3 RETRAIN, 4 FAILED. -/
def State.uciState (s : State) (u : Nat) : Nat := s.fld (Pg.uciM u) Fld.UCIM_M_STAT_STATE
def State.setUciState (s : State) (u n : Nat) : State := s.setFld (Pg.uciM u) Fld.UCIM_M_STAT_STATE n

/-- The part has the partner die (R5). -/
def State.hasUcie (s : State) : Bool := s.partId.getLsbD 7
/-- A module that self-test has held out is not there: R5 applies (Table 01.3). -/
def State.uciPresent (s : State) (u : Nat) : Bool := s.hasUcie && !s.heldBit Fld.BIST_FAIL_PORT_UCIE u

/-- The module leaves ACTIVE for good: the locks of its agent are released (Table 19.4). -/
def State.uciAgentReset (s : State) (u : Nat) : State := s.agentReset (· == 0x80 + u)

/-- FAILED: IF0 is cut off as in R167, PG_EVT.FAILED, alarm 9 (R327). -/
def State.uciFail (s : State) (u : Nat) : State :=
  let pg := Pg.uciM u
  let s := (s.setUciState u 4).cutOff (60 + u) 0
  let s := s.setUciMod u {}
  ((s.raise pg Evt.UCIM_FAILED).alarm 9 pg (BitVec.ofNat 32 u)).uciAgentReset u

/-- A full bring-up begins (Table 13.3, step 1). -/
def State.uciTrain (s : State) (u : Nat) : State :=
  let pg := Pg.uciM u
  ((s.setUciMod u {}).setReg pg Reg.UCIM_M_STAT 0).setUciState u 1

/-- The image copy has ended, or none runs (R322). -/
def State.copyEnded (s : State) : Bool :=
  s.fld Pg.cfg Fld.CFG_CFG_STAT_STATE != 2 || s.boot.loading.any fun i => i.src != 3 || s.boot.last

/-- MODULE_BRINGUP: at the end of the image copy, or for a WICK of a failed module, an enabled module starts to train (R322, R327). -/
def execModuleBringup (u : Fin 4) (s : State) : Out :=
  let wicked := s.wicks.contains (.iface (Fin.ofNat 64 (60 + u.val)) 0)
  let st := s.uciState u
  if s.uciPresent u && s.bit Pg.uci Fld.UCI_UCI_CFG_EN && s.bit (Pg.uciM u) Fld.UCIM_M_CTRL_ENABLE && s.copyEnded
      && (st == 0 || (st == 4 && wicked)) then
    .next ({ s with wicks := s.wicks.erase (.iface (Fin.ofNat 64 (60 + u.val)) 0) }.uciTrain u)
  else .next s

/-- M_CTRL.ENABLE from 0 to 1: a full bring-up, not before the image copy has ended nor before a snuff in progress has (R327). -/
def effModuleEnable (u : Nat) (s : State) : State :=
  if s.uciPresent u && s.bit Pg.uci Fld.UCI_UCI_CFG_EN && s.copyEnded && s.ifState (60 + u) 0 != 3 then s.uciTrain u else s

/-- The module stops in DISABLED once the snuff of ENABLE = 0 has ended; enabled again meanwhile, it starts its bring-up then. -/
def State.uciSettle (s : State) (u : Nat) : State :=
  if s.ifState (60 + u) 0 == 4 && (s.uciState u == 2 || s.uciState u == 3) && (s.uciMod u).stops then
    let t := ((s.setUciState u 0).setUciMod u {}).uciAgentReset u
    if t.bit (Pg.uciM u) Fld.UCIM_M_CTRL_ENABLE then effModuleEnable u t else t
  else s

/-- M_CTRL.ENABLE from 1 to 0: IF0 is snuffed, then the module stops (R327). -/
def effModuleDisable (u : Nat) (s : State) : State :=
  if s.uciState u = 2 ∨ s.uciState u = 3 then
    let s := s.setUciMod u { s.uciMod u with stops := true }
    if s.maySnuff (60 + u) 0 then effSnuff (60 + u) 1 s else s.uciSettle u
  else if s.uciState u = 1 ∨ s.uciState u = 4 then ((s.setUciState u 0).setUciMod u {}) else s

/-- CAPABILITY_MESSAGE: the partner's identity and buffers are recorded; a payload outside Table 13.4 fails the module. -/
def execCapabilityMessage (u : Fin 4) (payload : BitVec 64) (vendor device : BitVec 16) (s : State) : Out :=
  if s.uciState u ≠ 1 then .next s
  else
    let f (lo : Nat) : Nat := fieldOf payload lo 8
    let ok := fieldOf payload 48 16 == 1 && fieldOf payload 0 16 == 0 && decide (8 ≤ f 40) && decide (8 ≤ f 32) && decide (8 ≤ f 24)
      && decide (8 ≤ f 16)
    if !ok then .next (s.uciFail u)
    else
      let s := (s.setFld Pg.uci Fld.UCI_UCI_PARTNER_VENDOR vendor.toNat).setFld Pg.uci Fld.UCI_UCI_PARTNER_DEVICE device.toNat
      let pg := Pg.uciM u
      let s := (s.setFld pg Fld.UCIM_M_PCAP_REQ (f 40)).setFld pg Fld.UCIM_M_PCAP_RSP (f 32)
      let s := (s.setFld pg Fld.UCIM_M_PCAP_POST (f 24)).setFld pg Fld.UCIM_M_PCAP_MGMT (f 16)
      .next (s.setUciMod u { s.uciMod u with capsIn := true })

/-- Lanes repaired are shown, and counted in TRB3 where they are new. -/
def State.uciRepaired (s : State) (u tx rx : Nat) : State :=
  let pg := Pg.uciM u
  let n := (tx - s.fld pg Fld.UCIM_M_STAT_TX_REP) + (rx - s.fld pg Fld.UCIM_M_STAT_RX_REP)
  ((s.setFld pg Fld.UCIM_M_STAT_TX_REP tx).setFld pg Fld.UCIM_M_STAT_RX_REP rx).trbN pg 3 n

/-- BRINGUP_TIMEOUT: a module not ACTIVE within its bounds is FAILED (R322). -/
def execBringupTimeout (u : Fin 4) (s : State) : Out := if s.uciState u ≠ 1 then .next s else .next (s.uciFail u)

/-! ### Units (R323 to R325) -/

/-- What a unit says (Tables 13.5, 13.6): whether CHECK holds, its trailer's fields, its flits in slot order. -/
structure UcieUnit where
  checkOk : Bool
  nak : Bool
  seq : Byte
  ack : Byte
  credit : BitVec 32
  flits : List (BitVec 640)
deriving DecidableEq, Repr

/-- CRC-32C over bytes 0 to 251 of a unit, byte 0 being its highest. -/
def unitCrc (b : BitVec 2048) : Nat := crcOf 2 ((List.range 252).map fun i => BitVec.ofNat 8 (fieldOf b (2040 - 8 * i) 8))

/-- A unit's bits: three slots of 640, then the trailer of 128. -/
def mkUnit (n : UcieUnit) : BitVec 2048 :=
  let slot (i : Nat) : BitVec 640 := n.flits.getD i 0
  let valid : BitVec 3 := BitVec.ofNat 3 (2 ^ n.flits.length - 1)
  let b : BitVec 2016 := slot 0 ++ slot 1 ++ slot 2 ++ valid ++ BitVec.ofBool n.nak ++ n.seq ++ n.ack ++ n.credit ++ (0 : BitVec 44)
  let w : BitVec 2048 := b ++ (0 : BitVec 32)
  withField w 0 32 (unitCrc w)

/-- A unit as it is read. -/
def unitOf (b : BitVec 2048) : UcieUnit :=
  { checkOk := fieldOf b 0 32 == unitCrc b, nak := b.getLsbD 124, seq := BitVec.ofNat 8 (fieldOf b 116 8), ack := BitVec.ofNat 8 (fieldOf b 108 8),
    credit := BitVec.ofNat 32 (fieldOf b 76 32),
    flits := ([0, 1, 2].filter fun i => b.getLsbD (125 + i)).map fun i => BitVec.ofNat 640 (fieldOf b (128 + 640 * (2 - i)) 640) }

/-- The VC of a flit, and its type. -/
def flitVc (w : BitVec 640) : Nat := fieldOf w 634 2
def flitTyp (w : BitVec 640) : Nat := fieldOf w 636 4

/-- The count of a VC (0 REQ, 1 RSP, 2 POST, 3 MGMT) in a word of running counts, and the count raised by one. -/
def vcCount (c : BitVec 32) (vc : Nat) : Byte := byteOf c vc
def vcBump (c : BitVec 32) (vc : Nat) : BitVec 32 := withField c (8 * vc) 8 ((vcCount c vc) + 1).toNat

/-- The entries the partner advertised for a VC. -/
def State.uciEntries (s : State) (u vc : Nat) : Nat :=
  s.fld (Pg.uciM u) (match vc with
    | 0 => Fld.UCIM_M_PCAP_REQ | 1 => Fld.UCIM_M_PCAP_RSP | 2 => Fld.UCIM_M_PCAP_POST | _ => Fld.UCIM_M_PCAP_MGMT)

/-- Up to three flits for the next unit, in order, while credits last. -/
def State.uciPick (s : State) (u : Nat) (x : UciState) : (fuel : Nat) → List (BitVec 640) × UciState
  | 0 => ([], x)
  | n + 1 =>
    match x.wait.find? fun f => decide ((vcCount x.sent (flitVc f) - vcCount x.cred (flitVc f)).toNat < s.uciEntries u (flitVc f)) with
    | none => ([], x)
    | some f =>
      let (l, y) := s.uciPick u { x with wait := x.wait.erase f, sent := vcBump x.sent (flitVc f) } n
      (f :: l, y)

/-- A unit with the module's trailer. -/
def UciState.unit (x : UciState) (seq : Byte) (l : List (BitVec 640)) : BitVec 2048 := mkUnit ⟨true, x.nak, seq, x.rxSeq - 1, x.freed, l⟩

/-- Sends data units while flits, credits and the replay buffer of 32 allow. -/
def State.uciSendGo (s : State) (u : Nat) : (fuel : Nat) → State
  | 0 => s
  | n + 1 =>
    let x := s.uciMod u
    if s.uciState u ≠ 2 ∨ 32 ≤ x.replay.length then s
    else match s.uciPick u x 3 with
      | ([], _) => s
      | (l, y) =>
        let seq := y.txSeq
        ((s.setUciMod u { y with txSeq := seq + 1, replay := y.replay ++ [(seq, l)] }).emit (.unit u (y.unit seq l))).uciSendGo u n

def State.uciFlush (s : State) (u : Nat) : State := s.uciSendGo u ((s.uciMod u).wait.length)

/-- A flit for the partner die. -/
def State.uciSend (s : State) (u : Nat) (f : BitVec 640) : State :=
  let x := s.uciMod u
  (s.setUciMod u { x with wait := x.wait ++ [f] }).uciFlush u

/-- Replays every unit not acknowledged, in order; counted in TRB1 (R325). -/
def State.uciReplay (s : State) (u : Nat) : State :=
  let x := s.uciMod u
  if x.replay.isEmpty then s
  else (x.replay.foldl (fun s e => s.emit (.unit u (x.unit e.1 e.2))) s).trb (Pg.uciM u) 1

/-- The units an ACK covers leave the replay buffer. -/
def ackDrop {α : Type} (l : List (Byte × α)) (ack : Byte) : List (Byte × α) :=
  if l.any fun e => e.1 == ack then (l.dropWhile fun e => e.1 != ack).drop 1 else l

/-- Running counts only grow: an older one is not taken. -/
def newerCount (old new : Byte) : Byte := if (new - old).toNat < 128 then new else old
def newerCounts (old new : BitVec 32) : BitVec 32 :=
  (List.range 4).foldl (fun c i => withField c (8 * i) 8 (newerCount (byteOf old i) (byteOf new i)).toNat) old

/-- RETRAIN: the mainband is retrained; counted in TRB2 (R326). -/
def State.uciRetrain (s : State) (u : Nat) : State :=
  ((s.setUciState u 3).trb (Pg.uciM u) 2).raise (Pg.uciM u) Evt.UCIM_RETRAIN

/-- The check of R324: the CRC, and a type of Table 06.3 on one of its VCs; a coherence message, which no partner die sends, is refused as a reserved type is
(DESIGN CHOICE, log 142). -/
def partnerFlitOk (w : BitVec 640) : Bool :=
  flitSound w && (match flitTyp w with
    | 0 | 1 => flitVc w == 0 || flitVc w == 3
    | 2 => flitVc w == 2
    | 4 | 5 => flitVc w == 1 || flitVc w == 3
    | 6 => flitVc w == 1
    | _ => false)

/-- A status from its number. -/
def statusOf (n : Nat) : Status := match n with | 0 => .ok | 2 => .domainOff | 3 => .poison | _ => .busError

/-- A flit from the partner (R324): a request waits for injection under the module's tenant; a response answers the oldest delivered request
with its ring tag. A flit that is not valid is discarded and counted in TRB4. -/
def State.partnerFlit (s : State) (u : Nat) (w : BitVec 640) : State :=
  let typ := flitTyp w
  let tag := fieldOf w 595 8
  let len := fieldOf w 592 3
  let payload : Line := BitVec.ofNat 512 (fieldOf w 32 512)
  if !partnerFlitOk w then s.trb (Pg.uciM u) 4
  else if typ < 3 then
    let x := s.uciMod u
    let req (data : Line) (be : BitVec 64) : EpEntry :=
      ⟨match typ with | 0 => .rd | 1 => .wr | _ => .wrp,
        ⟨BitVec.ofNat 64 (fieldOf w 603 10 * 2 ^ 48 + fieldOf w 544 48), BitVec.ofNat 3 len, BitVec.ofNat 8 tag, data, be, 0⟩,
        BitVec.ofNat 9 (s.fld (Pg.uciM u) Fld.UCIM_M_TENANT_TID), false⟩
    if len = 7 then
      match x.half with
      | none => s.setUciMod u { x with half := some w }
      | some h => (s.setUciMod u { x with half := none }).handIn (60 + u) 0 (req (BitVec.ofNat 512 (fieldOf h 32 512)) (payload.setWidth 64))
    else s.handIn (60 + u) 0 (req payload (BitVec.allOnes 64))
  else
    let mine := s.rings.txns.filter fun e => e.2.dst == 60 + u && e.2.dstIf == 0 && decide (e.2.phase = .delivered)
      && e.1 % 256 == tag && (e.1 / 256 % 3 == 2) == (flitVc w == 3) && (decide (e.2.typ = .rd) == (typ == 4))
    match mine.foldl (fun (b : Option (Nat × Txn)) e => match b with
        | none => some e
        | some a => if e.2.seq < a.2.seq then some e else b) none with
    | none => s
    | some (k, _) => s.answer (txnKeyOf k) (statusOf (fieldOf w 544 8)) (if typ = 4 then payload else 0)

/-- UNIT: a unit is received: a bad one, or a data unit out of sequence, is discarded and NAKed, the third failure of one SEQ starts a retrain;
a good one's ACK, NAK and CREDIT apply and its flits are taken (R325, R326). What comes while a replay is awaited and is not discarded is that replay,
good or bad: TRB1 counts it, as in the example after R327 (log 63). -/
def execUciUnit (u : Fin 4) (b : BitVec 2048) (s : State) : Out :=
  let n := unitOf b
  if s.uciState u ≠ 2 then .next s
  else
    let x := s.uciMod u
    let data := !n.flits.isEmpty
    let inSeq := n.seq == x.rxSeq
    if !n.checkOk || (data && !inSeq) then
      -- while a replay is awaited, later good units are discarded without counting
      if n.checkOk && x.nak then .next s
      else
        let fails := x.fails + 1
        let s := (s.setUciMod u { x with nak := true, fails := if fails = 3 then 0 else fails }).trb (Pg.uciM u) 0
        let s := if x.nak then s.trb (Pg.uciM u) 1 else s
        if fails = 3 then .next (s.uciRetrain u) else .next (s.emit (.unit u ((s.uciMod u).unit x.txSeq [])))
    else if x.nak && !data then .next s
    else
      let s := if x.nak then s.trb (Pg.uciM u) 1 else s
      let x := { x with replay := ackDrop x.replay n.ack, cred := newerCounts x.cred n.credit }
      let x := if data then
          { x with rxSeq := x.rxSeq + 1, nak := false, fails := 0,
                   freed := n.flits.foldl (fun c f => vcBump c (flitVc f)) x.freed }
        else x
      let s := s.setUciMod u x
      let s := n.flits.foldl (fun s f => s.partnerFlit u f) s
      .next ((if n.nak then s.uciReplay u else s).uciFlush u)

/-- The flit of a response as the attachment point delivers it to its interface: under the tag of the partner's request (R147, R324). -/
def Txn.partnerResponse (x : Txn) (t : TxnKey) (st : Nat) (data : Line) : BitVec 640 :=
  flitWord ⟨if x.typ = .rd then 4 else 5, x.tid, x.kid, x.epTag.toNat, x.len.toNat, st⟩ t.cls.vcBack t.src x.dst (if x.typ = .rd then data else 0)

/-- A request passes to the partner die; a posted write has its PACK at once (R161). -/
def State.partnerTake (s : State) (u : Nat) (t : TxnKey) (x : Txn) : State :=
  let s := (x.requestWords t).foldl (fun s f => s.uciSend u f) s
  if x.typ = .wrp then s.answer t .ok 0 else s.setTxn t { x with phase := .delivered }

/-- The parked flits of IF0 are sent. -/
def State.partnerWake (s : State) (u : Nat) : State :=
  let l := s.parkedAt (60 + u) 0
  let s : State := { s with rings.parked := s.rings.parked.filter fun t => !l.contains t }
  l.foldl (fun s t => match s.txn t with | some x => s.partnerTake u t { x with phase := .flying } | none => s) s

/-- MODULE_ACTIVE: the mainband is trained at a rate MAX_RATE permits: ACTIVE, IF0 is ON, PG_EVT.ACTIVE (Table 13.3, step 5). -/
def execModuleActive (u : Fin 4) (rate : BitVec 2) (txRep rxRep : BitVec 4) (s : State) : Out :=
  let pg := Pg.uciM u
  if s.uciState u ≠ 1 ∨ !(s.uciMod u).capsIn ∨ s.fld Pg.uci Fld.UCI_UCI_CFG_MAX_RATE < rate.toNat then .next s
  else if 4 < txRep.toNat ∨ 4 < rxRep.toNat then .next (s.uciFail u)
  else
    let s := ((s.setUciState u 2).setFld pg Fld.UCIM_M_STAT_RATE rate.toNat).uciRepaired u txRep.toNat rxRep.toNat
    .next (((s.setIfState (60 + u) 0 1).partnerWake u).raise pg Evt.UCIM_ACTIVE)

/-! ### Retrain (R326, R327) -/

/-- M_CTRL.RETRAIN. -/
def effRetrain (u : Nat) (s : State) : State := s.uciRetrain u

/-- RETRAIN_END: ACTIVE again, with the lanes repaired so far; more than four in one direction fail the module; replay resumes. -/
def execRetrainEnd (u : Fin 4) (txRep rxRep : BitVec 4) (s : State) : Out :=
  if s.uciState u ≠ 3 then .next s
  else if 4 < txRep.toNat ∨ 4 < rxRep.toNat then .next (s.uciFail u)
  else
    let s := (s.uciRepaired u txRep.toNat rxRep.toNat).setUciState u 2
    .next (((s.raise (Pg.uciM u) Evt.UCIM_ACTIVE).uciReplay u).uciFlush u)

/-- RETRAIN_TIMEOUT: a retrain that does not end within 30 µs: FAILED (R327). -/
def execRetrainTimeout (u : Fin 4) (s : State) : Out := if s.uciState u ≠ 3 then .next s else .next (s.uciFail u)

end Sys2Proof.Machine
end

