-- ==== Sys2Proof/Machine/Access.lean ====
section
/-!
DEFINITION. The management window (chapter 19): agents and their paths, the populated pages, domains of pages, reads with their views, the recorded HI words, refusals.
-/
namespace Sys2Proof.Machine

/-! ### Agents and paths (R465, R466) -/

/-- The bit of PATH_RD and PATH_WR of an agent; agents 0x01 and 0x02 have none, and no other number is an agent (Table 19.4). -/
def pathBit (a : Nat) : Option Nat :=
  if a = 3 then some 0 else if a = 4 then some 1 else if a = 5 then some 2
  else if 0x08 ≤ a ∧ a < 0x10 then some a
  else if 0x40 ≤ a ∧ a < 0x80 then some 3 else if 0x80 ≤ a ∧ a < 0x84 then some 4 else none

/-- Agents that are always enabled. -/
def alwaysOn (a : Nat) : Bool := a == 1 || a == 2

def State.pathRd (s : State) (a : Nat) : Bool := alwaysOn a || (pathBit a).any fun b => (s.reg Pg.host Reg.HOST_PATH_RD).getLsbD b
def State.pathWr (s : State) (a : Nat) : Bool := alwaysOn a || (pathBit a).any fun b => (s.reg Pg.host Reg.HOST_PATH_WR).getLsbD b

/-- User logic is enabled. -/
def State.userOn (s : State) : Bool := s.bit Pg.cfg Fld.CFG_CFG_STAT_USER_EN

/-- What the host port presents (R382): 0 Configuration Request Retry Status, 1 the boot function, 2 the functions of the image. -/
def State.hostMode (s : State) : Nat :=
  let src := s.fld Pg.cfg Fld.CFG_STRAP_BOOT_SRC
  if s.fld Pg.cfg Fld.CFG_CFG_STAT_SOURCE = 3 then (if s.boot.bootFn then 1 else 2)
  else if s.userOn then 2
  else if src = 1 then 1
  else if src = 0 then (if s.fld Pg.cfg Fld.CFG_CFG_STAT_STATE = 7 then 1 else 0)
  else if s.fld Pg.cfg Fld.CFG_CFG_STAT_STATE = 4 ∨ s.fld Pg.cfgh Fld.CFGH_H_STAT_STATE ≠ 0 then 1 else 0

/-- The pages that the boot function reaches. -/
def bootPage (pg : Nat) : Bool := pg == Pg.dev0 || pg == Pg.cfg || pg == Pg.cfgh || pg == Pg.nvs

/-- An access of an agent reaches a page: I2C and USB only from user enable on (Table 16.3), JTAG while WIN_EN is 1 (R481), the host as its functions
do (R382). -/
def State.reaches (s : State) (a pg : Nat) : Bool :=
  s.boot.held == 0 &&
    (if a = 3 ∨ a = 4 then s.userOn
     else if a = 5 then s.bit Pg.jtg Fld.JTG_JTG_CTRL_WIN_EN
     else if 0x08 ≤ a ∧ a < 0x10 then (s.hostMode == 2 || (s.hostMode == 1 && a == 8 && bootPage pg))
     else alwaysOn a || (pathBit a).isSome)

/-! ### Pages (R462, R5, R171) -/

/-- The kind and instance of a populated page of this part. -/
def State.page (s : State) (pg : Nat) : Option (PageKind × Nat) :=
  match pageOf pg with
  | none => none
  | some (k, i) =>
    if (!s.hasUcie && (k == .uci || k == .uciM || (k == .stop && decide (60 ≤ i)))) || (k == .uciM && !s.uciPresent i) then none else some (k, i)

/-- The domain of a page's unit (R424): 0 die, 1 lantern, 2 quad; and its number. -/
def pageDomain : PageKind → Nat → Option (Nat × Nat)
  | .fabCtl, i | .fabXng, i | .fabMem, i | .fabSlt, i | .dc, i | .eccF, i | .dlk, i => some (0, i)
  | .fabPrt, i => some (0, i / 8)
  | .engCtl, i | .engSr, i => some (1, i / 4)
  | .lan, i => some (1, i)
  | .lane, i => some (2, i / 4)
  | _, _ => none

/-- A domain is powered. -/
def State.domOn (s : State) (kind i : Nat) : Bool :=
  match kind with
  | 0 => s.fld (Pg.fabCtl i) Fld.FABCTL_DIE_STAT_PWR_STATE != 0
  | 1 => s.lanOn i
  | _ => s.laneState (4 * i) != 0

/-- A unit is held in reset after self-test (R21): the FAIL registers of BIST. -/
def State.heldOut (s : State) (k : PageKind) (i : Nat) : Bool :=
  let b (f : Fld) (n : Nat) : Bool := s.heldBit f n
  match k with
  | .fabCtl | .fabXng | .fabMem | .fabSlt | .eccF | .dlk => b Fld.BIST_FAIL_DIE_DIE i
  | .fabPrt => b Fld.BIST_FAIL_DIE_DIE (i / 8)
  | .dc => b Fld.BIST_FAIL_DIE_DC i
  | .lan => b Fld.BIST_FAIL_LAN_LAN i
  | .engCtl | .engSr => b Fld.BIST_FAIL_LAN_LAN (i / 4)
  | .lane => if i / 4 < 32 then b Fld.BIST_FAIL_QUAD_LO_QUAD (i / 4) else b Fld.BIST_FAIL_QUAD_HI_QUAD (i / 4 - 32)
  | .chk => b Fld.BIST_FAIL_ENG_CHK i
  | .scrub => b Fld.BIST_FAIL_ENG_SCRUB i
  | .hbmStk => b Fld.BIST_FAIL_ENG_HBM i
  | .hbmPc => b Fld.BIST_FAIL_ENG_HBM (i / 8)
  | .ddrCtl | .ddrRmt => b Fld.BIST_FAIL_ENG_DDR i
  | .uciM => b Fld.BIST_FAIL_PORT_UCIE i
  | .host | .hostLnk => s.bit Pg.bist Fld.BIST_FAIL_PORT_HOST
  | .nvs => s.bit Pg.bist Fld.BIST_FAIL_PORT_NV
  | _ => false

/-- PG_STAT (Table 19.3): OFF, ABSENT, READY. -/
def State.pgStat (s : State) (k : PageKind) (i : Nat) : Word :=
  let off := (pageDomain k i).any fun d => !s.domOn d.1 d.2
  let absent := s.heldOut k i
  BitVec.ofNat 32 ((!off && !absent).toNat + 2 * absent.toNat + 4 * off.toNat)

/-! ### Views: registers that show state held elsewhere -/

/-- The header registers. -/
def State.headerView (s : State) (a : Nat) (k : PageKind) (i pg off : Nat) : Word :=
  let v := s.reg pg off
  if off = Reg.PG_PG_ID then BitVec.ofNat 32 (k.base * 2 ^ 16 + i * 2 ^ 8 + 1)
  else if off = Reg.PG_PG_CAP then
    (k.trbUsed <<< 8) ||| BitVec.ofNat 32 (4 * k.lockable.toNat + 2 * k.srst.toNat)
  else if off = Reg.PG_PG_STAT then s.pgStat k i
  else if off = Reg.PG_PG_LOCK then
    withField v 29 1 (v.getLsbD 31 && fieldOf v 16 8 == a).toNat
  else v

/-- A register of ENGn_SR (Table 05.8): 0 while the engine is OFF. -/
def State.engView (s : State) (e off : Nat) : Word :=
  let c := (s.eng e).core
  if s.engState e = 0 then 0
  else if off < 0x100 then c.srRead e ((off - 0x080) / 4)
  else if off < 0x180 then c.sVal ((off - 0x100) / 4)
  else if off = 0x180 then c.eVal 3 ++ c.eVal 2 ++ c.eVal 1 ++ c.eVal 0
  else if off = 0x184 then c.eVal 7 ++ c.eVal 6 ++ c.eVal 5 ++ c.eVal 4
  else if off = 0x188 then c.p.setWidth 32
  else if off = 0x1C0 then s.reg (Pg.engSr e) off
  else
    let sel := (s.reg (Pg.engSr e) Reg.ENGSR_VA_SEL).toNat
    let j := (off - 0x200) / 4
    if 256 ≤ sel then BitVec.ofNat 32 (fieldOf (c.aVal (sel % 64)) (32 * j) 32)
    else if j < 16 then BitVec.ofNat 32 (fieldOf (mgetD 0 c.v (sel % 64)) (32 * j) 32) else 0

/-- The queue that Q_SEL shows. -/
def State.qSel (s : State) : Nat := s.fld Pg.tq Fld.TQ_Q_SEL_QUEUE

/-- A register of TQ (Tables 14.7 and 14.8). -/
def State.tqView (s : State) (off : Nat) : Word :=
  let x := s.queue s.qSel
  if off = Reg.TQ_Q_PEER then x.peer
  else if off = Reg.TQ_Q_CFG then x.cfg
  else if off = Reg.TQ_Q_CRED then
    BitVec.ofNat 32 (x.held.length % 256 * 2 ^ 16 + x.txAvail % 256 * 2 ^ 8 + x.rxCredits.toNat)
  else if off = Reg.TQ_Q_TXSEQ then (x.tx.setWidth 24).setWidth 32
  else if off = Reg.TQ_Q_RXSEQ then (x.rx.setWidth 24).setWidth 32
  else if off = Reg.TQ_RT_DATA then s.rtEntry.setWidth 32
  else if off = Reg.TQ_PERR_LO then
    match s.tq.perr with | [] => 0 | p :: _ => BitVec.ofNat 32 p.offset
  else if off = Reg.TQ_PERR_HI then
    match s.tq.perr with
    | [] => 0
    | p :: _ =>
      let v := withField (0 : Word) Fld.TQ_PERR_HI_VALID.lo 1 1
      let v := withField v Fld.TQ_PERR_HI_STATUS.lo Fld.TQ_PERR_HI_STATUS.width p.status.no
      let v := withField v Fld.TQ_PERR_HI_QUEUE.lo Fld.TQ_PERR_HI_QUEUE.width p.queue
      withField v Fld.TQ_PERR_HI_OFF32.lo 1 (p.offset / 2 ^ 32)
  else s.reg Pg.tq off

/-- An alarm condition of GUAR_STAT (Table 18.9). -/
def State.guarStat (s : State) : Word :=
  let roc := ((List.range 164).any fun i => decide (1680 < (BitVec.ofNat 16 (s.fld Pg.thm (Fld.THM_TEMP_TEMP i))).toInt))
    || ((List.range 88).any fun j => s.bit Pg.thm (Fld.THM_VMON_WARN j))
  let raw := !s.integ.rawMode.isEmpty
  let ptOff := (List.range 8).any fun m =>
    s.fld (Pg.fabCtl m) Fld.FABCTL_DIE_STAT_PWR_STATE == 3 && !s.bit (Pg.eccF m) Fld.ECC_FRM_CTRL_PT_EN
  let out := !s.pairs.out.isEmpty || !s.pairs.quar.isEmpty
  let low := out.toNat + 2 * ptOff.toNat + 4 * raw.toNat + 8 * roc.toNat
  BitVec.ofNat 32 (low + 16 * s.fld Pg.alm Fld.ALM_GUAR_STAT_HOLDOFF + 2 ^ 31 * (low == 0 && s.userOn).toNat)

/-- A register of ALM (Table 18.8): the queue shows its oldest record. -/
def State.almView (s : State) (off : Nat) : Word :=
  let r := s.alarms.headD ⟨0, 0, 0, 0⟩
  if off = Reg.ALM_GUAR_STAT then s.guarStat
  else if off = Reg.ALM_Q_STAT then BitVec.ofNat 32 s.alarms.length
  else if off = Reg.ALM_Q_REC then BitVec.ofNat 32 (r.code * 2 ^ 24 + r.page)
  else if off = Reg.ALM_Q_DETAIL then r.detail
  else if off = Reg.ALM_Q_TIME_LO then BitVec.ofNat 32 r.ns
  else if off = Reg.ALM_Q_TIME_HI then BitVec.ofNat 32 (r.ns / 2 ^ 32)
  else s.reg Pg.alm off

/-- A register of EMB (Table 17.14): the ember state; nothing of it where the domain has no supply. -/
def State.embView (s : State) (off : Nat) : Word :=
  let i := s.fld Pg.emb Fld.EMB_LOG_IDX_INDEX
  if off = Reg.EMB_EMB_STAT then
    BitVec.ofNat 32 (s.ember.onVbat.toNat * 2 ^ 31 + s.ember.low.toNat * 2 ^ 30 + s.tamperLevels / 2 % 2 * 2 ^ 29 + s.tamperLevels % 2 * 2 ^ 28)
  else if off = Reg.EMB_TIME_LO then s.emberTime.setWidth 32
  else if off = Reg.EMB_TIME_HI then s.emberTime.extractLsb' 32 32
  else if off = Reg.EMB_LOG_TS_LO then (s.emberEntry i).ts.setWidth 32
  else if off = Reg.EMB_LOG_TS_HI then (s.emberEntry i).ts.extractLsb' 32 32
  else if off = Reg.EMB_LOG_EVT then (s.emberEntry i).evt
  else s.reg Pg.emb off

/-- The level sources of ALERT_SRC (Table 17.2) beside the latched ones. -/
def State.alertSrc (s : State) : Word :=
  let st := s.fld Pg.cfg Fld.CFG_CFG_STAT_STATE
  let v := s.reg Pg.pwr Reg.PWR_ALERT_SRC &&& 0x1F
  let fail := st == 7 || (st == 4 && s.bit Pg.cfg Fld.CFG_LOAD_ERR_VALID)
  v ||| BitVec.ofNat 32 (32 * s.fld Pg.thm Fld.THM_THM_STAT_BACKSTOP + 64 * fail.toNat
    + 128 * (s.boot.doneWait && !s.userOn).toNat + 256 * s.fld Pg.clkRef Fld.REF_LOSS_STAT_SAFE)

/-! ### Open-drain pins -/

/-- What the device drives FAULT_N with of itself (R458, R21, R22, R370, R414): low from T0 until self-test has passed, while it is held in reset, while it is in the safe
state, while a management pair is held out, and while an enabled alarm bit is set. Without VCC_AUX nothing is driven (R512). -/
def State.faultLow (s : State) : Bool :=
  s.boot.held != 5 && (s.boot.held != 0 || !s.boot.bistDone || s.bit Pg.clkRef Fld.REF_LOSS_STAT_SAFE
    || s.fld Pg.bist Fld.BIST_FAIL_PORT_PAIR != 0 || s.reg Pg.alm Reg.ALM_ALM_SUM &&& s.reg Pg.alm Reg.ALM_FAULT_EN != 0)

/-- ALERT_N (R412, Table 17.2): a latched source counts where ALERT_EN enables it. -/
def State.alertLow (s : State) : Bool :=
  s.boot.held != 5 && (s.boot.held == 3 || s.alertSrc &&& (s.reg Pg.pwr Reg.PWR_ALERT_EN ||| 0xFFFFFFE0) != 0)

/-- DONE (R384). -/
def State.doneLow (s : State) : Bool := s.boot.held != 5 && (s.boot.held != 0 || !s.bit Pg.cfg Fld.CFG_CFG_STAT_DONE_OUT)

/-- Whether a system pin is pulled low: HIGHZ releases it, the other test instructions put the boundary cell on it; DONE stays low (R497). -/
def State.pulledLow (s : State) (p : BPin) (own : Bool) : Bool :=
  if !s.pinTest then own else if p = .done then true else s.mgmt.tap != 7 && !s.cell p
def State.faultN (s : State) : Bool := !s.pulledLow .faultN s.faultLow
def State.alertN (s : State) : Bool := !s.pulledLow .alertN s.alertLow
def State.doneOut (s : State) : Bool := !s.pulledLow .done s.doneLow

/-- A register of BIST (Table 20.6): record INDEX of the failure log; 0 at or above COUNT. -/
def State.bistView (s : State) (off : Nat) : Word :=
  let r := s.bist.log[s.fld Pg.bist Fld.BIST_MF_IDX_INDEX]?
  if off = Reg.BIST_MF_LO then (r.map Prod.fst).getD 0
  else if off = Reg.BIST_MF_HI then (r.map Prod.snd).getD 0
  else if off = Reg.BIST_MF_STAT then withField (s.reg Pg.bist off) 0 8 s.bist.log.length
  else s.reg Pg.bist off

/-- IF_STAT: an interface that is ON behind a closed gate shows GATED. -/
def State.ifStatView (s : State) (stop : Nat) : Word :=
  [0, 1, 2, 3].foldl (fun v i => if s.ifState stop i = 1 ∧ !(s.epIslands stop i).isEmpty then withField v (4 * i) 4 2 else v)
    (s.reg (Pg.stop stop) Reg.STOP_IF_STAT)

/-- The parked flits of an attachment point. -/
def State.parkedCount (s : State) (stop : Nat) : Nat :=
  (s.rings.parked.filter fun t => (s.txn t).any fun x => x.dst == stop).length

/-- What a read of a register gives beside its side effects. -/
def State.regView (s : State) (a : Nat) (k : PageKind) (i pg off : Nat) : Word :=
  if off < 0x080 then s.headerView a k i pg off
  else
    let v := s.reg pg off
    match k with
    | .engCtl => if off = Reg.ENG_STATUS then withField v 0 3 (s.engState i) else v
    | .engSr => s.engView i off
    | .tq => s.tqView off
    | .alm => s.almView off
    | .emb => s.embView off
    | .pwr =>
      let mask (kind lo n : Nat) : Word := BitVec.ofNat 32 (((List.range n).map fun j => if s.domOn kind (lo + j) then 2 ^ j else 0).sum)
      if off = Reg.PWR_ALERT_SRC then s.alertSrc
      else if off = Reg.PWR_DIE_PWR then mask 0 0 8
      else if off = Reg.PWR_LAN_PWR then mask 1 0 24
      else if off = Reg.PWR_QUAD_PWR_LO then mask 2 0 32
      else if off = Reg.PWR_QUAD_PWR_HI then mask 2 32 16 else v
    | .bist => s.bistView off
    | .stop =>
      if off = Reg.STOP_PARK_STAT then BitVec.ofNat 32 (s.parkedCount i)
      else if off = Reg.STOP_IF_STAT then s.ifStatView i else v
    | .fabCtl => if off = Reg.FABCTL_CREG_ACTIVE ∧ s.clk.failed then 0 else v
    | .key =>
      if off = Reg.KEY_KEK_STAT then withField v Fld.KEY_KEK_STAT_VALID.lo 1 s.keys.kek.isSome.toNat
      else if Reg.KEY_WRAP 0 ≤ off ∧ off ≤ Reg.KEY_WRAP 19 then 0 else v
    | .eccF | .eccMnt | .eccDram =>
      if off = Reg.ECC_RAW_STAT then
        withField v Fld.ECC_RAW_STAT_COUNT.lo Fld.ECC_RAW_STAT_COUNT.width
          (s.integ.rawMode.filter fun e => rawPage e.1 e.2.1 == pg).length
      else v
    | .lane =>
      if off = Reg.LN_ERRCNT_LO then BitVec.ofNat 32 (s.lane i).errs
      else if off = Reg.LN_ERRCNT_HI then BitVec.ofNat 32 ((s.lane i).errs / 2 ^ 32)
      else if off = Reg.LN_TREF ∧ i % 24 ≠ 0 then 0 else v
    | .mbx =>
      if off = Reg.MBX_MBX_INFO then withField v 30 1 s.pairs.active
      else if 0x400 ≤ off ∧ off % 0x100 = 4 then
        withField v 31 1 (s.chState ((off - 0x400) / 0x100) != 0 && s.chOwner ((off - 0x400) / 0x100) == a).toNat
      else v
    | .atb =>
      if off = Reg.ATB_ATB_STAT then
        let probe := s.mgmt.tap == 0x08
        BitVec.ofNat 32 ((probe || s.bit Pg.atb Fld.ATB_ATB_CTRL_EN).toNat * 2 ^ 31 + probe.toNat * 2 ^ 30
          + (decide (s.ns < s.mgmt.atbEnd)).toNat * 2 ^ 29)
      else v
    | _ => v

/-- What a read does before it answers: error counts of a running checker come in (R302), and what an equaliser has adapted to (R288). -/
def State.readSync (s : State) (k : PageKind) (i off : Nat) : State :=
  if k = .lane ∧ off = Reg.LN_ERRCNT_LO then s.errSync i
  else if k = .lane ∧ (off = Reg.LN_RXEQ ∨ (Reg.LN_DFE 0 ≤ off ∧ off ≤ Reg.LN_DFE 2)) then s.eqAdapt i (s.reg (Pg.lane i) Reg.LN_RXEQ)
  else s

/-- What a read has done afterwards: RT_DATA advances RT_IDX; levels and counters without a value have been drawn. -/
def State.readDone (s : State) (k : PageKind) (off : Nat) : State :=
  if k = .tq ∧ off = Reg.TQ_RT_DATA then s.rtAdvance
  else if k = .emb ∧ off = Reg.EMB_EMB_STAT then s.useFree
  else s

/-! ### Pairs of LO and HI (R469) -/

/-- The offsets of the LO registers of a page kind; HI follows at the next offset. -/
def loRegs : PageKind → List Nat
  | .sc => [Reg.SC_LAST_POISON_LO]
  | .dir => [Reg.DIR_CMO_BASE_LO]
  | .repair => [Reg.REP_ENTRY_LO]
  | .chk => [Reg.CHK_SRC_LO, Reg.CHK_DST_LO, Reg.CHK_EXPECT_LO, Reg.CHK_RESULT_LO]
  | .lane => [Reg.LN_USER_LO, Reg.LN_ERRCNT_LO, Reg.LN_PAUSE_SA_LO]
  | .tq => [Reg.TQ_SERIAL_LO, Reg.TQ_PERR_LO]
  | .cfg => [Reg.CFG_PR_SRC_LO]
  | .pwr => [Reg.PWR_QUAD_PWR_LO]
  | .emb => [Reg.EMB_TIME_LO, Reg.EMB_LOG_TS_LO]
  | .alm => [Reg.ALM_Q_TIME_LO]
  | .host => (List.range 8).flatMap fun p => [Reg.HOST_PF_AP_LO p, Reg.HOST_VF_AP_LO p]
  | .bist => [Reg.BIST_FAIL_QUAD_LO, Reg.BIST_MF_LO]
  | .hbmPc => [0, 1, 2, 3].map fun b => 0x080 + 0x40 * b + Reg.CB_ERR_LO
  | .ddrCtl => [0, 1].map fun b => 0x100 + 0x40 * b + Reg.CB_ERR_LO
  | _ => []

/-- The key of an agent's record of a HI register. -/
def hiKey (a pg off : Nat) : Nat := a * 2 ^ 23 + regKey pg off

/-! ### Reads -/

/-- An agent reads a register: the word, and the state after the side effects. A read that reaches no page, comes on a disabled path or names
no register gives 0 (R462, R466, R471). -/
def State.winRead (s : State) (a pg off : Nat) : Word × State :=
  let off := off / 4 * 4
  if !s.reaches a pg || !s.pathRd a then (0, s)
  else match s.page pg with
  | none => (0, s)
  | some (k, i) =>
    match regAt k i off with
    | none => (0, s)
    | some _ =>
      let s := s.readSync k i off
      match mget s.hiRec (hiKey a pg off) with
      | some v => (v, { s with hiRec := mdel s.hiRec (hiKey a pg off) })
      | none =>
        let v := s.regView a k i pg off
        let s' : State := if (loRegs k).contains off then
            { s with hiRec := mput s.hiRec (hiKey a pg (off + 4)) (s.regView a k i pg (off + 4)) } else s
        (v, s'.readDone k off)

/-! ### Refusals (R471) -/

/-- A page records a refusal and raises REFUSED. -/
def State.refuse (s : State) (a pg off reason : Nat) : State :=
  let v : Word := BitVec.ofNat 32 (2 ^ 31 + reason * 2 ^ 24 + a % 256 * 2 ^ 16 + off % 4096)
  (s.setReg pg Reg.PG_PG_REFUSE v).raise pg Fld.PG_PG_EVT_REFUSED

/-- An agent holds a page's lock; the configuration controller writes as if it did (R474). -/
def State.holdsLock (s : State) (a pg : Nat) : Bool :=
  a == 2 || (s.bit pg Fld.PG_PG_LOCK_HELD && s.fld pg Fld.PG_PG_LOCK_OWNER == a)

end Sys2Proof.Machine
end

