-- ==== Sys2Proof/Machine/Rules.lean ====
section
/-!
DEFINITION. When a page refuses a write (R471, R523, Table 19.18): for each register the reasons RANGE, BUSY, STATE and CHILD that its chapter gives.
A check is a list of reasons with their conditions; the first that holds is the reason.
-/
namespace Sys2Proof.Machine

/-- The refusal reasons (Table 19.6). -/
def rRO : Nat := 1
def rRESERVED : Nat := 2
def rRANGE : Nat := 3
def rSTATE : Nat := 4
def rLOCK : Nat := 5
def rPATH : Nat := 6
def rBUSY : Nat := 7
def rCHILD : Nat := 8
def rSIZE : Nat := 9
def rOFFSET : Nat := 0xA

/-- A check: reasons with their conditions. -/
abbrev Check := List (Nat × Bool)

def outside (x lo hi : Nat) : Bool := decide (x < lo) || decide (hi < x)
/-- Two words differ in a field. -/
def differs (a b : Word) (x : Fld) : Bool := fieldOf a x.lo x.width != fieldOf b x.lo x.width
/-! ### Fabric, engines, attachment points, caches -/

def State.ckFabPrt (s : State) (pg off : Nat) (v : Word) : Check :=
  if off = Reg.FABPRT_PORT_CTRL then [(rSTATE, wb v Fld.FABPRT_PORT_CTRL_ENABLE && s.fld pg Fld.FABPRT_PORT_CTRL_MODE == 0)]
  else if off = Reg.FABPRT_TGT_TIMEOUT then [(rRANGE, outside (wf v Fld.FABPRT_TGT_TIMEOUT_TIMEOUT_US) 1 10000)] else []

/-- CREG_GATE: a region in use is not gated (R54, R365). -/
def State.ckFabCtl (s : State) (m off : Nat) (v : Word) : Check :=
  if off = Reg.FABCTL_CREG_GATE then
    [(rCHILD, (closeBusy (s.fld (Pg.fabCtl m) Fld.FABCTL_CREG_GATE_GATE) (wf v Fld.FABCTL_CREG_GATE_GATE) 16 (s.cregBusy m)).isSome)]
  else []

/-- Engine control (R127, R130, Table 05.7). -/
def State.ckEng (s : State) (e off : Nat) (v : Word) : Check :=
  let st := s.engState e
  let still := st == 1 || st == 3
  if off = Reg.ENG_CMD then
    [(rRANGE, decide (1 < (wf v Fld.ENG_CMD_STEP + wf v Fld.ENG_CMD_RESUME + wf v Fld.ENG_CMD_HALT))),
     (rSTATE, (wb v Fld.ENG_CMD_STEP || wb v Fld.ENG_CMD_RESUME) && !still)]
  else if off = Reg.ENG_PC then [(rSTATE, !still)]
  else if off = Reg.ENG_HALT_TIMEOUT then [(rRANGE, outside (wf v Fld.ENG_HALT_TIMEOUT_CYCLES) 16 1048575)]
  else if off = Reg.ENG_DLY_RANGE then
    [(rRANGE, decide (4096 < wf v Fld.ENG_DLY_RANGE_LEN) || decide (4096 < wf v Fld.ENG_DLY_RANGE_BASE + wf v Fld.ENG_DLY_RANGE_LEN))]
  else []

/-- The bits that a register of ENGn_SR does not define (Tables 04.2, 04.3 and 05.8). -/
def engSrReserved (off : Nat) : Word :=
  if off = 0x080 ∨ off = 0x088 ∨ off = 0x0BC ∨ off = 0x0C0 then 0xFFFFFFE0
  else if off = 0x084 then 0xFFFF0000
  else if off = 0x0A4 ∨ off = 0x0A8 then 0x7FFFE000
  else if off = 0x0AC ∨ off = 0x0B0 then 0xE0000000
  else if off = 0x0A0 ∨ off = 0x188 then 0xFFFFFF00 else if off = 0x1C0 then 0xFFFFFEC0 else 0

/-- The read-only fields of the writable special registers: SCNT and BXC of BXk (Table 04.3). -/
def engSrRo (off : Nat) : Word := if off = 0x0AC ∨ off = 0x0B0 then 0x1FFF00FF else 0

def State.ckEngSr (s : State) (e off : Nat) (v : Word) : Check :=
  let st := s.engState e
  let n := (off - 0x080) / 4
  let sel := (s.reg (Pg.engSr e) Reg.ENGSR_VA_SEL).toNat
  [(rRO, (decide (off < 0x100) && !srWritable n) || v &&& engSrRo off != 0), (rRESERVED, v &&& engSrReserved off != 0),
   (rRANGE, (decide (off < 0x100) && (n == 0x09 || n == 0x0A) && !blkOk v) || (off == 0x1C0 && v.getLsbD 8 && decide (7 < v.toNat % 64))),
   (rSTATE, !(st == 1 || st == 3) || (decide (0x240 ≤ off) && decide (sel < 256)))]

def State.ckLan (s : State) (k off : Nat) : Check :=
  if off = Reg.LAN_SYNC_CMD then [(rBUSY, s.bit (Pg.lan k) Fld.LAN_SYNC_STAT_BUSY)] else []

/-- Attachment points (R150, R160, R168). -/
def State.ckStop (s : State) (n off : Nat) (v : Word) : Check :=
  let pg := Pg.stop n
  let w := (off - 0x100) / 16
  if off = Reg.STOP_SNUFF_CTRL then
    [(rSTATE, (ifsOf (wf v Fld.STOP_SNUFF_CTRL_ON)).any (fun i => s.ifState n i != 4)
              || (ifsOf (wf v Fld.STOP_SNUFF_CTRL_SNUFF)).any fun i => !s.maySnuff n i)]
  else if off = Reg.STOP_SNUFF_TIMEOUT then [(rRANGE, outside (wf v Fld.STOP_SNUFF_TIMEOUT_US) 1 10000)]
  else if off = Reg.STOP_REQ_TIMEOUT then [(rRANGE, outside (wf v Fld.STOP_REQ_TIMEOUT_US) 10 10000)]
  else if off = Reg.STOP_FENCE then [(rBUSY, wf v Fld.STOP_FENCE_START &&& s.fld pg Fld.STOP_FENCE_BUSY != 0)]
  else if 0x100 ≤ off ∧ (off = Reg.STOP_WIN_BASE w ∨ off = Reg.STOP_WIN_LIMIT w) then [(rSTATE, s.bit pg (Fld.STOP_WIN_TEN_EN w))]
  else if 0x100 ≤ off ∧ off = Reg.STOP_WIN_TEN w then
    [(rSTATE, wb v (Fld.STOP_WIN_TEN_EN w) && decide (s.fld pg (Fld.STOP_WIN_LIMIT_LIMIT w) < s.fld pg (Fld.STOP_WIN_BASE_BASE w)))]
  else []

def State.ckDc (s : State) (m off : Nat) (v : Word) : Check :=
  if off = Reg.DC_DC_CTRL then [(rSTATE, wb v Fld.DC_DC_CTRL_FLUSH && s.dcState m != 1)] else []

def State.ckDir (s : State) (off : Nat) (v : Word) : Check :=
  let busy := s.bit Pg.dir Fld.DIR_CMO_CTRL_BUSY
  if off = Reg.DIR_CMO_LEN then [(rBUSY, busy)]
  else if off = Reg.DIR_CMO_CTRL then
    [(rRANGE, decide (1 < wf v Fld.DIR_CMO_CTRL_OP)), (rBUSY, wb v Fld.DIR_CMO_CTRL_START && busy),
     (rSTATE, wb v Fld.DIR_CMO_CTRL_START && !s.cmoRangeOk)]
  else if 0x200 ≤ off then [(rRANGE, v &&& 0x88888888 != 0)] else []

/-! ### DRAM -/

/-- The remap table of a controller forms a permutation within the part's row bits (R206). -/
def State.remapOk (s : State) (c : Nat) : Bool :=
  let rows := if c < 128 then 14 else if s.fld (Pg.ddrCtl ((c - 128) / 2)) Fld.DDR_CH_CFG_DENSITY = 0 then 16 else 17
  let perm := (List.range 17).map fun j => fieldOf (s.remapReg c (4 + 4 * (j / 6))) (5 * (j % 6)) 5
  (List.range 17).all (fun j => perm.contains j) && (List.range 17).all (fun j => decide (j < rows) || perm.getD j 31 == j)
    && fieldOf (s.remapReg c 0) 0 17 / 2 ^ rows == 0

/-- Neighbour refresh is enabled in a controller that a remap table serves. -/
def State.nrefOn (s : State) (cs : List Nat) : Bool := cs.any fun c => s.cb c Fld.CB_NREF_EN != 0

/-- A register of a controller's block (Table 08.7). -/
def State.ckCb (s : State) (c x : Nat) (v : Word) : Check :=
  if x = Reg.CB_PAGE_POL then [(rRANGE, decide (1000 < wf v Fld.CB_PAGE_POL_IDLE_NS))]
  else if x = Reg.CB_PWR_POL then
    [(rRANGE, decide (4000 < wf v Fld.CB_PWR_POL_SR_US) || (wf v Fld.CB_PWR_POL_PD_NS != 0 && outside (wf v Fld.CB_PWR_POL_PD_NS) 40 4000))]
  else if x = Reg.CB_NREF then [(rRANGE, outside (wf v Fld.CB_NREF_K) 6 16), (rSTATE, wb v Fld.CB_NREF_EN && !s.remapOk c)]
  else if x = Reg.CB_REF then
    let mode := wf v Fld.CB_REF_MODE
    [(rRANGE, mode == 3 || (mode == 1 && decide (c < 128)) || decide (8 < wf v Fld.CB_REF_POSTPONE_MAX)
        || (mode == 0 && decide (128 ≤ c) && decide (4 < wf v Fld.CB_REF_POSTPONE_MAX)))]
  else if x = Reg.CB_TRAIN then
    [(rRANGE, wf v Fld.CB_TRAIN_PERIOD_MS != 0 && outside (wf v Fld.CB_TRAIN_PERIOD_MS) 10 4000),
     (rBUSY, wb v Fld.CB_TRAIN_START && s.cb c Fld.CB_TRAIN_BUSY != 0)]
  else []

def State.ckStk (s : State) (n off : Nat) (v : Word) : Check :=
  if off = Reg.STK_SPEED then [(rRANGE, wf v Fld.STK_SPEED_RATE == 3)]
  else if 0x100 ≤ off then [(rSTATE, s.nrefOn ((List.range 32).map fun j => 32 * n + j))] else []

/-- CH_CFG within Table 08.1, and ILV over channels of one configuration (R201). -/
def State.ckDdr (s : State) (ch off : Nat) (v : Word) : Check :=
  if off = Reg.DDR_CH_CFG then
    let ranks := wf v Fld.DDR_CH_CFG_RANKS
    let density := wf v Fld.DDR_CH_CFG_DENSITY
    [(rRANGE, wf v Fld.DDR_CH_CFG_SPEED == 3 || !(ranks == 1 || ranks == 2) || density == 3 || (ranks == 2 && density != 0))]
  else if off = Reg.DDR_ILV ∧ ch = 0 then
    let n := match wf v Fld.DDR_ILV_SET with | 0 => 0 | 1 => 1 | 2 => 2 | _ => 4
    [(rSTATE, (List.range n).any fun c => s.reg (Pg.ddrCtl c) Reg.DDR_CH_CFG != s.reg (Pg.ddrCtl 0) Reg.DDR_CH_CFG)]
  else []

/-! ### Keys, integrity, check engines -/

def State.ckKey (s : State) (off : Nat) (v : Word) : Check :=
  if off = Reg.KEY_LOAD_CTRL then [(rBUSY, wb v Fld.KEY_LOAD_CTRL_START && s.bit Pg.key Fld.KEY_LOAD_STAT_BUSY)]
  else if off = Reg.KEY_EMB_ALARM_ACK then [(rSTATE, wb v Fld.KEY_EMB_ALARM_ACK_ACK && s.tamperActive)] else []

/-- A slot's registers (R232, R233). -/
def State.ckSlot (s : State) (g off : Nat) (v : Word) : Check :=
  let k := 256 * g + (off - 0x080) / 8
  let st := s.slotState k
  if off % 8 = 0 then
    let cmd := wf v (Fld.SLT_CFG_CMD 0)
    [(rRANGE, decide (2 < cmd)), (rBUSY, cmd == 2 && s.bit Pg.ime Fld.IME_PURGE_STAT_BUSY),
     (rSTATE, (cmd == 1 && !s.mayActivate k) || (cmd == 2 && !s.mayDisable k))]
  else [(rSTATE, st == 2 || st == 3)]

def State.ckScrub (s : State) (k off : Nat) (v : Word) : Check :=
  let pg := Pg.scrub k
  if off = Reg.SCR_SCR_CTRL then
    let t := wf v Fld.SCR_SCR_CTRL_TARGET
    let inst := wf v Fld.SCR_SCR_CTRL_INSTANCE
    let start := wb v Fld.SCR_SCR_CTRL_START
    [(rRANGE, start && State.scrubRange t inst),
     (rSTATE, start && (s.heldBit Fld.BIST_FAIL_ENG_SCRUB k || s.passState k == 1 || s.passState k == 4
        || s.scrubState t inst (s.fld pg Fld.SCR_START_IDX_INDEX) (s.fld pg Fld.SCR_LENGTH_UNITS)))]
  else if off = Reg.SCR_RATE then [(rRANGE, outside (wf v Fld.SCR_RATE_INTERVAL_MS) 1 60000)]
  else if off = Reg.SCR_TIMEOUT then [(rRANGE, outside (wf v Fld.SCR_TIMEOUT_US) 1 10000)] else []

def State.ckEcc (s : State) (pg off : Nat) (v : Word) : Check :=
  if off = Reg.ECC_RAW_SEL then [(rRANGE, rawSelRange pg (wf v Fld.ECC_RAW_SEL_TARGET) (wf v Fld.ECC_RAW_SEL_INSTANCE))]
  else if off = Reg.ECC_RAW_CTRL then
    let op := wf v Fld.ECC_RAW_CTRL_OP
    [(rRANGE, op == 0 || decide (5 < op)), (rBUSY, s.bit pg Fld.ECC_RAW_CTRL_BUSY), (rSTATE, s.rawRefused pg op)]
  else []

def State.ckRepair (s : State) (off : Nat) (v : Word) : Check :=
  if off = Reg.REP_LIST_CTRL then
    let op := wf v Fld.REP_LIST_CTRL_OP
    [(rRANGE, !(op == 0 || op == 1 || op == 2 || op == 4)), (rBUSY, s.bit Pg.repair Fld.REP_LIST_CTRL_BUSY),
     (rSTATE, op == 1 && decide (512 ≤ s.integ.staged.length))]
  else []

/-- A check engine (R268, Table 11.6): while BUSY only STOP is accepted. -/
def State.ckChk (s : State) (k off : Nat) (v : Word) : Check :=
  let pg := Pg.chk k
  let busy := s.bit pg Fld.CHK_JOB_STAT_BUSY
  if off = Reg.CHK_JOB_CTRL then
    let start := wb v Fld.CHK_JOB_CTRL_START
    [(rBUSY, busy && !(wb v Fld.CHK_JOB_CTRL_STOP && !start)),
     (rSTATE, start && (s.heldBit Fld.BIST_FAIL_ENG_CHK k || !s.chkStartOk k (wf v Fld.CHK_JOB_CTRL_MODE) (wf v Fld.CHK_JOB_CTRL_POLY)))]
  else if off = Reg.CHK_ALIVE_CFG then
    [(rRANGE, wb v Fld.CHK_ALIVE_CFG_RX_VALID || !skipWinOk (wb v Fld.CHK_ALIVE_CFG_WIDTH) (wf v Fld.CHK_ALIVE_CFG_SKIP_WIN)), (rBUSY, busy)]
  else if off = Reg.CHK_ALIVE_CNT then
    [(rBUSY, busy), (rSTATE, !s.bit pg Fld.CHK_ALIVE_CFG_WIDTH && v &&& 0xFF00FF00 != 0)]
  else [(rBUSY, busy)]

/-! ### Lanes and the host link -/

/-- Line code, PCS and FEC name a row of Table 12.1, whatever the rate. -/
def laneRowOk (pam4 : Bool) (pcs fec : Nat) : Bool :=
  [1250000, 20000000, 53125000].any fun k => laneModeOk pam4 pcs fec k

/-- The divided clock of a timing lane lies between 25 and 200 MHz (R292); the symbol rate of PAM4 is half the line rate. -/
def trefOk (pam4 : Bool) (kbps div : Nat) : Bool :=
  let baud := if pam4 then kbps / 2 else kbps
  decide (25000 * div ≤ baud) && decide (baud ≤ 200000 * div)

/-- The timing reference of a lane, where it is enabled, accepts a line code and a rate. -/
def State.trefKeeps (s : State) (l : Nat) (pam4 : Bool) (kbps : Nat) : Bool :=
  l % 24 != 0 || !s.bit (Pg.lane l) Fld.LN_TREF_EN || trefOk pam4 kbps (s.fld (Pg.lane l) Fld.LN_TREF_DIV)

/-- The fields of Li_CTRL that are written only in DISABLED (R284). -/
def laneStatic : List Fld := [Fld.LN_CTRL_OWNER, Fld.LN_CTRL_LINE, Fld.LN_CTRL_PCS, Fld.LN_CTRL_FEC, Fld.LN_CTRL_AN_EN, Fld.LN_CTRL_TRAIN_EN,
  Fld.LN_CTRL_PROBE_EN, Fld.LN_CTRL_PRECODE]

/-- Li_CTRL (R284, R289). -/
def State.ckLaneCtrl (s : State) (l : Nat) (v : Word) : Check :=
  let pg := Pg.lane l
  let old := s.reg pg Reg.LN_CTRL
  let st := s.laneState l
  let own := wf v Fld.LN_CTRL_OWNER
  let mode := [Fld.LN_CTRL_LINE, Fld.LN_CTRL_PCS, Fld.LN_CTRL_FEC].any (differs old v)
  let pam4 := wb v Fld.LN_CTRL_LINE
  let pcs := wf v Fld.LN_CTRL_PCS
  let fec := wf v Fld.LN_CTRL_FEC
  let an := wb v Fld.LN_CTRL_AN_EN
  let probe := wb v Fld.LN_CTRL_PROBE_EN
  let kbps := s.fld pg Fld.LN_RATE_KBPS
  [(rRANGE, own == 3 || decide (3 < pcs) || (mode && !laneRowOk pam4 pcs fec) || (an && probe) || (probe && own != 2) || (an && own != 1)),
   (rSTATE, (st != 1 && laneStatic.any (differs old v)) || (mode && (!laneModeOk pam4 pcs fec kbps || !s.trefKeeps l pam4 kbps))
      || (wb v Fld.LN_CTRL_RESTART && (st == 0 || st == 1 || st == 6)))]

/-- A register of a lane page (Table 12.11). -/
def State.ckLane (s : State) (l off : Nat) (v : Word) : Check :=
  let pg := Pg.lane l
  let old := s.reg pg off
  let st := s.laneState l
  let pam4 := s.bit pg Fld.LN_CTRL_LINE
  if off = Reg.LN_CTRL then s.ckLaneCtrl l v
  else if off = Reg.LN_RATE then
    let k := wf v Fld.LN_RATE_KBPS
    let clk := match mget s.design.laneClkKhz l with | some c => decide (k ≤ 240 * c) | none => true
    [(rRANGE, outside k 1250000 112500000),
     (rSTATE, (st != 1 && differs old v Fld.LN_RATE_KBPS) || !laneModeOk pam4 (s.lanePcs l) (s.fld pg Fld.LN_CTRL_FEC) k || !clk || !s.trefKeeps l pam4 k)]
  else if off = Reg.LN_TXFIR then
    [(rRANGE, !tapsOk (wf v Fld.LN_TXFIR_PRE) (wf v Fld.LN_TXFIR_MAIN) (wf v Fld.LN_TXFIR_POST)), (rSTATE, s.bit pg Fld.LN_TXFIR_SRC)]
  else if off = Reg.LN_RXEQ then
    [(rRANGE, wf v Fld.LN_RXEQ_CTLE_MODE == 3 || wf v Fld.LN_RXEQ_DFE_MODE == 3 || decide (12 < wf v Fld.LN_RXEQ_DFE_TAPS)
        || (wf v Fld.LN_RXEQ_CTLE_MODE != 2 && differs old v Fld.LN_RXEQ_CTLE))]
  else if Reg.LN_DFE 0 ≤ off ∧ off ≤ Reg.LN_DFE 2 then [(rSTATE, s.fld pg Fld.LN_RXEQ_DFE_MODE != 2)]
  else if off = Reg.LN_IDLE then [(rRANGE, outside (wf v Fld.LN_IDLE_BURST_NS) 100 4000)]
  else if off = Reg.LN_TREF then
    [(rRO, l % 24 != 0), (rRANGE, outside (wf v Fld.LN_TREF_DIV) 8 4095),
     (rSTATE, wb v Fld.LN_TREF_EN && !trefOk pam4 (s.fld pg Fld.LN_RATE_KBPS) (wf v Fld.LN_TREF_DIV))]
  else if off = Reg.LN_PAT then
    [(rRANGE, wf v Fld.LN_PAT_LOOPBACK == 3 || wf v Fld.LN_PAT_PATTERN == 7),
     (rSTATE, (st != 6 && (wb v Fld.LN_PAT_GEN_EN || wb v Fld.LN_PAT_CHK_EN || differs old v Fld.LN_PAT_LOOPBACK))
        || (wf v Fld.LN_PAT_PATTERN == 5 && !pam4))]
  else if off = Reg.LN_INJ then
    [(rRANGE, wf v Fld.LN_INJ_BURST_LEN == 0 || outside (wf v Fld.LN_INJ_RATE_EXP) 4 40), (rSTATE, wb v Fld.LN_INJ_FIRE && (s.lane l).inject)]
  else if off = Reg.LN_RXFIFO then
    [(rRANGE, outside (wf v Fld.LN_RXFIFO_MAX_FRAME) 64 9216), (rSTATE, wb v Fld.LN_RXFIFO_FRAMING && s.lanePcs l == 0)]
  else if off = Reg.LN_PAUSE then
    [(rRANGE, outside (wf v Fld.LN_PAUSE_ON) 1 256 || decide (wf v Fld.LN_PAUSE_ON ≤ wf v Fld.LN_PAUSE_OFF))]
  else []

def State.ckHostLnk (s : State) (off : Nat) (v : Word) : Check :=
  if off = Reg.HLNK_LINK_CTRL then
    [(rRANGE, outside (wf v Fld.HLNK_LINK_CTRL_MAX_SPEED) 1 5),
     (rSTATE, wb v Fld.HLNK_LINK_CTRL_RETRAIN && s.fld Pg.hostLnk Fld.HLNK_LINK_STAT_LTSSM != 3)]
  else []

def State.ckUciM (s : State) (u off : Nat) (v : Word) : Check :=
  if off = Reg.UCIM_M_CTRL then [(rSTATE, wb v Fld.UCIM_M_CTRL_RETRAIN && s.uciState u != 2)] else []

/-! ### Tequel -/

def State.ckTq (s : State) (off : Nat) (v : Word) : Check :=
  let manual := s.bit Pg.tq Fld.TQ_ELECT_MANUAL
  let x := s.queue s.qSel
  let on := x.cfg.getLsbD 31
  if off = Reg.TQ_NODE then
    [(rSTATE, !manual || (s.bit Pg.tq Fld.TQ_NODE_VALID && differs (s.reg Pg.tq off) v Fld.TQ_NODE_ID && wb v Fld.TQ_NODE_VALID)
        || (s.bit Pg.tq Fld.TQ_NODE_VALID && differs (s.reg Pg.tq off) v Fld.TQ_NODE_ID))]
  else if off = Reg.TQ_ELECT then [(rRANGE, wb v Fld.TQ_ELECT_START && wb v Fld.TQ_ELECT_MANUAL)]
  else if off = Reg.TQ_RMT_TIMEOUT ∨ off = Reg.TQ_GAP_TIMEOUT then [(rRANGE, outside (wf v Fld.TQ_RMT_TIMEOUT_US) 10 10000)]
  else if off = Reg.TQ_RT_DATA then [(rRANGE, !outside (wf v Fld.TQ_RT_DATA_SPAN) 0x18 0x1D), (rSTATE, !manual)]
  else if off = Reg.TQ_Q_PEER then [(rSTATE, on)]
  else if off = Reg.TQ_Q_CRED then [(rRANGE, wf v Fld.TQ_Q_CRED_RX_CREDITS == 0), (rSTATE, on)]
  else if off = Reg.TQ_Q_CFG then
    [(rSTATE, (on && [Fld.TQ_Q_CFG_KEY_IDX, Fld.TQ_Q_CFG_MEM_KID, Fld.TQ_Q_CFG_TENANT].any (differs x.cfg v))
        || (!on && v.getLsbD 31 && !s.queueEnableOk s.qSel v))]
  else []

/-- The lanes that a span's registers name: the first WIDTH entries. -/
def spanNames (width : Nat) (l0 l1 : Word) : List Nat :=
  (List.range width).map fun j => if j < 4 then fieldOf l0 (8 * j) 8 else fieldOf l1 (8 * (j - 4)) 8

/-- A register of a span's page (R330). -/
def State.ckSpan (s : State) (sp off : Nat) (v : Word) : Check :=
  let pg := Pg.span sp
  let on := s.bit pg Fld.SPAN_SP_CTRL_ENABLE
  let width := if off = Reg.SPAN_SP_CTRL then wf v Fld.SPAN_SP_CTRL_WIDTH else s.fld pg Fld.SPAN_SP_CTRL_WIDTH
  let l0 := if off = Reg.SPAN_SP_LANES0 then v else s.reg pg Reg.SPAN_SP_LANES0
  let l1 := if off = Reg.SPAN_SP_LANES1 then v else s.reg pg Reg.SPAN_SP_LANES1
  let names := spanNames width l0 l1
  let other (l : Nat) : Bool := (List.range 24).any fun t => t != sp && s.bit (Pg.span t) Fld.SPAN_SP_CTRL_ENABLE
    && (spanNames (s.fld (Pg.span t) Fld.SPAN_SP_CTRL_WIDTH) (s.reg (Pg.span t) Reg.SPAN_SP_LANES0) (s.reg (Pg.span t) Reg.SPAN_SP_LANES1)).contains l
  let bad := names.any (fun l => s.laneOwner l != 2 || other l) || names.eraseDups.length != names.length
  let change := if off = Reg.SPAN_SP_CTRL then width != s.fld pg Fld.SPAN_SP_CTRL_WIDTH else true
  if off = Reg.SPAN_SP_CTRL ∨ off = Reg.SPAN_SP_LANES0 ∨ off = Reg.SPAN_SP_LANES1 then
    [(rRANGE, (off == Reg.SPAN_SP_CTRL && outside width 1 8) || names.any fun l => decide (191 < l)), (rSTATE, (on && change) || (!on && bad))]
  else []

/-- A register of an export window (Table 14.10). -/
def State.ckExp (s : State) (off : Nat) (v : Word) : Check :=
  let w := (off - 0x100) / 16
  let on := s.bit Pg.tqExp (Fld.EXP_OFF_EN w)
  if off = Reg.EXP_OFF w then
    let new := s.setReg Pg.tqExp off v
    [(rRANGE, outside (wf v (Fld.EXP_OFF_SIZE 0)) 12 33),
     (rSTATE, if on then [Fld.EXP_OFF_SIZE 0, Fld.EXP_OFF_OFF 0].any (differs (s.reg Pg.tqExp off) v) else wb v (Fld.EXP_OFF_EN 0) && !new.exportOk w)]
  else [(rSTATE, on)]

/-! ### Clocks -/

def State.ckRef (s : State) (off : Nat) (v : Word) : Check :=
  if off = Reg.REF_DPLL_CTRL then
    [(rRANGE, wf v Fld.REF_DPLL_CTRL_MASTER_SEL == 3 || wf v Fld.REF_DPLL_CTRL_SLEW == 3),
     (rSTATE, wb v Fld.REF_DPLL_CTRL_TO_MASTER && decide (s.dpllMode < 2))]
  else if off = Reg.REF_QUAL then
    [(rRANGE, outside (wf v Fld.REF_QUAL_QUAL_MS) 1 10000 || outside (wf v Fld.REF_QUAL_ACCEPT_PPM) 5 200)]
  else if off = Reg.REF_LOSS_CTRL then
    [(rRANGE, wf v Fld.REF_LOSS_CTRL_SAFE_WAIT_S == 0),
     (rSTATE, wb v Fld.REF_LOSS_CTRL_RELEASE && s.bit Pg.clkRef Fld.REF_LOSS_STAT_SAFE && decide (s.clk.safeStep < 3))]
  else []

/-- Loops (R362, R364, R365, R411). -/
def State.ckMl (s : State) (off : Nat) (v : Word) : Check :=
  if 0x500 ≤ off then
    let k := (off - 0x500) / 4
    let old := s.reg Pg.clkMl off
    [(rSTATE, [0, 1, 2, 3].any fun e => fieldOf old (2 * e) 2 != fieldOf v (2 * e) 2 && (let st := s.engState (4 * k + e); !(st == 0 || st == 1 || st == 3)))]
  else
    let l := (off - 0x080) / 16
    if off = Reg.ML_CFG l then
      let f := wf v (Fld.ML_CFG_FREQ_KHZ 0)
      let change := f != s.fld Pg.clkMl (Fld.ML_CFG_FREQ_KHZ l)
      [(rRANGE, change && (match loopRange l with | some r => outside f r.1 r.2 | none => true)), (rSTATE, change && s.loopState l != 0),
       (rCHILD, !wb v (Fld.ML_CFG_ON 0) && s.bit Pg.clkMl (Fld.ML_CFG_ON l) && (s.loopBusy l).isSome)]
    else if off = Reg.ML_THR l then
      [(rRANGE, decide (12 < wf v (Fld.ML_THR_SKIP 0)) || decide (56 ≤ l)),
       (rSTATE, s.bit Pg.thm Fld.THM_THM_STAT_BACKSTOP && decide (wf v (Fld.ML_THR_SKIP 0) < s.fld Pg.thm Fld.THM_THR_CTRL_SKIP_MAX))]
    else []

def State.ckClk (s : State) (off : Nat) (v : Word) : Check :=
  if off = Reg.CLK_MUX_CTRL then [(rSTATE, wb v Fld.CLK_MUX_CTRL_MX0_FORCE && !s.bit Pg.clkCtl Fld.CLK_MUX_STAT_MX0_HUNG)]
  else
    match (List.range 8).find? fun m => off == Reg.CLK_FDIE_GATE m with
    | some m => [(rCHILD, (closeBusy (s.reg Pg.clkCtl off).toNat v.toNat 32 (s.fdieBusy m)).isSome)]
    | none => []

/-! ### Configuration -/

/-- A block or deep memory of a region is in raw mode (R399). -/
def State.regionRaw (s : State) (die region : Nat) : Bool :=
  s.integ.rawMode.any fun e => (e.1 == 1 || e.1 == 2) && e.2.1 == die
    && s.design.regions.contains (die, region, if e.1 = 1 then e.2.2 / 96 else e.2.2 / 8)

def State.ckCfg (s : State) (off : Nat) (v : Word) : Check :=
  let busy := s.bit Pg.cfg Fld.CFG_PR_STAT_BUSY
  if off = Reg.CFG_DONE_CTRL then [(rRANGE, decide (60000 < wf v Fld.CFG_DONE_CTRL_WAIT_MS))]
  else if off = Reg.CFG_PR_CTRL then
    let start := wb v Fld.CFG_PR_CTRL_START
    let clear := wb v Fld.CFG_PR_CTRL_CLEAR
    let die := wf v Fld.CFG_PR_CTRL_DIE
    let region := wf v Fld.CFG_PR_CTRL_REGION
    let old := s.reg Pg.cfg off
    [(rRANGE, start && clear), (rBUSY, busy && (start || clear || differs old v Fld.CFG_PR_CTRL_DIE || differs old v Fld.CFG_PR_CTRL_REGION)),
     (rSTATE, (start || clear) && (!s.userOn || !s.hasRegion die region || (start && s.regionRaw die region)))]
  else if off = Reg.CFG_PR_SRC_LO then [(rRANGE, v.toNat % 64 != 0)]
  else if off = Reg.CFG_PR_RELEASE then [(rRANGE, decide (10000 < wf v Fld.CFG_PR_RELEASE_US))] else []

/-- Host load (R397). -/
def State.ckCfgh (s : State) (off : Nat) (v : Word) : Check :=
  let st := s.fld Pg.cfgh Fld.CFGH_H_STAT_STATE
  let ready := s.bit Pg.cfgh Fld.CFGH_H_STAT_READY
  if off = Reg.CFGH_H_CTRL then
    [(rSTATE, wb v Fld.CFGH_H_CTRL_START && !(s.fld Pg.cfg Fld.CFG_CFG_STAT_STATE == 4 && (st == 0 || st == 4)))]
  else if off = Reg.CFGH_H_DOORBELL then
    let len := wf v Fld.CFGH_H_DOORBELL_LEN
    [(rRANGE, outside len 4 2048 || len % 4 != 0),
     (rSTATE, st != 1 || !ready || wf v Fld.CFGH_H_DOORBELL_SEQ != (s.fld Pg.cfgh Fld.CFGH_H_STAT_ACK_SEQ + 1) % 256)]
  else if off = Reg.CFGH_H_TIMEOUT then [(rRANGE, outside (wf v Fld.CFGH_H_TIMEOUT_MS) 1 60000)]
  else if 0x800 ≤ off then [(rSTATE, !ready)] else []

/-- NV store updates (R403, R404). -/
def State.ckNvs (s : State) (off : Nat) (v : Word) : Check :=
  if off = Reg.NVS_UPD_CTRL then
    let bank := wf v Fld.NVS_UPD_CTRL_BANK
    let st := s.fld Pg.nvs Fld.NVS_UPD_STAT_STATE
    let busy := s.bit Pg.nvs Fld.NVS_UPD_STAT_BUSY
    let openB := wb v Fld.NVS_UPD_CTRL_OPEN
    let close := wb v Fld.NVS_UPD_CTRL_CLOSE
    let verify := wb v Fld.NVS_UPD_CTRL_VERIFY
    let flip := wb v Fld.NVS_UPD_CTRL_FLIP
    [(rRANGE, decide (1 < openB.toNat + close.toNat + verify.toNat + flip.toNat)), (rBUSY, busy && (openB || verify || flip)),
     (rSTATE, (st == 1 && differs (s.reg Pg.nvs off) v Fld.NVS_UPD_CTRL_BANK) || (openB && s.bankProtected bank)
        || (close && s.fld Pg.nvs Fld.NVS_NVS_STAT_IN_FLIGHT != 0) || (verify && st == 1)
        || (flip && !(st == 3 && s.fld Pg.nvs Fld.NVS_UPD_STAT_BANK == bank)))]
  else []

/-! ### Power, thermal, reset, ember -/

/-- The number of units of a domain kind. -/
def domCount (kind : Nat) : Nat := match kind with | 0 => 8 | 1 => 24 | _ => 48

/-- RESOURCES of the running image marks a unit (Table 16.8). -/
def State.marked (s : State) (kind i : Nat) : Bool :=
  match s.boot.running with
  | none => false
  | some img => img.resources.getLsbD (match kind with | 0 => i | 1 => 16 + i | _ => 40 + i)

/-- A domain command is refused for a cause other than BUSY and INDEX (R416). -/
def State.domRefused (s : State) (kind i : Nat) (on : Bool) : Bool :=
  let engs : List Nat := match kind with | 0 => (List.range 12).map fun j => 12 * i + j | 1 => (List.range 4).map fun j => 4 * i + j | _ => []
  let die := if kind = 1 then i / 3 else i
  s.domOn kind i == on || (kind == 1 && !s.domOn 0 die)
    || (if on then
          (kind != 2 && s.fld Pg.cfg Fld.CFG_CFG_STAT_SOURCE == 3) || !s.marked kind i
        else
          engs.any (fun e => let st := s.engState e; st == 2 || st == 4 || st == 5)
            || (kind == 0 && s.bit Pg.cfg Fld.CFG_PR_STAT_BUSY && s.fld Pg.cfg Fld.CFG_PR_STAT_DIE == i)
            || (kind == 2 && (List.range 4).any fun j => s.bit (Pg.lane (4 * i + j)) Fld.LN_CTRL_ENABLE))

def State.ckPwr (s : State) (off : Nat) (v : Word) : Check :=
  if off = Reg.PWR_DOM_CMD then
    let kind := wf v Fld.PWR_DOM_CMD_KIND
    let i := wf v Fld.PWR_DOM_CMD_INDEX
    let start := wb v Fld.PWR_DOM_CMD_START
    [(rRANGE, kind == 3 || (start && decide (domCount kind ≤ i))), (rBUSY, start && s.bit Pg.pwr Fld.PWR_DOM_STAT_BUSY),
     (rSTATE, start && s.domRefused kind i (wb v Fld.PWR_DOM_CMD_OP))]
  else []

def ckThm (off : Nat) (v : Word) : Check :=
  if off = Reg.THM_THR_CTRL then
    [(rRANGE, outside (wf v Fld.THM_THR_CTRL_SKIP_MAX) 1 12 || outside (wf v Fld.THM_THR_CTRL_HYST) 1 10 || outside (wf v Fld.THM_THR_CTRL_POINT) 90 105)]
  else []

def ckRst (off : Nat) (v : Word) : Check :=
  if off = Reg.RST_SYS_RESET then [(rRANGE, wf v Fld.RST_SYS_RESET_KEY != 0x5EB0)] else []

def State.ckEmb (s : State) (off : Nat) (v : Word) : Check :=
  if off = Reg.EMB_TAMPER0_CFG ∨ off = Reg.EMB_TAMPER1_CFG then
    [(rRANGE, wf v Fld.EMB_TAMPER0_CFG_FILTER_MS == 0), (rSTATE, s.bit Pg.emb Fld.EMB_EMB_CTRL_CFG_LOCK)]
  else if off = Reg.EMB_KEK_CTRL then [(rSTATE, wb v Fld.EMB_KEK_CTRL_INSTALL && s.keys.kek.isSome)] else []

/-! ### Alarms, host, management ports, tests -/

def State.ckAlm (s : State) (off : Nat) (v : Word) : Check :=
  if off = Reg.ALM_ADMIT_CTRL then
    let op := wf v Fld.ALM_ADMIT_CTRL_OP
    let kind := wf v Fld.ALM_ADMIT_CTRL_KIND
    let stop := wf v Fld.ALM_ADMIT_CTRL_STOP
    let sub := wf v Fld.ALM_ADMIT_CTRL_SUB
    let start := wb v Fld.ALM_ADMIT_CTRL_START
    [(rRANGE, outside op 1 3 || outside kind 1 3 || (start && s.admitRange op kind stop sub)),
     (rBUSY, start && s.bit Pg.alm Fld.ALM_ADMIT_STAT_BUSY), (rSTATE, start && s.admitState op kind stop sub)]
  else if off = Reg.ALM_ADMIT_CFG then
    [(rRANGE, outside (wf v Fld.ALM_ADMIT_CFG_QUAR_US) 10 10000 || outside (wf v Fld.ALM_ADMIT_CFG_STEP_US) 1 1000)]
  else []

/-- An aperture: base bits [31:20] and size in LO, base bits [47:32] in HI; `n` apertures of 2^SIZE bytes in a row (R485). -/
def apertureBad (lo hi : Word) (n : Nat) : Bool :=
  let size := fieldOf lo 0 6
  let base := fieldOf hi 0 16 * 2 ^ 32 + fieldOf lo 20 12 * 2 ^ 20
  size != 0 && (outside size 20 39 || base % 2 ^ size != 0 || (n != 1 && !inOneRange base (n * 2 ^ size)))

/-- The sum of the MSI-X table sizes with MSIX_SIZEp taken as v. -/
def State.msixSum (s : State) (p : Nat) (v : Word) : Nat :=
  (List.range 8).foldl (fun n q =>
    let x := if q = p then v else s.reg Pg.host (Reg.HOST_MSIX_SIZE q)
    n + wf x (Fld.HOST_MSIX_SIZE_PF 0) + 63 * wf x (Fld.HOST_MSIX_SIZE_VF 0)) 0

def State.ckHost (s : State) (a off : Nat) (v : Word) : Check :=
  let up := s.bit Pg.hostLnk Fld.HLNK_LINK_STAT_DL_UP
  if off = Reg.HOST_PATH_RD ∨ off = Reg.HOST_PATH_WR then [(rRANGE, (pathBit a).any fun b => !v.getLsbD b)]
  else if 0x100 ≤ off ∧ off < 0x200 then
    let p := (off - 0x100) / 0x20
    let x := off % 0x20
    let r (o : Nat) : Word := if x = o then v else s.reg Pg.host (0x100 + 0x20 * p + o)
    let bad :=
      if x = 0x14 then outside (wf v (Fld.HOST_MSIX_SIZE_PF 0)) 1 2048 || outside (wf v (Fld.HOST_MSIX_SIZE_VF 0)) 1 2048 || decide (2048 < s.msixSum p v)
      else if x = 0x00 ∨ x = 0x04 then apertureBad (r 0x00) (r 0x04) 1
      else if x = 0x08 ∨ x = 0x0C then apertureBad (r 0x08) (r 0x0C) 63
      else false
    [(rRANGE, bad), (rSTATE, x != 0x10 && up)]
  else []

/-- A register of MBX (R482). -/
def State.ckMbx (s : State) (off : Nat) (v : Word) : Check :=
  let c := (off - 0x400) / 0x100
  if off = Reg.MBX_MBX_TIMEOUT then [(rRANGE, outside (wf v Fld.MBX_MBX_TIMEOUT_MS) 1 10000)]
  else if off < 0x400 then []
  else if off % 0x100 = 0 then
    let cmd := wf v (Fld.MBX_CH_CTRL_CMD 0)
    let st := s.chState c
    [(rRANGE, decide (3 < cmd)), (rBUSY, cmd == 1 && st != 0), (rSTATE, (cmd == 2 && !(st == 1 || st == 4)) || (cmd == 3 && st == 3))]
  else if off % 0x100 = 8 then [(rRANGE, decide (128 < wf v (Fld.MBX_CH_REQ_LEN 0)))] else []

/-- An interface of a die's ring ports and die cache, or of its lanterns. -/
def dieIfs (m : Nat) : List (Nat × Nat) := (List.range 8).map (fun p => portAt (8 * m + p)) ++ [dcacheAt m]
def lanIfs (m : Nat) : List (Nat × Nat) := [0, 1, 2].map fun j => lanternAt (3 * m + j)

/-- START of a field test is refused (R493). -/
def State.fieldRefused (s : State) (kind i : Nat) : Bool :=
  let quar (x : Nat × Nat) : Bool := s.ifState x.1 x.2 == 6
  !s.userOn || kind == 4
    || (kind == 1 && (s.fld (Pg.fabCtl i) Fld.FABCTL_DIE_STAT_PWR_STATE != 3
          || (dieIfs i ++ lanIfs i).any fun x => !(quar x || s.ifState x.1 x.2 == 0)))
    || (kind == 2 && (!quar (lanternAt i) || (List.range 4).any fun j => let st := s.engState (4 * i + j); !(st == 1 || st == 3)))
    || (kind == 3 && (List.range 4).any fun j => s.bit (Pg.lane (4 * i + j)) Fld.LN_CTRL_ENABLE)

def State.ckBist (s : State) (off : Nat) (v : Word) : Check :=
  if off = Reg.BIST_FB_CTRL then
    let kind := wf v Fld.BIST_FB_CTRL_KIND
    let i := wf v Fld.BIST_FB_CTRL_INDEX
    let start := wb v Fld.BIST_FB_CTRL_START
    let top := match kind with | 1 => 8 | 2 => 24 | 3 => 48 | _ => 2
    [(rRANGE, outside kind 1 4 || decide (top ≤ i)), (rBUSY, start && s.bit Pg.bist Fld.BIST_FB_STAT_BUSY), (rSTATE, start && s.fieldRefused kind i)]
  else []

/-- A point of Table 20.4 that a bus can be connected to; ATB0 may not be connected to one that can be forced but by Table 20.4. -/
def atbPoint (p : Nat) : Bool :=
  decide (p ≤ 0x010) || !outside p 0x020 0x02B || !outside p 0x100 0x1BF || !outside p 0x1C0 0x1CF

def ckAtb (off : Nat) (v : Word) : Check :=
  if off = Reg.ATB_ATB_CTRL then [(rRANGE, wf v Fld.ATB_ATB_CTRL_LANE_PT == 3)]
  else if off = Reg.ATB_ATB0_SEL ∨ off = Reg.ATB_ATB1_SEL then [(rRANGE, !atbPoint (wf v Fld.ATB_ATB0_SEL_POINT))] else []

/-! ### All pages -/

/-- A header register (R463). -/
def ckHeader (k : PageKind) (off : Nat) (v : Word) : Check :=
  if off = Reg.PG_PG_CTRL then [(rRANGE, (wb v Fld.PG_PG_CTRL_SOFT_RESET && !k.srst) || !wb v Fld.PG_PG_CTRL_ENABLE)] else []

/-- The checks of a register. -/
def State.checks (s : State) (a : Nat) (k : PageKind) (i pg off : Nat) (v : Word) : Check :=
  if off < 0x080 then ckHeader k off v
  else match k with
  | .fabCtl => s.ckFabCtl i off v
  | .fabPrt => s.ckFabPrt pg off v
  | .engCtl => s.ckEng i off v
  | .engSr => s.ckEngSr i off v
  | .lan => s.ckLan i off
  | .stop => s.ckStop i off v
  | .dc => s.ckDc i off v
  | .dir => s.ckDir off v
  | .hbmStk => s.ckStk i off v
  | .hbmPc => s.ckCb (4 * i + (off - 0x080) / 0x40) ((off - 0x080) % 0x40) v
  | .ddrCtl => if off < 0x100 then s.ckDdr i off v else s.ckCb (128 + 2 * i + (off - 0x100) / 0x40) ((off - 0x100) % 0x40) v
  | .ddrRmt => [(rSTATE, s.nrefOn [128 + 2 * i, 129 + 2 * i])]
  | .key => s.ckKey off v
  | .keySlt => s.ckSlot i off v
  | .scrub => s.ckScrub i off v
  | .eccF | .eccMnt | .eccDram => s.ckEcc pg off v
  | .repair => s.ckRepair off v
  | .chk => s.ckChk i off v
  | .lane => s.ckLane i off v
  | .hostLnk => s.ckHostLnk off v
  | .uciM => s.ckUciM i off v
  | .tq => s.ckTq off v
  | .tqSpan => s.ckSpan i off v
  | .tqExp => s.ckExp off v
  | .clkRef => s.ckRef off v
  | .clkMl => s.ckMl off v
  | .clkCtl => s.ckClk off v
  | .cfg => s.ckCfg off v
  | .cfgh => s.ckCfgh off v
  | .nvs => s.ckNvs off v
  | .pwr => s.ckPwr off v
  | .thm => ckThm off v
  | .rst => ckRst off v
  | .emb => s.ckEmb off v
  | .alm => s.ckAlm off v
  | .host => s.ckHost a off v
  | .i2ct => if off = Reg.I2CT_I2C_CTRL then [(rRANGE, outside (wf v Fld.I2CT_I2C_CTRL_ADDR) 0x08 0x77)] else []
  | .usbd => if off = Reg.USBD_USB_CTRL then [(rRANGE, a == 4 && !wb v Fld.USBD_USB_CTRL_ATTACH)] else []
  | .jtg => if off = Reg.JTG_JTG_CTRL then [(rRANGE, a == 5 && !wb v Fld.JTG_JTG_CTRL_WIN_EN)] else []
  | .mbx => s.ckMbx off v
  | .bist => s.ckBist off v
  | .atb => ckAtb off v
  | .dev0 | .sc | .ime | .dlk | .dlkH | .uci | .fabXng | .fabMem | .fabSlt => []

/-- Writes that only the holder of the page's lock may make though their register holds no RWL field, lock commands of others, and the writes of a mailbox
channel by another than its owner (R230, R239, R430, R431, R423, R472, R482). -/
def State.lockExtra (s : State) (a : Nat) (k : PageKind) (pg off : Nat) (v : Word) : Bool :=
  let other := !s.holdsLock a pg
  if off = Reg.PG_PG_LOCK then
    let cmd := wf v Fld.PG_PG_LOCK_CMD
    let held := s.bit pg Fld.PG_PG_LOCK_HELD
    let mine := held && s.fld pg Fld.PG_PG_LOCK_OWNER == a
    (cmd == 1 && held && !mine) || ((cmd == 2 || cmd == 3) && !mine)
  else
    match k with
    | .key => other && (off == Reg.KEY_LOAD_CTRL || off == Reg.KEY_EMB_ALARM_ACK || !outside off (Reg.KEY_WRAP 0) (Reg.KEY_WRAP 19))
    | .keySlt => other && off % 8 == 0 && !outside off (Reg.SLT_CFG 0) (Reg.SLT_CFG 255)
    | .emb => other && (!outside off (Reg.EMB_KEK_W 0) (Reg.EMB_KEK_W 7) || (off == Reg.EMB_KEK_CTRL && wb v Fld.EMB_KEK_CTRL_INSTALL))
    | .rst => other && off == Reg.RST_SYS_RESET
    | .mbx =>
      let c := (off - 0x400) / 0x100
      let mine := s.chState c != 0 && s.chOwner c == a
      decide (0x400 ≤ off) && !mine &&
        (if off % 0x100 = 0 then (let cmd := wf v (Fld.MBX_CH_CTRL_CMD 0); cmd == 2 || cmd == 3)
         else decide (off % 0x100 = 8) || decide (0x80 ≤ off % 0x100))
    | _ => false

end Sys2Proof.Machine
end

