-- ==== Sys2Proof/Machine/Window0.lean ====
section
/-!
DEFINITION. Writes through the management window (R471 to R474): the reason of a refusal, the registers stored, and the effect of an
accepted write, but for the effects of start-up, power and tests (Machine/Window.lean adds them).
-/
namespace Sys2Proof.Machine

/-! ### Reasons -/

/-- A register holds a field of a code. -/
def RegDef.has (r : RegDef) (p : Acc → Bool) : Bool := r.fields.any fun f => p f.acc

/-- The bits of a register's fields whose code satisfies `p`. -/
def RegDef.bits (r : RegDef) (p : Acc → Bool) : Word :=
  r.fields.foldl (fun w f => if p f.acc then withField w f.lo f.width (2 ^ f.width - 1) else w) 0

/-- The bits that a register defines, block events by page (R463). -/
def RegDef.known (r : RegDef) (k : PageKind) (off : Nat) : Word :=
  if off = Reg.PG_PG_EVT then 0xE0000000 ||| k.evtMask else r.bits fun _ => true

/-- The reason why a write is refused, in the order of Table 19.6, if it is. -/
def State.writeReason (s : State) (a pg off be : Nat) (v : Word) : Option Nat :=
  if !s.pathWr a then some rPATH
  else if be ≠ 0xF then some rSIZE
  else match s.page pg with
  | none => some rOFFSET
  | some (k, i) =>
    match regAt k i off with
    | none => some rOFFSET
    | some (r, _) =>
      let early : Check :=
        [(rLOCK, (r.has (· == .rwl) && !s.holdsLock a pg) || s.lockExtra a k pg off v),
         (rRO, !(r.has (· != .ro)) || v &&& r.bits (· == .ro) != 0),
         (rRESERVED, v &&& ~~~(r.known k off) != 0)]
      ((early ++ s.checks a k i pg off v).find? fun c => c.2).map Prod.fst

/-- What a refusal does beside its record: counters of the block, the record of a busy gate. -/
def State.refusedEffect (s : State) (k : PageKind) (i off reason : Nat) (v : Word) : State :=
  match k with
  | .pwr => if off = Reg.PWR_DOM_CMD ∧ wb v Fld.PWR_DOM_CMD_START then s.trb Pg.pwr 0 else s
  | .cfgh => if off = Reg.CFGH_H_DOORBELL ∨ 0x800 ≤ off then s.trb Pg.cfgh 0 else s
  | .key => if off = Reg.KEY_EMB_ALARM_ACK then s.useFree else s
  | .fabCtl =>
    if reason = rCHILD then
      match closeBusy (s.fld (Pg.fabCtl i) Fld.FABCTL_CREG_GATE_GATE) (wf v Fld.FABCTL_CREG_GATE_GATE) 16 (s.cregBusy i) with
      | some b => s.gateRefused b
      | none => s
    else s
  | .clkMl =>
    if reason = rCHILD then
      match s.loopBusy ((off - 0x080) / 16) with
      | some b => s.gateRefused b
      | none => s
    else s
  | .clkCtl =>
    if reason = rCHILD then
      let m := (off - 0x100) / 4
      match closeBusy (s.reg Pg.clkCtl off).toNat v.toNat 32 (s.fdieBusy m) with
      | some b => s.gateRefused b
      | none => s
    else s
  | _ => s

/-! ### What is stored -/

/-- The content of a register after an accepted write (Table 00.4): W1S bits stay set in EMB_CTRL alone; elsewhere they, like
WO bits, are commands. -/
def RegDef.store (r : RegDef) (k : PageKind) (old v : Word) : Word :=
  r.fields.foldl (fun w f =>
    let new := fieldOf v f.lo f.width
    match f.acc with
    | .rw | .rwl | .rwh => withField w f.lo f.width new
    | .w1c => w &&& ~~~(withField (0 : Word) f.lo f.width new)
    | .w1s => if k == .emb then w ||| withField (0 : Word) f.lo f.width new else w
    | .ro | .wo => w) old

/-- Registers whose content is held elsewhere in the state. -/
def storedElsewhere (k : PageKind) (off : Nat) : Bool :=
  match k with
  | .fabPrt => off == Reg.FABPRT_PORT_CTRL
  | .engSr => decide (0x080 ≤ off) && off != Reg.ENGSR_VA_SEL
  | .tq => [Reg.TQ_NODE, Reg.TQ_RT_DATA, Reg.TQ_Q_PEER, Reg.TQ_Q_CFG, Reg.TQ_Q_CRED, Reg.TQ_PERR_HI].contains off
  | .mbx => decide (0x400 ≤ off) && off % 0x100 == 0
  | _ => false

/-! ### Effects of single pages -/

/-- A write of the header (Table 19.3). -/
def State.effHeader (s : State) (a : Nat) (k : PageKind) (i pg off : Nat) (v : Word) : State :=
  if off = Reg.PG_PG_CTRL then
    if wb v Fld.PG_PG_CTRL_SOFT_RESET then (if k = .engCtl then effEngReset i s else if k = .lane then effLaneReset i s else s) else s
  else if off = Reg.PG_PG_LOCK then
    match wf v Fld.PG_PG_LOCK_CMD with
    | 1 => if s.bit pg Fld.PG_PG_LOCK_HELD then s else (s.setFld pg Fld.PG_PG_LOCK_HELD 1).setFld pg Fld.PG_PG_LOCK_OWNER a
    | 2 => (((s.rawRelease pg).setFld pg Fld.PG_PG_LOCK_HELD 0).setFld pg Fld.PG_PG_LOCK_OWNER 0).setFld pg Fld.PG_PG_LOCK_BROKEN 0
    | 3 => s.setFld pg Fld.PG_PG_LOCK_BROKEN 0
    | _ => s
  else if off = Reg.PG_TRB_CLR then
    if wb v Fld.PG_TRB_CLR_CLR then (List.range 8).foldl (fun s n => s.setFld pg (Fld.PG_TRB_CNT n) 0) s else s
  else s

/-- Engine control: HALT, RESUME, STEP, PC. -/
def State.effEngCtl (s : State) (e off : Nat) (v : Word) : State :=
  if off = Reg.ENG_CMD then
    if wb v Fld.ENG_CMD_HALT then effHalt e s
    else if wb v Fld.ENG_CMD_STEP then effRun e true s
    else if wb v Fld.ENG_CMD_RESUME then effRun e false s else s
  else if off = Reg.ENG_PC then effPcWrite e s else s

/-- A register of ENGn_SR (Table 05.8). -/
def EngCore.pageWrite (c : EngCore) (sel off : Nat) (v : Word) : EngCore :=
  if off < 0x100 then c.srWrite ((off - 0x080) / 4) v
  else if off < 0x180 then c.setS ((off - 0x100) / 4) v
  else if off = 0x180 then [0, 1, 2, 3].foldl (fun c j => c.setE j (byteOf v j)) c
  else if off = 0x184 then [0, 1, 2, 3].foldl (fun c j => c.setE (4 + j) (byteOf v j)) c
  else if off = 0x188 then { c with p := v.setWidth 8 }
  else
    let j := (off - 0x200) / 4
    if 256 ≤ sel then c.setA (sel % 64) (withField (c.aVal (sel % 64)) (32 * j) 32 v.toNat)
    else if j < 16 then c.setVPhys (sel % 64) (withField (mgetD 0 c.v (sel % 64)) (32 * j) 32 v.toNat) else c

/-- An accepted write of ENGn_SR: both what the next bundle reads and what it has written so far (R130). -/
def effEngSr (e off : Nat) (v : Word) (s : State) : State :=
  if off = Reg.ENGSR_VA_SEL then s
  else
    let sel := (s.reg (Pg.engSr e) Reg.ENGSR_VA_SEL).toNat
    let g := s.eng e
    s.setEng e { g with core := g.core.pageWrite sel off v, next := g.next.pageWrite sel off v }

/-- Li_CTRL: ENABLE, RESTART, and what follows from owner and training fields. -/
def State.effLaneCtrl (s : State) (l : Nat) (v old : Word) : State :=
  let was := wb old Fld.LN_CTRL_ENABLE
  let now := wb v Fld.LN_CTRL_ENABLE
  let s := if now && !was then effLaneEnable l s else if was && !now then effLaneDisable l s else s
  let s := if wb v Fld.LN_CTRL_RESTART && now then effLaneRestart l s else s
  (s.syncTaps l).refSync l

/-- A lane's other registers. -/
def State.effLane (s : State) (l off : Nat) (v old : Word) : State :=
  if off = Reg.LN_CTRL then s.effLaneCtrl l v old
  else if off = Reg.LN_TREF then s.refSync l
  else if off = Reg.LN_RXEQ then s.eqWritten l old v
  else if Reg.LN_DFE 0 ≤ off ∧ off ≤ Reg.LN_DFE 2 then
    s.setReg (Pg.lane l) off (dfeWord (s.fld (Pg.lane l) Fld.LN_RXEQ_DFE_TAPS) ((off - Reg.LN_DFE 0) / 4) v)
  else if off = Reg.LN_PAT then
    if wb v Fld.LN_PAT_CHK_EN && !wb old Fld.LN_PAT_CHK_EN then s.setLane l { s.lane l with errs := 0 }
    else if !wb v Fld.LN_PAT_CHK_EN then (s.errSync l).setFld (Pg.lane l) Fld.LN_PAT_CHK_LOCK 0 else s
  else if off = Reg.LN_INJ then
    let s := if differs old v Fld.LN_INJ_MODE ∧ (s.lane l).rateStop then s.setLane l { s.lane l with rateStop := false } else s
    if wb v Fld.LN_INJ_FIRE then effFire l s else s
  else if off = Reg.LN_PAUSE ∨ off = Reg.LN_RXFIFO then s.pauseFollow l else s

/-- The interfaces of the switchable domains with ring interfaces. -/
def switchable : List (Nat × Nat) := (List.range 8).flatMap fun m => dieIfs m ++ lanIfs m

/-- PWR_CTRL.SERVICE: the manager sets or clears WAKE_EN of every interface of a switchable domain (R419). -/
def State.serviceApply (s : State) : State :=
  let wake := (s.bit Pg.pwr Fld.PWR_PWR_CTRL_SERVICE).toNat
  switchable.foldl (fun s (x : Nat × Nat) =>
    let f : Fld := { Fld.STOP_IF_CTRL_WAKE_EN with lo := Fld.STOP_IF_CTRL_WAKE_EN.lo + x.2, width := 1 }
    s.setFld (Pg.stop x.1) f wake) s

/-- PWR_CTRL is written: SERVICE; with AUTOGATE the gates of lanterns whose engines are idle close (R413). -/
def State.effPwrCtrl (s : State) (v old : Word) : State :=
  let s := if differs old v Fld.PWR_PWR_CTRL_SERVICE && s.managerRuns then s.serviceApply else s
  (List.range 24).foldl (fun s k => s.lanGate k) s

/-- The USB device leaves the bus (R478). -/
def State.usbDetach (s : State) : State :=
  let s := (s.setReg Pg.usbd Reg.USBD_USB_STAT 0).agentReset (· == 4)
  { s with mgmt.usbAddr := 0, mgmt.usbConf := 0 }

/-- A channel becomes DONE (Table 19.9 step 4). -/
def State.chDone (s : State) (c status len : Nat) : State :=
  let s := (s.setFld Pg.mbx (Fld.MBX_CH_RSP_STATUS c) status).setFld Pg.mbx (Fld.MBX_CH_RSP_LEN c) len
  let s := s.setFld Pg.mbx (Fld.MBX_CH_STAT_STATE c) 4
  s.raise Pg.mbx { Evt.MBX_DONE with lo := Evt.MBX_DONE.lo + c, width := 1 }

/-- CH_CTRL: CLAIM, GO, RELEASE. -/
def effChannel (a c cmd : Nat) (s : State) : State :=
  match cmd with
  | 1 => (s.setFld Pg.mbx (Fld.MBX_CH_STAT_STATE c) 1).setFld Pg.mbx (Fld.MBX_CH_STAT_OWNER c) a
  | 2 =>
    if s.bit Pg.mbx Fld.MBX_MBX_INFO_FW_RUN then s.setFld Pg.mbx (Fld.MBX_CH_STAT_STATE c) 2
    else (s.chDone c 4 0).trb Pg.mbx 2
  | 3 => s.chFree c
  | _ => s

/-- The queue registers of TQ act on the queue that Q_SEL shows (Table 14.8). -/
def State.effTq (s : State) (off : Nat) (v : Word) : State :=
  let q := s.qSel
  let x := s.queue q
  if off = Reg.TQ_NODE then effNodeWrite v s
  else if off = Reg.TQ_ELECT then (if wb v Fld.TQ_ELECT_START then effElectionStart s else s)
  else if off = Reg.TQ_RT_DATA then effRtData (v.setWidth 5) s
  else if off = Reg.TQ_Q_PEER then s.setQueue q { x with peer := v }
  else if off = Reg.TQ_Q_CRED then s.setQueue q { x with rxCredits := v.setWidth 8 }
  else if off = Reg.TQ_Q_CFG then (if x.cfg &&& 0xBFFFFDFF = v then s else effQueueCfg q v s)
  else if off = Reg.TQ_PERR_HI then (if v.getLsbD 31 then effPerrPop s else s)
  else s

/-- DPLL_CTRL: TO_MASTER, MASTER_SEL, REVERT. -/
def State.effDpll (s : State) (v : Word) : State :=
  (effMasterSel (if wb v Fld.REF_DPLL_CTRL_TO_MASTER then s.releaseRef else s)).reselect

/-- ML_CFGl.ON, and its frequency. -/
def State.effLoop (s : State) (l : Nat) (v old : Word) : State :=
  if wb v (Fld.ML_CFG_ON 0) && !wb old (Fld.ML_CFG_ON 0) then effLoopOn l s
  else if !wb v (Fld.ML_CFG_ON 0) && wb old (Fld.ML_CFG_ON 0) then effLoopOff l s else s

/-- Bits whose condition still holds stay set: level alarms, VBAT_LOW (R456, Table 17.2). -/
def State.levelKeep (s : State) : State :=
  s.levelAlarms.foldl (fun s (e : Nat × Nat) => s.setReg Pg.alm Reg.ALM_ALM_SUM (s.reg Pg.alm Reg.ALM_ALM_SUM ||| (1 : Word) <<< e.1)) s

/-- H_DOORBELL: a chunk is announced (R397). -/
def effDoorbell (v : Word) (s : State) : State :=
  let s := s.setFld Pg.cfgh Fld.CFGH_H_STAT_READY 0
  { s with boot.chunk := some (wf v Fld.CFGH_H_DOORBELL_LEN, wb v Fld.CFGH_H_DOORBELL_LAST) }

/-! ### All pages -/

/-- The effect of an accepted write, after the register has been stored; `old` is what it held. -/
def eff0 (a : Nat) (k : PageKind) (i pg off : Nat) (v old : Word) (s : State) : State :=
  if off < 0x080 then s.effHeader a k i pg off v
  else match k with
  | .fabCtl => if off = Reg.FABCTL_CREG_GATE then effCregGate i (wf old Fld.FABCTL_CREG_GATE_GATE) s else s
  | .fabMem => if off = Reg.FABMEM_LAST_ERR_LOC ∧ wb v Fld.FABMEM_LAST_ERR_LOC_VALID then s.setReg pg Reg.FABMEM_LAST_ERR_SYN 0 else s
  | .fabPrt => if off = Reg.FABPRT_PORT_CTRL then effPortEnable i (wb v Fld.FABPRT_PORT_CTRL_ENABLE) s else s
  | .engCtl => s.effEngCtl i off v
  | .engSr => effEngSr i off v s
  | .lan => if off = Reg.LAN_SYNC_CMD ∧ wb v Fld.LAN_SYNC_CMD_SYNC then effSync i s else s
  | .stop =>
    if off = Reg.STOP_SNUFF_CTRL then effIfOn i (wf v Fld.STOP_SNUFF_CTRL_ON) (effSnuff i (wf v Fld.STOP_SNUFF_CTRL_SNUFF) s)
    else if off = Reg.STOP_FENCE then effFence i (wf v Fld.STOP_FENCE_START) s else s
  | .dc => if off = Reg.DC_DC_CTRL ∧ wb v Fld.DC_DC_CTRL_FLUSH then effDcFlush i s else s
  | .dir =>
    if off = Reg.DIR_CMO_CTRL ∧ wb v Fld.DIR_CMO_CTRL_START then effRangeCmo (wf v Fld.DIR_CMO_CTRL_OP == 1) s
    else if off = Reg.DIR_DIE_LOST then effDieLost (wf v Fld.DIR_DIE_LOST_LOST) s else s
  | .hbmPc =>
    let c := 4 * i + (off - 0x080) / 0x40
    let x := (off - 0x080) % 0x40
    if x = Reg.CB_TRAIN ∧ wb v Fld.CB_TRAIN_START then effTrainStart c s
    else if x = Reg.CB_REF then effRef c (wf v Fld.CB_REF_MODE) s else s
  | .ddrCtl =>
    let c := 128 + 2 * i + (off - 0x100) / 0x40
    let x := (off - 0x100) % 0x40
    if off < 0x100 then s
    else if x = Reg.CB_TRAIN ∧ wb v Fld.CB_TRAIN_START then effTrainStart c s
    else if x = Reg.CB_REF then effRef c (wf v Fld.CB_REF_MODE) s else s
  | .key =>
    if off = Reg.KEY_LOAD_CTRL then (if wb v Fld.KEY_LOAD_CTRL_START then effKeyLoad s else s)
    else if off = Reg.KEY_EMB_ALARM_ACK then (if wb v Fld.KEY_EMB_ALARM_ACK_ACK then effAlarmAck s.useFree else s)
    else if Reg.KEY_WRAP 0 ≤ off then s.setReg pg off v else s
  | .keySlt =>
    let n := 256 * i + (off - 0x080) / 8
    if off % 8 ≠ 0 then s
    else match wf v (Fld.SLT_CFG_CMD 0) with
      | 1 => effActivate n s
      | 2 => effDisable n s
      | _ => s
  | .scrub =>
    if off = Reg.SCR_SCR_CTRL then
      let s := if wb v Fld.SCR_SCR_CTRL_STOP then effScrubStop i s else s
      if wb v Fld.SCR_SCR_CTRL_START then effScrubStart i s else s
    else s
  | .eccF | .eccMnt | .eccDram =>
    if off = Reg.ECC_RAW_CTRL ∧ wf v Fld.ECC_RAW_CTRL_OP ≠ 0 then effRaw pg (wf v Fld.ECC_RAW_CTRL_OP) s else s
  | .repair =>
    if off = Reg.REP_LIST_CTRL then
      match wf v Fld.REP_LIST_CTRL_OP with
      | 1 => effAddEntry s
      | 2 => effCommit s
      | 4 => effListWrite s
      | _ => s
    else s
  | .chk =>
    if off = Reg.CHK_JOB_CTRL then
      let s := if wb v Fld.CHK_JOB_CTRL_STOP then effJobStop i s else s
      if wb v Fld.CHK_JOB_CTRL_START then effJobStart i (wf v Fld.CHK_JOB_CTRL_MODE) (wf v Fld.CHK_JOB_CTRL_POLY) s else s
    else s
  | .lane => s.effLane i off v old
  | .hostLnk =>
    if off = Reg.HLNK_LINK_CTRL then (if wb v Fld.HLNK_LINK_CTRL_RETRAIN then s.setFld pg Fld.HLNK_LINK_STAT_LTSSM 4 else s)
    else if off = Reg.HLNK_MSIX_TRIG then s.msix (wf v Fld.HLNK_MSIX_TRIG_VECTOR) else s
  | .uciM =>
    if off = Reg.UCIM_M_CTRL then
      let was := wb old Fld.UCIM_M_CTRL_ENABLE
      let now := wb v Fld.UCIM_M_CTRL_ENABLE
      let s := if now && !was then effModuleEnable i s else if was && !now then effModuleDisable i s else s
      if wb v Fld.UCIM_M_CTRL_RETRAIN && now then effRetrain i s else s
    else s
  | .tq => s.effTq off v
  | .tqSpan =>
    if off = Reg.SPAN_SP_CTRL then
      let was := wb old Fld.SPAN_SP_CTRL_ENABLE
      let now := wb v Fld.SPAN_SP_CTRL_ENABLE
      if now && !was then effSpanEnable i s else if was && !now then effSpanDisable i s else s
    else s
  | .clkRef =>
    if off = Reg.REF_DPLL_CTRL then s.effDpll v
    else if off = Reg.REF_REF_PRIO then effRefPrio s else s
  | .clkMl =>
    if off < 0x500 ∧ (off - 0x080) % 16 = 0 then s.effLoop ((off - 0x080) / 16) v old else s
  | .clkCtl => if Reg.CLK_FDIE_GATE 0 ≤ off then effFdieGate ((off - 0x100) / 4) s else s
  | .cfgh =>
    if off = Reg.CFGH_H_DOORBELL then effDoorbell v s
    else if 0x800 ≤ off then { s with boot.hbuf := mputD 0 s.boot.hbuf ((off - 0x800) / 4) v } else s
  | .pwr =>
    if off = Reg.PWR_PWR_CTRL then s.effPwrCtrl v old
    else if off = Reg.PWR_ALERT_SRC then (if s.ember.low then s.alert 3 else s) else s
  | .emb =>
    if off = Reg.EMB_KEK_CTRL then
      let s := if wb v Fld.EMB_KEK_CTRL_INSTALL then effInstall s else s
      if wb v Fld.EMB_KEK_CTRL_ZEROISE then effZeroise s else s
    else if Reg.EMB_KEK_W 0 ≤ off then { s with ember.kekw := mputD 0 s.ember.kekw ((off - Reg.EMB_KEK_W 0) / 4) v } else s
  | .alm =>
    if off = Reg.ALM_ALM_SUM then s.levelKeep
    else if off = Reg.ALM_ADMIT_CTRL then
      if wb v Fld.ALM_ADMIT_CTRL_START then
        effAdmitStart (wf v Fld.ALM_ADMIT_CTRL_OP) (wf v Fld.ALM_ADMIT_CTRL_KIND) (wf v Fld.ALM_ADMIT_CTRL_STOP) (wf v Fld.ALM_ADMIT_CTRL_SUB) s
      else s
    else if off = Reg.ALM_Q_STAT ∧ wb v Fld.ALM_Q_STAT_POP then { s with alarms := s.alarms.drop 1 } else s
  | .usbd => if off = Reg.USBD_USB_CTRL ∧ !wb v Fld.USBD_USB_CTRL_ATTACH then s.usbDetach else s
  | .mbx => if 0x400 ≤ off ∧ off % 0x100 = 0 then effChannel a ((off - 0x400) / 0x100) (wf v (Fld.MBX_CH_CTRL_CMD 0)) s else s
  | .atb => if (off = Reg.ATB_ATB0_SEL ∨ off = Reg.ATB_ATB1_SEL) ∧ v ≠ old then { s with mgmt.atbEnd := s.ns + 1000 } else s
  | .dev0 | .sc | .ime | .dlk | .dlkH | .uci | .fabXng | .fabSlt | .tqExp | .hbmStk | .ddrRmt | .cfg | .nvs | .thm | .rst
  | .host | .i2ct | .jtg | .bist => s

/-- The effect of an accepted write: agent, page kind, instance, page, offset, value, old content. -/
abbrev WriteEffect := Nat → PageKind → Nat → Nat → Nat → Word → Word → State → State

/-- An accepted write: the register is stored, then its effect. -/
def State.winAccept (s : State) (eff : WriteEffect) (a pg off : Nat) (v : Word) : State :=
  match s.page pg with
  | none => s
  | some (k, i) =>
    match regAt k i off with
    | none => s
    | some (r, _) =>
      let old := s.reg pg off
      let t := if storedElsewhere k off then s else s.setReg pg off (r.store k old v)
      let u := eff a k i pg off v old t
      if off = Reg.PG_PG_EVT ∨ off = Reg.PG_PG_EVT_EN then s.evtEdge u pg else u

/-- An agent writes a register: the reason if it is refused, and the state. A write that reaches no page does nothing; a page that
does not exist records nothing (R462). -/
def State.winWriteWith (s : State) (eff : WriteEffect) (a pg off be : Nat) (v : Word) : Option Nat × State :=
  let off := off / 4 * 4
  if !s.reaches a pg then (some rPATH, s)
  else match s.writeReason a pg off be v with
  | none => (none, s.winAccept eff a pg off v)
  | some reason =>
    match s.page pg with
    | none => (some reason, s)
    | some (k, i) => (some reason, (s.refuse a pg off reason).refusedEffect k i off reason v)

/-- A write with the effects of this file: the configuration controller's (R474). -/
def State.winWrite0 (s : State) (a pg off be : Nat) (v : Word) : Option Nat × State := s.winWriteWith eff0 a pg off be v

end Sys2Proof.Machine
end

