-- ==== Sys2Proof/Machine/Domains.lean ====
section
/-!
DEFINITION. Domains: what a fabric die, a lantern or a lane quad loses with its power, and how it enters service (R165, R417, R418, R420, R424,
R425).
-/
namespace Sys2Proof.Machine

/-! ### What is lost -/

/-- The fabric of a die: memories, registers, ring ports take the values of the image again (R36, R46, R425). The crossing and pin registers stand in the
mantle and go on (R51, R55). -/
def State.fabClear (s : State) (m : Nat) : State :=
  let off (n k : Nat) : Bool := k / n != m
  { s with fab := { s.fab with
      bm := mkeep (off (6144 * 16384)) s.fab.bm, bmCycle := mkeep (off 6144) s.fab.bmCycle, writeBack := mkeep (off 12288) s.fab.writeBack,
      bmOut := mkeep (off 12288) s.fab.bmOut, bmFifo := mkeep (off 6144) s.fab.bmFifo, slices := mkeep (off 4096) s.fab.slices,
      cexp := mkeep (off 256) s.fab.cexp, rsp := mkeep (off 8) s.fab.rsp, outTags := mkeep (off 8) s.fab.outTags,
      tgt := mkeep (off 8) s.fab.tgt, lateTgt := mkeep (off 8) s.fab.lateTgt, disabling := s.fab.disabling.filter (off 8),
      siteMem := mkeep (off dieSites) s.fab.siteMem, userRegs := mkeep (off dieSites) s.fab.userRegs, iso := mkeep (off dieIsos) s.fab.iso } }

/-- The configuration memory of a die is lost, or written to zero. -/
def State.framesClear (s : State) (m : Nat) : State :=
  let out (k : Nat) : Bool := k / 131072 != m
  { s with integ := { s.integ with frames := mkeep out s.integ.frames, flips := mkeep out s.integ.flips, chkFlips := mkeep out s.integ.chkFlips,
                                   flags := s.integ.flags.filter out } }

/-- A lantern: engines and memories (R425). -/
def State.lanClear (s : State) (k : Nat) : State :=
  let out (n e : Nat) : Bool := e / n / 4 != k
  { s with engs := { eng := mkeep (out 1) s.engs.eng, prog := mkeep (out 4096) s.engs.prog, data := mkeep (out 32768) s.engs.data,
                     lan := mkeep (fun i => i / 131072 != k) s.engs.lan, wbProg := mkeep (out 4096) s.engs.wbProg,
                     wbData := mkeep (out 32768) s.engs.wbData, wbLan := mkeep (fun i => i / 131072 != k) s.engs.wbLan } }

/-- The pages of a die, a lantern and a quad whose D fields belong to it (R424). -/
def diePages (m : Nat) : List Nat := (List.range 12).map (fun j => 0x600 + 0x20 * m + j) ++ [Pg.dc m, Pg.eccF m, Pg.dlk m]
def lanPages (k : Nat) : List Nat := Pg.lan k :: (List.range 4).flatMap fun j => [Pg.engCtl (4 * k + j), Pg.engSr (4 * k + j)]
def quadPages (q : Nat) : List Nat := (List.range 4).map fun j => Pg.lane (4 * q + j)

/-- The memories of a domain leave raw mode when it is switched off (R258). -/
def State.rawOff (s : State) (kind i : Nat) : State :=
  s.rawDrop fun e => if kind = 0 then targetDie e.1 e.2.1 == some i else targetLan e.1 e.2.1 == some i

/-- An interface shows OFF unless it is held in reset. -/
def State.ifOff (s : State) (x : Nat × Nat) : State := if s.ifState x.1 x.2 = 5 then s else s.setIfState x.1 x.2 4

/-- A lantern's switches open; its interface has been snuffed (Table 17.4, step 5). -/
def State.lanDown (s : State) (k : Nat) : State :=
  let s := (((s.rawOff 1 k).lanClear k).domainReset (lanPages k)).setFld (Pg.lan k) Fld.LAN_LAN_STAT_PWR 0
  s.ifOff (lanternAt k)

/-- The crossing groups from a die into every other die present their clamp values, or its own values again (R52). -/
def State.clampDie (s : State) (m : Nat) (on : Bool) : State :=
  (List.range 8).foldl (fun s d =>
    if d = m then s
    else s.setFld (Pg.fabXng d) { Fld.FABXNG_XNG_CLAMPED_CLAMPED with lo := Fld.FABXNG_XNG_CLAMPED_CLAMPED.lo + m, width := 1 } on.toNat) s

/-- The sensors of a die without power read 0 (R409). -/
def State.sensorsOff (s : State) (m : Nat) : State :=
  (List.range 16).foldl (fun s j => s.setFld Pg.thm (Fld.THM_TEMP_TEMP (16 * m + j)) 0) s

/-- A die's switches open; its interfaces have been snuffed, its lanterns go with it. Its ports' agents lose their locks (Table 19.4). -/
def State.dieDown (s : State) (m : Nat) : State :=
  let s := [0, 1, 2].foldl (fun s j => s.lanDown (3 * m + j)) s
  let s := ((((s.rawOff 0 m).fabClear m).framesClear m).dcPowerOff m).domainReset (diePages m)
  let s := (s.setFld (Pg.fabCtl m) Fld.FABCTL_DIE_STAT_PWR_STATE 0).setFld (Pg.fabCtl m) Fld.FABCTL_DIE_STAT_CFG_DONE 0
  let s := (dieIfs m).foldl (fun s x => s.ifOff x) s
  ((s.sensorsOff m).clampDie m true).agentReset fun a => decide (0x40 + 8 * m ≤ a) && decide (a < 0x48 + 8 * m)

/-- A quad's switches open: its lanes are OFF. -/
def State.quadDown (s : State) (q : Nat) : State :=
  [0, 1, 2, 3].foldl (fun s j =>
    let l := 4 * q + j
    let s := s.laneOut l
    let s : State := { s with lanes := mdel s.lanes l }
    ((s.domainReset [Pg.lane l]).setFld (Pg.lane l) Fld.LN_STAT_STATE 0).refSync l) s

/-! ### Uncommanded power-off (R420) -/

/-- Snoops that a die cache held unanswered are answered DOMAIN_OFF as the interface goes off; each counts in TRB2 (Table 06.14). -/
def State.heldOff (s : State) (m : Nat) : State :=
  (s.coh.held.filter fun e => e.1 / 2 ^ 42 == m).foldl (fun s e =>
    let s := s.trb (Pg.stop (dcacheAt m).1) 2
    match s.trk e.2.line with
    | t :: _ => if t.need.getLsbD m then s.setActive e.2.line { t with domOff := t.domOff ||| ((1 : Byte) <<< m) } else s
    | [] => s) s

/-- Every interface of a die and of its lanterns enters OFF at once; delivered requests are answered DOMAIN_OFF; the switches open. -/
def State.dieCut (s : State) (m : Nat) : State :=
  let s := s.heldOff m
  let s := (dieIfs m ++ lanIfs m).foldl (fun s x =>
    let st := s.ifState x.1 x.2
    if st = 0 ∨ st = 4 ∨ st = 5 then s else s.cutOff x.1 x.2) s
  s.dieDown m

/-! ### Entering service -/

/-- The MODE that the image gives a ring port is unused (R57, R165). -/
def State.portUnused (s : State) (p : Nat) : Bool := s.portMode p == 0

/-- A lantern is powered and configured: its engines are HALTED at their ENTRY bundles (R123). -/
def State.lanUp (s : State) (k : Nat) : State :=
  let s := s.setFld (Pg.lan k) Fld.LAN_LAN_STAT_PWR 1
  [0, 1, 2, 3].foldl (fun s j =>
    let e := 4 * k + j
    (s.setEngPc e (s.fld (Pg.engCtl e) Fld.ENG_ENTRY_ENTRY)).setFld (Pg.engCtl e) Fld.ENG_STATUS_STATE 1) s

/-- A lantern of this number is held in reset after self-test (R21). -/
def State.lanAbsent (s : State) (k : Nat) : Bool := s.heldBit Fld.BIST_FAIL_LAN_LAN k

/-- ON for an interface of a domain that entered service: only from OFF. -/
def State.ifServe (s : State) (x : Nat × Nat) : State := if s.ifState x.1 x.2 = 4 then (s.setIfState x.1 x.2 1).wakeParked x.1 x.2 else s

/-- SLOT_STAT of the slots of a die's regions: STATE and region number (Table 02.20). -/
def State.setSlots (s : State) (m : Nat) (p : Nat → Bool) (st : Nat) : State :=
  (s.design.regions.filter fun r => r.1 == m && p r.2.1).foldl (fun s r =>
    (s.setFld (Pg.fabSlt m) (Fld.FABSLT_SLOT_STAT_REGION r.2.2) r.2.1).setFld (Pg.fabSlt m) (Fld.FABSLT_SLOT_STAT_STATE r.2.2) st) s

/-- The slots of an unconfigured die (Table 02.20: STATE 0). -/
def State.clearSlots (s : State) (m : Nat) : State :=
  (List.range 32).foldl (fun s n => s.setReg (Pg.fabSlt m) (Reg.FABSLT_SLOT_STAT n) 0) s

/-- A die is configured: its clock regions and partial regions run, its die cache is on, ports that the image does not use show UNUSED (R165). -/
def State.dieConfigured (s : State) (m : Nat) : State :=
  let s := (s.setFld (Pg.fabCtl m) Fld.FABCTL_DIE_STAT_PWR_STATE 3).setFld (Pg.fabCtl m) Fld.FABCTL_DIE_STAT_CFG_DONE 1
  let s := ((s.cregStart m).setSlots m (fun _ => true) 1).setDcState m (if s.heldBit Fld.BIST_FAIL_DIE_DC m then 0 else 1)
  let s := s.setFld (Pg.dc m) Fld.DC_DC_STAT_ABSENT (s.heldBit Fld.BIST_FAIL_DIE_DC m).toNat
  (List.range 8).foldl (fun s p =>
    let x := portAt (8 * m + p)
    if s.portUnused (8 * m + p) && s.ifState x.1 x.2 == 4 then s.setIfState x.1 x.2 0 else s) s

/-- The interfaces of a die are in service again, but for those of ports not used. -/
def State.dieServe (s : State) (m : Nat) : State := (dieIfs m).foldl (fun s x => s.ifServe x) s

end Sys2Proof.Machine
end

