-- ==== Sys2Proof/Machine/Load.lean ====
section
/-!
DEFINITION. Loading an image (R389 to R396): what its sections do, when a load fails and what follows, loads from a bank of the NV store and
from the host (R397, R398).
-/
namespace Sys2Proof.Machine

/-! ### The design that frames declare (log 34) -/

def mputAll {α : Type} (m : KMap α) (l : List (Nat × α)) : KMap α := l.foldl (fun m e => mput m e.1 e.2) m

/-- The bytes of a die's configuration memory as loaded. -/
def State.dieBytes (s : State) (m : Nat) : List Byte := (List.range 131072).flatMap fun f => toBytes 240 (s.frameLoaded m f)

/-- The slot in which a memory (deep memories from 3,072 on), a slice or a column of a die lies (Table 02.1, log 37). -/
def memSlot (n : Nat) : Nat := if n < 3072 then n / 96 else (n - 3072) / 8

/-- The attributes in force of a slice: an image with a value outside Table 03.7 is refused. -/
def SliceDecl.attr (d : SliceDecl) : SliceAttr := ⟨d.pipe.getD .full, d.preKeep.getD true, d.satEn, d.outShift, d.outWidth, d.casShift⟩

/-- The hold value of an isolation site and its direction are the static design's; what enters it comes from the region (R401). -/
def IsoCfg.onto (new : IsoCfg) : Option IsoCfg → IsoCfg
  | none => new
  | some old => { old with src := new.src }

/-- The fabric of the slots that satisfy `p` takes what the frames of its die declare. -/
def State.mergeDesign (s : State) (m : Nat) (p : Nat → Bool) (d : DieDesign) : State :=
  let bm : List (Nat × BmMode) := d.bmMode.filter fun e => decide (e.1 < 6144) && p (memSlot e.1)
  let sl : List (Nat × SliceDecl) := d.slices.filter fun e => decide (e.1 < 4096) && p (e.1 / 128)
  let si : List (Nat × Site) := d.sites.filter fun e => decide (e.1 < dieSites) && p (siteSlot e.1)
  let mc : List (Nat × FabClk) := d.memClks.filter fun e => decide (e.1 < 12288) && p (memSlot (e.1 / 2))
  let sc : List (Nat × FabClk) := d.sliceClks.filter fun e => decide (e.1 < 4096) && p (e.1 / 128)
  let iso : List (Nat × IsoCfg) := d.iso.filter fun e => decide (e.1 < dieIsos) && p (e.1 / slotIsos)
  let mf : List Nat := d.memFrames.filter fun f => decide (f < 131072) && p (f / 4096)
  let co : List (Nat × ColAttr) := d.columns.filter fun e => decide (e.1 < 256) && p (e.1 / 8)
  { s with design := { s.design with
      bmMode := mputAll (mkeep (fun k => k / 6144 != m || !p (memSlot (k % 6144))) s.design.bmMode) (bm.map fun e => (6144 * m + e.1, e.2)),
      slices := mputAll (mkeep (fun k => k / 4096 != m || !p (k % 4096 / 128)) s.design.slices) (sl.map fun e => (4096 * m + e.1, e.2.attr)),
      sites := mputAll (mkeep (fun k => k / dieSites != m || !p (siteSlot (k % dieSites))) s.design.sites) (si.map fun e => (dieSites * m + e.1, e.2)),
      memClks := mputAll (mkeep (fun k => k / 12288 != m || !p (memSlot (k % 12288 / 2))) s.design.memClks) (mc.map fun e => (12288 * m + e.1, e.2)),
      sliceClks := mputAll (mkeep (fun k => k / 4096 != m || !p (k % 4096 / 128)) s.design.sliceClks) (sc.map fun e => (4096 * m + e.1, e.2)),
      iso := mputAll s.design.iso (iso.map fun e => (dieIsos * m + e.1, e.2.onto (mget s.design.iso (dieIsos * m + e.1)))),
      memFrames := (s.design.memFrames.filter fun k => k / 131072 != m || !p (k % 131072 / 4096)) ++ mf.map fun f => 131072 * m + f,
      columns := mputAll (mkeep (fun k => k / 256 != m || !p (k % 256 / 8)) s.design.columns) (co.map fun e => (256 * m + e.1, e.2)) } }

/-- The registers that the image sets without a write, but those that REGS has written. -/
def State.designRegs (s : State) (img : Image) (l : List (Nat × Nat × Word)) : State :=
  l.foldl (fun s e =>
    let key := regKey e.1 e.2.1
    let s : State := { s with design.regs := mput s.design.regs key e.2.2 }
    if img.regs.any fun x => regKey x.1 x.2.1 == key then s else { s with regs := mdel s.regs key }) s

/-- The crossing groups that a die's frames declare for its outbound wires, as far as the device has them (R48). -/
def addGroups (m : Nat) (old : List XGroup) (l : List XGroup) : List XGroup :=
  l.foldl (fun a g => if g.ok && g.src == m && a.all g.apart then a ++ [g] else a) old

/-- The regions of a die: up to 32, of slots that form a connected set and belong to no other region (R62). -/
def addRegions (m : Nat) (l : List (Nat × Nat)) : List (Nat × Nat × Nat) :=
  (List.range 32).flatMap fun r =>
    let slots := (l.filter fun e => e.1 == r && decide (e.2 < 32)).map Prod.snd
    if slotsConnected slots && slots.all (fun x => l.all fun e => e.1 == r || e.2 != x || !decide (e.1 < 32)) then slots.map fun x => (m, r, x) else []

/-- The whole design of a die, as a full image's frames declare it. -/
def State.dieDesigned (s : State) (img : Image) (m : Nat) : State :=
  let d := Config.dieDesign m (s.dieBytes m)
  let s := (s.mergeDesign m (fun _ => true) d).designRegs img d.regs
  { s with design := { s.design with
      windows := s.design.windows ++ d.windows,
      regions := s.design.regions ++ addRegions m d.regions,
      groups := addGroups m s.design.groups d.groups,
      pins := mputAll s.design.pins ((d.pins.filter fun e => decide (e.1 < 576) && e.2.die == m)),
      cregs := mputAll s.design.cregs ((d.cregs.filter fun e => decide (e.1 < 16)).map fun e => (16 * m + e.1, e.2)),
      locals := mputAll s.design.locals ((d.locals.filter fun e => decide (e.1 < 8)).map fun e => (8 * m + e.1, e.2)),
      children := s.design.children ++ d.children.filter fun c => c.die == m,
      laneClkKhz := mputAll s.design.laneClkKhz d.laneClkKhz,
      gpioDefault := mputAll s.design.gpioDefault (d.gpioDefault.filter fun e => decide (e.1 < 12)) } }

/-! ### Rules for images (R61, R84, R281, R309) -/

/-- A window is aligned to its size, lies in the range, and maps to a port in target or both mode. -/
def State.windowOk (s : State) (w : FabWin) : Bool :=
  decide (12 ≤ w.log) && decide (w.log ≤ 39) && w.base % 2 ^ w.log == 0 && decide (0x008000000000 ≤ w.base)
    && decide (w.base + 2 ^ w.log ≤ 0x010000000000)
    && (List.range 64).any fun p => portAt p == (w.stop, w.ifc) && (s.portMode p).testBit 1

def FabWin.overlaps (a b : FabWin) : Bool := decide (a.base < b.base + 2 ^ b.log) && decide (b.base < a.base + 2 ^ a.log)

def windowsApart : List FabWin → Bool
  | [] => true
  | w :: l => l.all (fun x => !w.overlaps x) && windowsApart l

/-- The value sets of Table 03.7. -/
def SliceDecl.ok (a : SliceDecl) : Bool :=
  a.pipe.isSome && a.preKeep.isSome && decide (a.outShift ≤ 47) && [16, 24, 32, 48].contains a.outWidth && decide (1 ≤ a.casShift) && decide (a.casShift ≤ 47)
def ColAttr.ok (a : ColAttr) : Bool := a.mask != 0

/-- A die's frames declare only legal attributes (R84). -/
def DieDesign.ok (d : DieDesign) : Bool := d.slices.all (fun e => e.2.ok) && d.columns.all fun e => e.2.ok

/-- A full image breaks no rule of its registers and windows; the attributes that its frames declare are checked as they are loaded. -/
def State.imageRules (s : State) : Bool :=
  decide (s.design.windows.length ≤ 64) && s.design.windows.all s.windowOk && windowsApart s.design.windows
    && s.design.laneClkKhz.all (fun e => decide (s.fld (Pg.lane e.1) Fld.LN_RATE_KBPS ≤ 240 * e.2))
    && (List.range 8).all (fun p => [Fld.HOST_MSIX_SIZE_PF p, Fld.HOST_MSIX_SIZE_VF p].all fun f =>
        decide (1 ≤ s.fld Pg.host f) && decide (s.fld Pg.host f ≤ 2048))
    && decide (s.msixSum 8 0 ≤ 2048)

/-! ### Sections -/

/-- What the processing of an image has come to: a failure (reason, INDEX), the image with what its sections declare, the state. -/
abbrev LoadStep := Option (Nat × Nat) × Image × State

/-- RESOURCES names a unit held in reset after self-test (R391). -/
def State.missing (s : State) (res : BitVec 256) : Bool :=
  let hit (lo n : Nat) (f : Fld) : Bool := fieldOf res lo n &&& s.fld Pg.bist f != 0
  hit 0 8 Fld.BIST_FAIL_DIE_DIE || hit 8 8 Fld.BIST_FAIL_DIE_DC || hit 16 24 Fld.BIST_FAIL_LAN_LAN || hit 40 32 Fld.BIST_FAIL_QUAD_LO_QUAD
    || hit 72 16 Fld.BIST_FAIL_QUAD_HI_QUAD || hit 88 4 Fld.BIST_FAIL_ENG_HBM || hit 92 4 Fld.BIST_FAIL_ENG_DDR
    || hit 96 4 Fld.BIST_FAIL_PORT_UCIE

/-- FRAMES stand once for each die that RESOURCES marks: the first entry that breaks this, or the end of the table (Table 16.8). -/
def Image.frameError (img : Image) (res : BitVec 256) : Option Nat :=
  match (List.range img.sections.length).find? fun i => (img.sections[i]?).any fun x => x.typ == 4 && !res.getLsbD x.target with
  | some i => some i
  | none =>
    if (List.range 8).any fun m => res.getLsbD m && !img.sections.any fun x => x.typ == 4 && x.target == m then some img.sections.length else none

/-- RESOURCES. -/
def secResources (img : Image) (i : Nat) (l : List Byte) (s : State) : LoadStep :=
  let res : BitVec 256 := ofBytes 256 l
  let img := { img with resources := res }
  if res.toNat / 2 ^ 100 ≠ 0 then (some (0x08, i), img, s)
  else match img.frameError res with
    | some j => (some (0x08, j), img, s)
    | none => if s.missing res then (some (0x0B, i), img, s) else (none, img, s)

/-- The pages that REGS may not name. -/
def regsForbidden (k : PageKind) : Bool := [PageKind.key, .keySlt, .cfg, .cfgh, .nvs, .mbx].contains k

/-- Entry n of REGS: a write by the holder of the page's lock (R391). -/
def secReg (e : Nat × Nat × Word) (s : State) : Bool × State :=
  let bad := match s.page e.1 with | some (k, _) => regsForbidden k | none => true
  if bad || e.2.1 % 4 != 0 then (false, s)
  else
    let r := s.winWrite0 2 e.1 e.2.1 0xF e.2.2
    (r.1.isNone, r.2)

/-- REGS, from entry n on. -/
def secRegs (img : Image) (n : Nat) : List (Nat × Nat × Word) → State → LoadStep
  | [], s => (none, img, s)
  | e :: l, s =>
    let r := secReg e s
    if r.1 then secRegs { img with regs := img.regs ++ [e] } (n + 1) l r.2 else (some (0x0A, n), img, r.2)

/-- Frames from f on take their bytes, with their check words; nothing of them is flagged (R392). -/
def State.putFrames (s : State) (m f : Nat) (l : List Byte) : (n : Nat) → State
  | 0 => s
  | n + 1 =>
    let s : State := { s with integ.frames := mputD 0 s.integ.frames (frameKey m f) (BitVec.ofNat 1920 (numAt l 0 240)),
                              integ.flags := s.integ.flags.filter (· ≠ frameKey m f) }
    (s.setFlips m f 0 0).putFrames m (f + 1) (l.drop 240) n

/-- MEMINIT: words with valid check bits, of the memories in slots that satisfy `p`. -/
def State.putMems (s : State) (m : Nat) (p : Nat → Bool) (l : List Byte) : State :=
  (Config.memInit m l).foldl (fun s e =>
    let no := e.1.toNat * 3072 + e.2.1 % 3072
    if !p (memSlot no) then s
    else
      let d : DWord := if e.1 then e.2.2.2 else (e.2.2.2.setWidth 36).setWidth 64
      s.setBmWord (6144 * m + no) (e.2.2.1 % (if e.1 then 16384 else 2048)) (.ok d)) s

/-- ENGINE: the memories of a lantern. -/
def State.putEngine (s : State) (k : Nat) (l : List Byte) : State :=
  (Config.engineInit k l).foldl (fun s e =>
    let w := e.2.2.setWidth 64
    if e.1 = 0 then s.setLanWord k (e.2.1 % 131072) (.ok w)
    else if e.1 ≤ 4 then s.setDataWord (4 * k + e.1 - 1) (e.2.1 % 32768) (.ok w)
    else if e.1 ≤ 8 then s.setProgWord (4 * k + e.1 - 5) (e.2.1 % 4096) ⟨e.2.2, 0⟩ else s) s

/-- Section i, whose bytes are `stored`, is checked and applied. A die or lantern that RESOURCES does not mark stays unconfigured. -/
def secApply (img : Image) (i : Nat) (x : Section) (stored : List Byte) (s : State) : LoadStep :=
  if !x.checkOk stored then (some (0x09, i), img, s)
  else
    let l := img.plain x stored
    match x.typ with
    | 1 => secResources img i l s
    | 2 => secRegs img 0 (regEntries l (x.len / 8)) s
    | 3 => if Config.firmwareSigned l then (none, img, s) else (some (0x0F, i), img, s)
    | 4 =>
    let s := s.putFrames x.target 0 l 131072
    (none, { img with declOk := img.declOk && (Config.dieDesign x.target (s.dieBytes x.target)).ok }, s.dieDesigned img x.target)
    | 5 => (none, img, if img.resources.getLsbD x.target then s.putMems x.target (fun _ => true) l else s)
    | _ => (none, img, if img.resources.getLsbD (16 + x.target) then s.putEngine x.target l else s)

/-- The sections with their entries, in the order in which they stand in the image. -/
def Section.pos (x : Section) : Nat := ((if x.aux then 2 ^ 32 else 0) + x.off) * 8 + x.typ
def insertSection (e : Nat × Section) : List (Nat × Section) → List (Nat × Section)
  | [] => [e]
  | y :: l => if e.2.pos < y.2.pos then e :: y :: l else y :: insertSection e l
def Image.order (img : Image) : List (Nat × Section) := ((List.range img.sections.length).zip img.sections).foldl (fun l e => insertSection e l) []

/-- The end of a load's copy: padding, image rules, and what step 8 will find. -/
def loadEnd (img : Image) (main aux : List Byte) (s : State) : LoadStep :=
  if !img.paddingOk main then (some (0x08, img.sections.length), img, s)
  else if !img.declOk || !s.imageRules then (some (0x0C, 0), img, s)
  else (none, { img with verdict := img.judge main aux }, s)

/-! ### Failure (R395) -/

/-- Every register that REGS wrote is at its reset value again, and what such writes had started stands still. -/
def State.regsUndo (s : State) (l : List (Nat × Nat × Word)) : State :=
  let s : State := { s with regs := l.foldl (fun r e => mdel r (regKey e.1 e.2.1)) s.regs }
  let s := (List.range 64).foldl (fun s i =>
    if s.bit Pg.clkMl (Fld.ML_CFG_ON i) || s.loopState i == 0 || fixedLoops.any (fun e => e.1 == i) then s else effLoopOff i s) s
  let s := [0, 1, 2, 3].foldl (fun s u =>
    if s.uciState u = 0 then s else ((if s.ifState (60 + u) 0 = 1 then s.cutOff (60 + u) 0 else s).setUciState u 0).setUciMod u {}) s
  if l.any fun e => match pageOf e.1 with | some (k, _) => k == .tq || k == .tqSpan || k == .tqExp | none => false then { s with tq := {} } else s

/-- Configuration memory, memories and design are cleared; the DRAM controllers are OFF again until an image declares their memory. -/
def State.configClear (s : State) : State :=
  let s := (List.range 8).foldl (fun s m => (s.framesClear m).fabClear m) s
  let s := (List.range 24).foldl (fun s k => s.lanClear k) s
  let s := (List.range 136).foldl (fun s c => if s.cb c Fld.CB_CB_STAT_STATE = 6 then s else s.setCb c Fld.CB_CB_STAT_STATE 0) s
  { s with design := {}, dram := {} }

/-- LOAD_ERR. -/
def State.loadErr (s : State) (src reason index : Nat) : State :=
  let s := (s.setReg Pg.cfg Reg.CFG_LOAD_ERR 0).setFld Pg.cfg Fld.CFG_LOAD_ERR_VALID 1
  ((s.setFld Pg.cfg Fld.CFG_LOAD_ERR_SOURCE src).setFld Pg.cfg Fld.CFG_LOAD_ERR_REASON reason).setFld Pg.cfg Fld.CFG_LOAD_ERR_INDEX index

/-- CFG_STAT.STATE, BOOT_SRC. -/
def State.cfgState (s : State) : Nat := s.fld Pg.cfg Fld.CFG_CFG_STAT_STATE
def State.setCfgState (s : State) (n : Nat) : State := s.setFld Pg.cfg Fld.CFG_CFG_STAT_STATE n
def State.bootSrc (s : State) : Nat := s.fld Pg.cfg Fld.CFG_STRAP_BOOT_SRC

/-- The banks of R380 not tried yet. -/
def State.banksLeft (s : State) : List Nat := s.bankOrder.filter fun b => !s.boot.tried.contains (b + 1)

/-- The load from `src` fails; the next source is tried (R380, R383, R395). -/
def State.loadFail (s : State) (src reason index : Nat) : State :=
  let s := match s.boot.loading with | some img => (s.configClear).regsUndo img.regs | none => s
  let s := (s.setFld Pg.mbx Fld.MBX_MBX_INFO_FW_RUN 0).setFld Pg.mbx Fld.MBX_MBX_INFO_VERSION 0
  let s := ((s.loadErr src reason index).raise Pg.cfg Evt.CFG_LOAD_FAIL).trb Pg.cfg 0
  let s : State := { s with mgmt.fwBuild := 0, boot.loading := none, boot.verified := false, boot.stream := [], boot.last := false, boot.chunk := none,
                            boot.hbuf := [], boot.tried := src :: s.boot.tried }
  if src = 3 then
    (s.setCfgState 4).setReg Pg.cfgh Reg.CFGH_H_STAT (withField 0 Fld.CFGH_H_STAT_STATE.lo 3 4)
  else if !s.banksLeft.isEmpty then s.setCfgState 2 else s.setCfgState (if 2 ≤ s.bootSrc then 4 else 7)

/-- A failure ends the load; otherwise the image goes on. -/
def LoadStep.close (r : LoadStep) (src : Nat) : State :=
  let s : State := { r.2.2 with boot.loading := some r.2.1 }
  match r.1 with
  | some (reason, index) => s.loadFail src reason index
  | none => s

/-! ### From a bank (R380, Table 16.2 step 7) -/

/-- A section's bytes in a bank. -/
def State.nvSection (s : State) (bank : Nat) (x : Section) : Option (List Byte) × State :=
  s.nvBytes ((if x.aux then auxBase bank else bankBase bank) + x.off) x.len

/-- The sections of a bank's image, read, checked and applied one after the other. -/
def nvSections (bank : Nat) : List (Nat × Section) → Image → State → LoadStep
  | [], img, s => (none, img, s)
  | e :: l, img, s =>
    match s.nvSection bank e.2 with
    | (none, s) => (some (0x10, e.1), img, s)
    | (some bytes, s) =>
      match secApply img e.1 e.2 bytes s with
      | (none, img, s) => nvSections bank l img s
      | r => r

/-- All bytes of a bank's image: its main part, its auxiliary half. -/
def State.nvImage (s : State) (bank : Nat) (img : Image) : Option (List Byte × List Byte) × State :=
  match s.nvBytes (bankBase bank) img.len with
  | (none, s) => (none, s)
  | (some main, s) =>
    match s.nvBytes (auxBase bank) img.auxLen with
    | (none, s) => (none, s)
    | (some aux, s) => (some (main, aux), s)

/-- A bank's image is copied. -/
def State.nvLoad (s : State) (bank : Nat) : State :=
  if s.badSectors.any (sectorIn bank) then s.loadFail (bank + 1) 0x10 0
  else match s.nvBytes (bankBase bank) 0x1000 with
  | (none, s) => s.loadFail (bank + 1) 0x10 0
  | (some h, s) =>
    match s.headerError false h with
    | some e => s.loadFail (bank + 1) e.1 e.2
    | none =>
      let img := s.imageOf (bank + 1) h
      match img.sectionError false h with
      | some i => s.loadFail (bank + 1) 0x08 i
      | none =>
        match nvSections bank img.order img s with
        | (none, img, s) =>
          match s.nvImage bank img with
          | (none, s) => LoadStep.close (some (0x10, 0), img, s) (bank + 1)
          | (some (main, aux), s) => (loadEnd img main aux s).close (bank + 1)
        | r => LoadStep.close r (bank + 1)

/-- IMAGE_LOAD: after self-test, the next source of R380 that is a bank. -/
def execImageLoad (s : State) : Out :=
  if s.boot.held ≠ 0 ∨ !s.boot.bistDone ∨ !s.boot.refsUp ∨ s.boot.loading.isSome ∨ s.bootSrc = 1 ∨ s.bit Pg.bist Fld.BIST_FAIL_PORT_NV
      ∨ !(s.cfgState = 1 ∨ s.cfgState = 2) then .next s
  else match s.banksLeft with
    | [] => .next s
    | bank :: _ => .next ((s.setCfgState 2).nvLoad bank)

/-! ### From the host (R397, R398) -/

/-- START. -/
def effHostStart (s : State) : State :=
  let s := (s.setReg Pg.cfgh Reg.CFGH_H_STAT (withField (withField (0 : Word) 31 1 1) Fld.CFGH_H_STAT_STATE.lo 3 1)).setReg Pg.cfgh Reg.CFGH_H_RCVD 0
  { s.setCfgState 2 with boot.stream := [], boot.last := false, boot.chunk := none, boot.hbuf := [], boot.loading := none }

/-- The sections whose last byte the stream has reached, those that had been reached before apart. -/
def hostSections (before : Nat) : List (Nat × Section) → Image → State → LoadStep
  | [], img, s => (none, img, s)
  | e :: l, img, s =>
    let at_ := (if e.2.aux then img.len else 0) + e.2.off
    let stop := at_ + e.2.len
    if stop ≤ before ∨ s.boot.stream.length < stop then hostSections before l img s
    else match secApply img e.1 e.2 ((s.boot.stream.drop at_).take e.2.len) s with
      | (none, img, s) => hostSections before l img s
      | r => r

/-- The stream's header, once it is whole. -/
def State.hostHeader (s : State) : Except (Nat × Nat) (Option Image) :=
  if s.boot.stream.length < 0x1000 then .ok none
  else match s.headerError false s.boot.stream with
    | some e => .error e
    | none =>
      let img := s.imageOf 3 s.boot.stream
      match img.sectionError false s.boot.stream with
      | some i => .error (0x08, i)
      | none => .ok (some img)

/-- The stream has grown from `before` bytes: the image, from its header on, is processed as far as it has come; after LAST its length and end are
checked. -/
def State.hostAdvance (s : State) (before : Nat) : State :=
  let img : Except (Nat × Nat) (Option Image) := match s.boot.loading with | some img => .ok (some img) | none => s.hostHeader
  match img with
  | .error e => s.loadFail 3 e.1 e.2
  | .ok none => if s.boot.last then s.loadFail 3 0x10 0 else s
  | .ok (some img) =>
    match hostSections (if s.boot.loading.isSome then before else 0) img.order img s with
    | (none, img, s) =>
      if !s.boot.last then { s with boot.loading := some img }
      else if s.boot.stream.length ≠ img.len + img.auxLen then LoadStep.close (some (0x10, 0), img, s) 3
      else
        let s := s.setFld Pg.cfgh Fld.CFGH_H_STAT_STATE 2
        (loadEnd img (s.boot.stream.take img.len) (s.boot.stream.drop img.len) s).close 3
    | r => LoadStep.close r 3

/-- CHUNK_CONSUMED: the announced chunk joins the stream; ACK_SEQ advances, READY returns unless it was the last (R397). -/
def execChunkConsumed (s : State) : Out :=
  match s.boot.chunk with
  | none => .next s
  | some (len, last) =>
    if s.fld Pg.cfgh Fld.CFGH_H_STAT_STATE ≠ 1 then .next s
    else
      let bytes := ((List.range (len / 4)).flatMap fun k => toBytes 4 (mgetD 0 s.boot.hbuf k)).take len
      let before := s.boot.stream.length
      let s := s.setFld Pg.cfgh Fld.CFGH_H_STAT_ACK_SEQ (s.fld Pg.cfgh Fld.CFGH_H_STAT_ACK_SEQ + 1)
      let s := (s.setFld Pg.cfgh Fld.CFGH_H_STAT_READY (!last).toNat).setReg Pg.cfgh Reg.CFGH_H_RCVD (BitVec.ofNat 32 (before + len))
      let s : State := { s with boot.stream := s.boot.stream ++ bytes, boot.last := last, boot.chunk := none }
      .next (s.hostAdvance before)

/-- The host load is abandoned: counted in CFGH.TRB1; the H fields return to reset but for STATE = FAILED (R398). -/
def State.hostAbandon (s : State) : State :=
  let s := (s.loadFail 3 0x10 0).trb Pg.cfgh 1
  let s : State := { s with regs := mkeep (fun k => !(k / 1024 == Pg.cfgh && decide (keyCls k = some .H))) s.regs }
  s.setReg Pg.cfgh Reg.CFGH_H_STAT (withField 0 Fld.CFGH_H_STAT_STATE.lo 3 4)

/-- H_CTRL.ABORT: ignored unless STATE is RECEIVING. -/
def effHostAbort (s : State) : State := if s.fld Pg.cfgh Fld.CFGH_H_STAT_STATE = 1 then s.hostAbandon else s

/-- HOST_LOAD_TIMEOUT: no DOORBELL within H_TIMEOUT; a chunk that is being consumed has had its own. -/
def execHostLoadTimeout (s : State) : Out :=
  if s.fld Pg.cfgh Fld.CFGH_H_STAT_STATE = 1 ∧ s.boot.chunk.isNone then .next s.hostAbandon else .next s

end Sys2Proof.Machine
end

