-- ==== Sys2Proof/Machine/Boot.lean ====
section
/-!
DEFINITION. From power to user logic (Tables 16.2, 16.4, 21.6): power-on, boot self-test, verification, DONE, user enable.
-/
namespace Sys2Proof.Machine

/-! ### Steps 1 to 4 of Table 16.2 -/

/-- A device that is not held in reset starts: repairs of a cold power-up are applied, the NV store's copies and list are read, the lanes show
DISABLED; PORT modes wait for the image. -/
def State.startUp (s : State) : State :=
  let s : State := { s with boot.t0 := s.ns }
  let s := (List.range 192).foldl (fun s l => s.setFld (Pg.lane l) Fld.LN_STAT_STATE 1) s
  let s := if s.fld Pg.rst Fld.RST_RST_CAUSE_LAST = 1 then s.repairStart else s
  s.nvStart

/-- AUX_POWER_UP: VCC_AUX is within range: the ember domain takes it, the filters start at their defaults: RESET_N and PERST_N low, DONE low; the
power-on reset holds the device until T0 (Tables 21.6, 21.7). -/
def execAuxPowerUp (s : State) : Out :=
  if s.boot.held ≠ 5 then .next s
  else .next { s with boot.held := 1, boot.resetLow := true, mgmt.perst := false, ember.onVbat := false }

/-- POWER_ON_RESET_RELEASE: T0 after every rail has been within range: the straps are sampled; a RESET_N that is low holds the device at step 1
(R376, R515). -/
def execPowerOnResetRelease (bootSrc : BitVec 2) (oscDly : BitVec 3) (s : State) : Out :=
  if !(s.boot.held = 1 ∨ (s.boot.held = 0 ∧ s.cfgState = 0 ∧ !s.boot.refsUp)) then .next s
  else
    let s := s.deviceReset 1 0 0
    let s := (s.setFld Pg.cfg Fld.CFG_STRAP_BOOT_SRC bootSrc.toNat).setFld Pg.cfg Fld.CFG_STRAP_BAD (bootSrc == 3).toNat
    let s := (s.setFld Pg.clkRef Fld.REF_STRAP_OSC_DLY oscDly.toNat).setFld Pg.clkRef Fld.REF_STRAP_BAD (decide (6 ≤ oscDly.toNat)).toNat
    .next (if s.boot.resetLow then { s with boot.held := 2 } else s.startUp)

/-- PIN_RESET: RESET_N is accepted low. Before T0 it only holds the device at T0; a device shut down by a trip stays so (R415, R422, R515). -/
def execPinReset (s : State) : Out :=
  let s : State := { s with boot.resetLow := true }
  if s.boot.held = 0 ∨ s.boot.held = 4 then .next (s.deviceReset 2 0 2) else .next s

/-- RESET_N_RELEASE: RESET_N is accepted high: a device that it held runs Table 16.2 from step 2. -/
def execResetNRelease (s : State) : Out :=
  let s : State := { s with boot.resetLow := false }
  if s.boot.held = 2 then .next ({ s with boot.held := 0 }.startUp) else .next s

/-- A system reset, with the cause that RST_CAUSE.SYS records; Table 16.2 runs again from step 2 (R422). -/
def State.systemReset (s : State) (sys : Nat) : State := (s.deviceReset 3 sys 0).startUp

/-! ### Boot self-test (R486 to R492, R21) -/

/-- The tapers that test a unit (Table 20.1); taper 4 tests the analogue paths of the lanes. -/
def TestUnit.inTaper (u : TestUnit) (t : Nat) : Bool :=
  let part (m : Nat) : Nat := if m = 0 then 1 else if m < 4 then 2 else 3
  match u with
  | .die m => t == part m
  | .dcache m => t == part m
  | .lantern k => t == part (k / 3)
  | .quad q => t == q / 16 + 1 || t == 4
  | .host => t == 3 || t == 4
  | _ => t == 0

/-- BOOT_BIST: step 6 begins once references run and the copies are read; the dies are powered for their test. -/
def execBootBist (s : State) : Out :=
  if s.boot.held ≠ 0 ∨ !s.boot.refsUp ∨ s.cfgState ≠ 0 ∨ s.boot.taper.isSome ∨ s.boot.bistDone then .next s
  else
    let s := (List.range 8).foldl (fun s m => s.setFld (Pg.fabCtl m) Fld.FABCTL_DIE_STAT_PWR_STATE 2) s
    .next { s.setCfgState 1 with boot.taper := some 0, boot.full := s.bit Pg.bist Fld.BIST_BOOT_CTRL_FULL, boot.bistNs := s.ns, boot.failed := [],
                                 boot.repaired := false }

/-- The unit that an array's record belongs to (Table 10.1). -/
def recordUnit (t inst : Nat) : TestUnit :=
  if t = 1 ∨ t = 2 ∨ t = 9 ∨ t = 0xA then .die (Fin.ofNat 8 inst) else if t = 3 then .lantern (Fin.ofNat 24 inst)
  else if t = 4 ∨ t = 5 then .lantern (Fin.ofNat 24 (inst / 4)) else if t = 6 then .dcache (Fin.ofNat 8 inst)
  else if t = 0xE then .nv else if t = 7 ∨ t = 8 then .essential 2 else .essential 3

/-- The soft-repair entry of a record (Tables 10.5, 20.2). -/
def recordEntry (b : BitVec 64) : DWord :=
  let loc := if b.getLsbD 3 then fieldOf b 4 12 else fieldOf b 16 16
  BitVec.ofNat 64 (fieldOf b 60 4 * 2 ^ 60 + fieldOf b 52 7 * 2 ^ 52 + fieldOf b 32 20 * 2 ^ 32 + fieldOf b 3 1 * 2 ^ 31 + fieldOf b 0 3 * 2 ^ 28 + loc)

/-- Memory self-test finds a failing cell: counted, recorded while the log has room; a spare that is left is applied (R492). Whether it is repaired. -/
def State.memFailure (s : State) (f : MemFail) : Bool × State :=
  let e := recordEntry f.bits
  let fix := f.spare && repValid e && !s.integ.applied.any fun x => repSpare x == repSpare e
  let s := s.trb Pg.bist 0
  let r : BitVec 64 := withField f.bits 59 1 fix.toNat
  let r := if fix then r else withField r 0 4 0
  let s := if s.bist.log.length < 128 then { s with bist.log := s.bist.log ++ [(r.setWidth 32, r.extractLsb' 32 32)] }
    else (s.setFld Pg.bist Fld.BIST_MF_STAT_LOST (min 255 (s.fld Pg.bist Fld.BIST_MF_STAT_LOST + 1))).trb Pg.bist 4
  if fix then
    let s : State := { s with integ.applied := s.integ.applied ++ [e], integ.runtime := s.integ.runtime ++ [e] }
    (true, s.syncRuntime.trb Pg.bist 1)
  else (false, s)

/-- Records one after the other: the units that keep a failure without a spare. -/
def State.memFailures (s : State) : List MemFail → List TestUnit × State
  | [] => ([], s)
  | f :: l =>
    let r := s.memFailure f
    let q := r.2.memFailures l
    (if r.1 then q.1 else recordUnit (fieldOf f.bits 60 4) (fieldOf f.bits 52 7) :: q.1, q.2)

/-- LB_LAST: a signature mismatch of a unit; the partition is a free value (log 1). -/
def State.logicFailure (s : State) (u : TestUnit) : State :=
  let k : Nat × Nat := match u with
    | .die m => (2, m) | .lantern k => (3, k) | .quad q => (4, q) | .host => (5, 0) | .dcache m => (1, m) | .pair p => (1, p)
    | .hbm i => (1, i) | .ddr i => (1, i) | .scrub i => (1, i) | .check i => (1, i) | .ucie i => (1, i) | .essential n => (1, n.toNat) | .nv => (1, 0)
  let part := fieldOf s.freeLine 0 16
  let s := (s.useFree.trb Pg.bist 2).setFld Pg.bist Fld.BIST_LB_LAST_VALID 1
  ((s.setFld Pg.bist Fld.BIST_LB_LAST_KIND k.1).setFld Pg.bist Fld.BIST_LB_LAST_INDEX k.2).setFld Pg.bist Fld.BIST_LB_LAST_PART part

/-- A unit without which the device does not start (Table 01.3). -/
def State.essential (s : State) (fails : List TestUnit) (u : TestUnit) : Bool :=
  match u with
  | .essential _ => true
  | .die _ => true
  | .nv => s.bootSrc == 0
  | .host => s.bootSrc == 1
  | .pair p => fails.contains (.pair (1 - p))
  | _ => false

/-- The FAIL register of a unit, with its bit; the kind and index of its SELFTEST alarm (Tables 18.6, 20.7). -/
def TestUnit.place (u : TestUnit) : Option (Fld × Nat) × Nat × Nat :=
  match u with
  | .essential n => (none, n.toNat, 0)
  | .pair p => (some (Fld.BIST_FAIL_PORT_PAIR, p), 1, p)
  | .die m => (some (Fld.BIST_FAIL_DIE_DIE, m), 4, m)
  | .nv => (some (Fld.BIST_FAIL_PORT_NV, 0), 5, 0)
  | .host => (some (Fld.BIST_FAIL_PORT_HOST, 0), 6, 0)
  | .dcache m => (some (Fld.BIST_FAIL_DIE_DC, m), 7, m)
  | .lantern k => (some (Fld.BIST_FAIL_LAN_LAN, k), 8, k)
  | .quad q => (some (if q.val < 32 then (Fld.BIST_FAIL_QUAD_LO_QUAD, q.val) else (Fld.BIST_FAIL_QUAD_HI_QUAD, q.val - 32)), 9, q)
  | .hbm i => (some (Fld.BIST_FAIL_ENG_HBM, i), 10, i)
  | .ddr i => (some (Fld.BIST_FAIL_ENG_DDR, i), 10, 4 + i.val)
  | .scrub i => (some (Fld.BIST_FAIL_ENG_SCRUB, i), 11, i)
  | .check i => (some (Fld.BIST_FAIL_ENG_CHK, i), 11, 8 + i.val)
  | .ucie i => (some (Fld.BIST_FAIL_PORT_UCIE, i), 12, i)

/-- A unit stays in reset (R21): its FAIL bit and its SELFTEST alarm; what the rest of the device sees of it. -/
def State.holdOut (s : State) (u : TestUnit) : State :=
  let pl := u.place
  let s := match pl.1 with | some (f, n) => s.setFld Pg.bist f (s.fld Pg.bist f ||| 2 ^ n) | none => s
  let s := s.levelAlarm 0 Pg.bist (BitVec.ofNat 32 (pl.2.1 * 2 ^ 24 + pl.2.2)) (pl.2.1 * 4096 + pl.2.2)
  match u with
  | .dcache m => let x := dcacheAt m; (s.setFld (Pg.dc m) Fld.DC_DC_STAT_ABSENT 1).setIfState x.1 x.2 5
  | .lantern k => let x := lanternAt k; s.setIfState x.1 x.2 5
  | .hbm i => (List.range 32).foldl (fun s j => s.setCb (32 * i.val + j) Fld.CB_CB_STAT_STATE 6) s
  | .ddr i => [0, 1].foldl (fun s j => s.setCb (128 + 2 * i.val + j) Fld.CB_CB_STAT_STATE 6) s
  | .ucie i => s.setIfState (60 + i) 0 5
  | .nv => s.setIfState 58 1 5
  | .host => s.setIfState 56 0 5
  | .quad q => [0, 1, 2, 3].foldl (fun s j => s.setFld (Pg.lane (4 * q.val + j)) Fld.LN_STAT_STATE 0) s
  | .pair p => { s with pairs.active := 1 - p.val }.pairOut p
  | _ => s

/-- Self-test has ended: an essential failure halts the device; otherwise the failed units are held in reset and start-up goes on, or waits for
the host (R379, R383). -/
def State.bistEnd (s : State) : State :=
  let l := s.boot.failed
  let s := (s.setFld Pg.bist Fld.BIST_BOOT_STAT_DONE 1).setFld Pg.bist Fld.BIST_BOOT_STAT_FULL_RUN s.boot.full.toNat
  let s := s.setFld Pg.bist Fld.BIST_BOOT_STAT_RESULT (if !l.isEmpty then 3 else if s.boot.repaired then 2 else 1)
  let s := s.setFld Pg.bist Fld.BIST_BOOT_STAT_DURATION_US ((s.ns - s.boot.bistNs) / 1000)
  let s : State := { s with boot.taper := none, boot.bistDone := true }
  if l.any (s.essential l) then
    { l.foldl (fun s u => match u.place.1 with | some (f, n) => s.setFld Pg.bist f (s.fld Pg.bist f ||| 2 ^ n) | none => s) (s.setCfgState 8)
      with boot.held := 4 }
  else
    let s := l.foldl (fun s u => s.holdOut u) s
    if s.bootSrc = 1 ∨ s.bit Pg.bist Fld.BIST_FAIL_PORT_NV then s.setCfgState 4 else s

/-- TAPER_END: the units of the taper that failed and the failing cells found; the next taper starts, or self-test ends. -/
def execTaperEnd (fails : List TestUnit) (repairs : List MemFail) (s : State) : Out :=
  match s.boot.taper with
  | none => .next s
  | some t =>
    let cells := repairs.filter fun f => (recordUnit (fieldOf f.bits 60 4) (fieldOf f.bits 52 7)).inTaper t
    let (bad, s) := s.memFailures cells
    let named := (fails.filter fun u => u.inTaper t && !bad.contains u).eraseDups
    let s := if t = 4 then s else named.foldl (fun s u => s.logicFailure u) s
    let all := (s.boot.failed ++ bad ++ named).eraseDups
    let s : State := { s with boot.failed := all, boot.repaired := s.boot.repaired || decide (bad.length < cells.length) }
    if t < (if s.boot.full then 4 else 3) then .next { s with boot.taper := some (t + 1) } else .next s.bistEnd

/-! ### Steps 8 to 10 -/

/-- LOAD_VERIFY: signature and tag are checked once the copy has ended (R393, R394); the DONE mode that the image has set is taken. -/
def execLoadVerify (s : State) : Out :=
  match s.boot.loading with
  | none => .next s
  | some img =>
    if s.boot.verified ∨ !s.copyEnded then .next s
    else
      let s := s.setCfgState 3
      if img.verdict ≠ 0 then .next (s.loadFail img.src img.verdict 0)
      else .next { s with boot.verified := true, boot.localDone := s.bit Pg.cfg Fld.CFG_DONE_CTRL_MODE }

/-- FIRMWARE_START: the mantle firmware of the image runs (R396); its build number is free (log 1). -/
def execFirmwareStart (version : BitVec 16) (s : State) : Out :=
  if !s.boot.verified ∨ s.boot.loading.isNone ∨ s.bit Pg.mbx Fld.MBX_MBX_INFO_FW_RUN then .next s
  else
    let s := (s.setFld Pg.mbx Fld.MBX_MBX_INFO_FW_RUN 1).setFld Pg.mbx Fld.MBX_MBX_INFO_VERSION version.toNat
    .next { s.useFree with mgmt.fwBuild := s.freeLine.setWidth 32 }

/-- FIRMWARE_TIMEOUT: it does not run by the bound of step 9: the load fails (R396). -/
def execFirmwareTimeout (s : State) : Out :=
  match s.boot.loading with
  | none => .next s
  | some img => if !s.boot.verified ∨ s.bit Pg.mbx Fld.MBX_MBX_INFO_FW_RUN then .next s else .next (s.loadFail img.src 0x12 0)

/-- A controller whose memory the image declares. -/
def State.dramDeclared (s : State) (c : Nat) : Bool :=
  if c < 128 then s.unitUsed (88 + c / 32) else s.unitUsed (92 + (c - 128) / 2) && s.bit (Pg.ddrCtl ((c - 128) / 2)) Fld.DDR_CH_CFG_POP

/-- Step 9 has ended: training is over, the enabled modules are ACTIVE or FAILED, the firmware runs. -/
def State.readyForDone (s : State) : Bool :=
  s.bit Pg.mbx Fld.MBX_MBX_INFO_FW_RUN
    && (List.range 136).all (fun c => !s.dramDeclared c || decide (2 ≤ s.cb c Fld.CB_CB_STAT_STATE))
    && (List.range 4).all fun u => !(s.uciPresent u && s.bit Pg.uci Fld.UCI_UCI_CFG_EN && s.bit (Pg.uciM u) Fld.UCIM_M_CTRL_ENABLE)
        || decide (2 ≤ s.uciState u)

/-- The dies, lanterns and quads that RESOURCES marks are configured and serve; the others are powered off (R165, R390). -/
def State.configure (s : State) (img : Image) : State :=
  let s := (List.range 8).foldl (fun s m => if img.resources.getLsbD m then (s.dieConfigured m).dieServe m else s.dieDown m) s
  let s := (List.range 8).foldl (fun s m => s.setReg (Pg.fabXng m) Reg.FABXNG_XNG_GCLK_USE (BitVec.ofNat 32 (s.groupClks m))) s
  let s := (List.range 24).foldl (fun s k =>
    if img.resources.getLsbD (16 + k) && img.resources.getLsbD (k / 3) && !s.lanAbsent k then (s.lanUp k).ifServe (lanternAt k) else s) s
  (List.range 48).foldl (fun s q => if img.resources.getLsbD (40 + q) then s else s.quadDown q) s

/-- User logic is enabled (Table 16.4): STATE = USER, clamps released, the input filters of GPIO banks at their defaults
(R516), one sync in each lantern, the spans in use train. -/
def State.userEnable (s : State) : State :=
  let s := (s.setCfgState 6).setFld Pg.cfg Fld.CFG_CFG_STAT_USER_EN 1
  let s := s.raise Pg.cfg Evt.CFG_USER_EN
  let s : State := { s with boot.doneWait := false, mgmt.gpio := s.design.gpioDefault }
  let s := (List.range 8).foldl (fun s m =>
    if s.fld (Pg.fabCtl m) Fld.FABCTL_DIE_STAT_PWR_STATE = 3 then s.clampDie m false else s) s
  let s := (List.range 24).foldl (fun s k => effSync k s) s
  (List.range 24).foldl (fun s sp => s.spanStart sp) s

/-- DONE_RELEASE: step 10. -/
def execDoneRelease (s : State) : Out :=
  match s.boot.loading with
  | none => .next s
  | some img =>
    if !s.boot.verified ∨ !s.readyForDone then .next s
    else
      let s := (s.setReg Pg.cfg Reg.CFG_IMAGE_ID img.id).setFld Pg.cfg Fld.CFG_IMAGE_SVN_SVN img.svn
      let s := s.setFld Pg.cfg Fld.CFG_CFG_STAT_SOURCE img.src
      let s := if s.boot.tried.isEmpty then s else (s.setFld Pg.cfg Fld.CFG_CFG_STAT_FALLBACK 1).trb Pg.cfg 1
      let s := (s.setReg Pg.cfg Reg.CFG_BOOT_TIME (BitVec.ofNat 32 ((s.ns - s.boot.t0) / 1000))).setFld Pg.cfg Fld.CFG_CFG_STAT_DONE_OUT 1
      let s : State := { s.setCfgState 5 with boot.running := some img, boot.loading := none, boot.verified := false, boot.stream := [], boot.last := false }
      let s := if img.src = 3 then s.setFld Pg.cfgh Fld.CFGH_H_STAT_STATE 3 else s
      let s := s.configure img
      .next (if s.boot.localDone then s.userEnable else s)

/-! ### The DONE line (R384 to R386) -/

/-- DONE_HIGH: the filter accepts a high level, which the line cannot reach while this device drives it low. -/
def execDoneHigh (s : State) : Out :=
  if s.boot.held ≠ 0 ∨ !s.bit Pg.cfg Fld.CFG_CFG_STAT_DONE_OUT ∨ s.pinTest then .next s
  else
    let s := s.setFld Pg.cfg Fld.CFG_CFG_STAT_DONE_IN 1
    .next (if s.cfgState = 5 then s.userEnable else s)

/-- DONE_LOW: the filter accepts a low level: after user enable it is recorded and has no other effect. -/
def execDoneLow (s : State) : Out :=
  if !s.bit Pg.cfg Fld.CFG_CFG_STAT_DONE_IN then .next s
  else
    let s := s.setFld Pg.cfg Fld.CFG_CFG_STAT_DONE_IN 0
    .next (if s.userOn then (s.trb Pg.cfg 3).raise Pg.cfg Evt.CFG_DONE_LOW else s)

/-- DONE_WAIT_TIMEOUT: the line is still low WAIT_MS after step 10. -/
def execDoneWaitTimeout (s : State) : Out :=
  if s.cfgState ≠ 5 ∨ s.bit Pg.cfg Fld.CFG_CFG_STAT_DONE_IN ∨ s.fld Pg.cfg Fld.CFG_DONE_CTRL_WAIT_MS = 0 ∨ s.boot.doneWait then .next s
  else .next ({ s with boot.doneWait := true }.raise Pg.cfg Evt.CFG_DONE_WAIT)

end Sys2Proof.Machine
end

