-- ==== Sys2Proof/Machine/Partial.lean ====
section
/-!
DEFINITION. Partial reconfiguration (R399 to R402). The image is read line by line through STOP58, each line when the one before it has come (log 39).
-/
namespace Sys2Proof.Machine

/-! ### Regions -/

/-- The slots of a region, in order. -/
def State.regionSlots (s : State) (die region : Nat) : List Nat :=
  sortNat ((s.design.regions.filter fun r => r.1 == die && r.2.1 == region).map fun r => r.2.2)

/-- The registers of a region's slots are at their image values: logic sites, slices and column exponents, memory ports and FIFO pointers. -/
def State.regionReset (s : State) (die : Nat) (slots : List Nat) : State :=
  let inMem (n k : Nat) : Bool := k / n / 6144 == die && slots.contains (memSlot (k / n % 6144))
  { s with fab := { s.fab with
      slices := mkeep (fun k => !(k / 4096 == die && slots.contains (k % 4096 / 128))) s.fab.slices,
      cexp := mkeep (fun k => !(k / 256 == die && slots.contains (k % 256 / 8))) s.fab.cexp,
      userRegs := mkeep (fun k => !(k / dieSites == die && slots.contains (siteSlot (k % dieSites)))) s.fab.userRegs,
      bmCycle := mkeep (fun k => !inMem 1 k) s.fab.bmCycle, writeBack := mkeep (fun k => !inMem 2 k) s.fab.writeBack,
      bmOut := mkeep (fun k => !inMem 2 k) s.fab.bmOut, bmFifo := mkeep (fun k => !inMem 1 k) s.fab.bmFifo } }

/-- The memories of a region's slots hold zero words with valid check bits; its site memories hold what the frames give them. -/
def State.regionZero (s : State) (die : Nat) (slots : List Nat) : State :=
  { s with fab.bm := mkeep (fun k => !(k / 16384 / 6144 == die && slots.contains (memSlot (k / 16384 % 6144)))) s.fab.bm,
           fab.siteMem := mkeep (fun k => !(k / dieSites == die && slots.contains (siteSlot (k % dieSites)))) s.fab.siteMem }

/-- What the isolation sites of a region pass to static logic as it is isolated: the last values (R401). -/
def State.isoHold (s : State) (die : Nat) (slots : List Nat) : State :=
  { s with fab.iso := s.design.iso.foldl (fun (h : KMap Bool) e =>
      if e.1 / dieIsos == die && slots.contains (e.1 % dieIsos / slotIsos) && e.2.outward then mput h e.1 (s.value die (.iso (e.1 % dieIsos)))
      else h) s.fab.iso }

/-- A region's frames are written to zero. -/
def State.regionUnframe (s : State) (die : Nat) (slots : List Nat) : State :=
  let out (k : Nat) : Bool := !(k / 131072 == die && slots.contains (k % 131072 / 4096))
  { s with integ := { s.integ with frames := mkeep out s.integ.frames, flips := mkeep out s.integ.flips, chkFlips := mkeep out s.integ.chkFlips,
                                   flags := s.integ.flags.filter out } }

/-- A region is emptied: frames and memories are zero, what its frames declared is gone, its slots show 4. -/
def State.regionEmpty (s : State) (die region : Nat) : State :=
  let slots := s.regionSlots die region
  let s := s.mergeDesign die slots.contains {}
  (((s.regionUnframe die slots).regionZero die slots).regionReset die slots).setSlots die (· == region) 4

/-! ### The end of an operation -/

/-- The reads of the controller's interface at STOP58 are withdrawn. -/
def State.partStop (s : State) : State :=
  let s := s.endOwn 58 0
  let s := (s.setEpQ (ifKey 58 0) .req []).setEpQ (ifKey 58 0) .mgmt []
  { s with boot.part := none }

def State.prIdle (s : State) (result : Nat) : State :=
  let s := (s.setFld Pg.cfg Fld.CFG_PR_STAT_BUSY 0).setFld Pg.cfg Fld.CFG_PR_STAT_PHASE 0
  s.setFld Pg.cfg Fld.CFG_PR_STAT_RESULT result

/-- A partial load fails, or is aborted: the region is emptied (R402). -/
def State.partFail (s : State) (result reason index : Nat) : State :=
  match s.boot.part with
  | none => s
  | some x =>
    let s := (s.partStop).regionEmpty x.die x.region
    let s := ((s.loadErr 4 reason index).raise Pg.cfg Evt.CFG_LOAD_FAIL).trb Pg.cfg 0
    ((s.prIdle result).trb Pg.cfg 2).raise Pg.cfg Evt.CFG_PR_END

/-! ### Reading the image -/

/-- The next line of the image is asked for. -/
def State.partRead (s : State) : State :=
  match s.boot.part with
  | none => s
  | some x =>
    let need := match x.img with | some img => img.len | none => 0x1000
    if x.waiting || x.copied || decide (need ≤ x.bytes.length) then s
    else
      let e : EpEntry := ⟨.rd, ⟨BitVec.ofNat 64 (x.base + x.bytes.length), 0, 0, 0, 0, 0⟩, 0, false⟩
      { s with boot.part := some { x with waiting := true } }.handIn 58 0 e

/-- Section i of a partial image. -/
def partApply (x : PartLoad) (img : Image) (i : Nat) (sec : Section) (stored : List Byte) (s : State) : LoadStep :=
  if !sec.checkOk stored then (some (0x09, i), img, s)
  else
    let l := img.plain sec stored
    let slots := s.regionSlots x.die x.region
    if sec.typ = 4 then
      let s := s.regionZero x.die slots
      let s := ((List.range slots.length).zip slots).foldl (fun s e => s.putFrames x.die (4096 * e.2) (l.drop (983040 * e.1)) 4096) s
      let d := Config.dieDesign x.die (s.dieBytes x.die)
      (none, { img with declOk := img.declOk && DieDesign.ok { d with slices := d.slices.filter (fun e => slots.contains (e.1 / 128)),
                                                                       columns := d.columns.filter (fun e => slots.contains (e.1 / 8)) } },
        s.mergeDesign x.die slots.contains d)
    else (none, img, s.putMems x.die slots.contains l)

/-- The sections whose last byte has come. -/
def partSections (x : PartLoad) (before : Nat) : List (Nat × Section) → Image → State → LoadStep
  | [], img, s => (none, img, s)
  | e :: l, img, s =>
    let stop := e.2.off + e.2.len
    if stop ≤ before ∨ x.bytes.length < stop then partSections x before l img s
    else match partApply x img e.1 e.2 ((x.bytes.drop e.2.off).take e.2.len) s with
      | (none, img, s) => partSections x before l img s
      | r => r

/-- The header, once it is whole: the image, or the failure. -/
def State.partHeader (s : State) (x : PartLoad) : Except (Nat × Nat) Image :=
  match s.headerError true x.bytes with
  | some e => .error e
  | none =>
    let img := s.imageOf 4 x.bytes
    let slots := (s.regionSlots x.die x.region).length
    match img.sectionError true x.bytes, (List.range img.sections.length).find? (fun i => (img.sections[i]?).any fun y => y.target != x.die),
        (List.range img.sections.length).find? (fun i => (img.sections[i]?).any fun y => y.typ == 4 && y.len != 983040 * slots) with
    | some i, _, _ => .error (0x08, i)
    | none, some i, _ => .error (0x08, i)
    | none, none, some i => .error (0x0C, i)
    | none, none, none => .ok img

/-- The image has grown from `before` bytes. -/
def State.partAdvance (s : State) (before : Nat) : State :=
  match s.boot.part with
  | none => s
  | some x =>
    let fresh := x.img.isNone
    let img : Except (Nat × Nat) (Option Image) := match x.img with
      | some img => .ok (some img)
      | none => if x.bytes.length < 0x1000 then .ok none else (s.partHeader x).map some
    match img with
    | .error e => s.partFail 2 e.1 e.2
    | .ok none => s.partRead
    | .ok (some img) =>
      match partSections x (if fresh then 0 else before) img.order img s with
      | (some e, _, s) => s.partFail 2 e.1 e.2
      | (none, img, s) =>
        if x.bytes.length < img.len then { s with boot.part := some { x with img := some img } }.partRead
        else if !img.paddingOk x.bytes then s.partFail 2 0x08 img.sections.length
        else if !img.declOk then s.partFail 2 0x0C 0
        else { s with boot.part := some { x with img := some { img with verdict := img.judge x.bytes [] }, copied := true } }

/-- The answer to a read of the controller. -/
def State.partResponse (s : State) (st : Status) (data : Line) : State :=
  match s.boot.part with
  | none => s
  | some x =>
    if !x.waiting then s
    else if st ≠ .ok then s.partFail 2 0x10 0
    else { s with boot.part := some { x with waiting := false, bytes := x.bytes ++ toBytes 64 data } }.partAdvance x.bytes.length

/-! ### Commands -/

/-- Steps 1 and 2 of Table 16.10: the region is isolated, its clocks are gated, its reset is asserted; PR_STAT names it. -/
def State.prBegin (s : State) (die region phase : Nat) : State :=
  let s := ((s.setReg Pg.cfg Reg.CFG_PR_STAT 0).setFld Pg.cfg Fld.CFG_PR_STAT_DIE die).setFld Pg.cfg Fld.CFG_PR_STAT_REGION region
  let s := (s.setFld Pg.cfg Fld.CFG_PR_STAT_BUSY 1).setFld Pg.cfg Fld.CFG_PR_STAT_PHASE phase
  ((s.isoHold die (s.regionSlots die region)).setSlots die (· == region) 2).regionReset die (s.regionSlots die region)

/-- PR_CTRL.START, accepted. -/
def effPartStart (v : Word) (s : State) : State :=
  let die := wf v Fld.CFG_PR_CTRL_DIE
  let region := wf v Fld.CFG_PR_CTRL_REGION
  let base := s.fld Pg.cfg Fld.CFG_PR_SRC_HI_BITS * 2 ^ 32 + s.fld Pg.cfg Fld.CFG_PR_SRC_LO_BITS
  let s := s.prBegin die region 2
  { s with boot.part := some ⟨base, die, region, [], none, false, false⟩ }.partRead

/-- PR_CTRL.ABORT: steps 1 to 5; ignored in others. -/
def effPartAbort (s : State) : State := if s.fld Pg.cfg Fld.CFG_PR_STAT_PHASE ≤ 4 then s.partFail 3 0x10 0 else s

/-- PR_CTRL.CLEAR, accepted: steps 1 and 2 and the emptying. -/
def effPartClear (v : Word) (s : State) : State :=
  let die := wf v Fld.CFG_PR_CTRL_DIE
  let region := wf v Fld.CFG_PR_CTRL_REGION
  ((s.prBegin die region 1).regionEmpty die region).prIdle 0

/-- PARTIAL_LOAD_VERIFY: with every frame written, signature and tag are checked; the release delay starts (steps 4 and 5). -/
def execPartialLoadVerify (s : State) : Out :=
  match s.boot.part with
  | none => .next s
  | some x =>
    match x.img with
    | none => .next s
    | some img =>
      if !x.copied ∨ s.fld Pg.cfg Fld.CFG_PR_STAT_PHASE ≠ 2 then .next s
      else
        let s := s.setFld Pg.cfg Fld.CFG_PR_STAT_PHASE 3
        if img.verdict ≠ 0 then .next (s.partFail 2 img.verdict 0)
        else .next ((s.setSlots x.die (· == x.region) 3).setFld Pg.cfg Fld.CFG_PR_STAT_PHASE 4)

/-- RELEASE_DELAY_END: the region runs (steps 6 and 7). -/
def execReleaseDelayEnd (s : State) : Out :=
  match s.boot.part with
  | none => .next s
  | some x =>
    if s.fld Pg.cfg Fld.CFG_PR_STAT_PHASE ≠ 4 then .next s
    else
      let s := ({ s with boot.part := none }.setSlots x.die (· == x.region) 1).prIdle 1
      .next (s.raise Pg.cfg Evt.CFG_PR_END)

end Sys2Proof.Machine
end

