-- ==== Sys2Proof/Machine/Power.lean ====
section
/-!
DEFINITION. Power and heat (chapter 17): sensors, throttling, trip and brown-out; powering domains on and off; WICKs; a takeover's end.
-/
namespace Sys2Proof.Machine

/-! ### Domain commands (R416 to R420) -/

/-- DOM_STAT at the end of a command. -/
def State.domDone (s : State) (result reason : Nat) : State :=
  let s : State := { s with pwr.cmd := none }
  let s := (s.setFld Pg.pwr Fld.PWR_DOM_STAT_BUSY 0).setFld Pg.pwr Fld.PWR_DOM_STAT_RESULT result
  s.setFld Pg.pwr Fld.PWR_DOM_STAT_REASON reason

/-- The interfaces of a domain. -/
def domIfs (kind i : Nat) : List (Nat × Nat) := match kind with | 0 => dieIfs i ++ lanIfs i | 1 => [lanternAt i] | _ => []

/-- A unit of field self-test lies in a domain. -/
def State.fieldIn (s : State) (kind i : Nat) : Bool :=
  match s.bist.field with
  | some (1, m) => kind == 0 && m == i
  | some (2, k) => (kind == 0 && k / 3 == i) || (kind == 1 && k == i)
  | some (3, q) => kind == 2 && q == i
  | _ => false

/-- The snuff of an interface that is in service. -/
def State.snuffIf (s : State) (x : Nat × Nat) : State := if s.maySnuff x.1 x.2 then effSnuff x.1 (2 ^ x.2) s else s

/-- Steps 1 and 2 of Table 17.4: the interfaces but for the die cache's are snuffed. -/
def State.domOffStart (s : State) (kind i : Nat) : State :=
  let s := if kind = 0 then s.setFld (Pg.fabCtl i) Fld.FABCTL_DIE_STAT_PWR_STATE 4 else s
  ((domIfs kind i).filter (· ≠ dcacheAt i ∨ kind ≠ 0)).foldl State.snuffIf s

/-- Step 5, once no snuff of the domain is in progress. -/
def State.domOffEnd (s : State) (kind i : Nat) : State :=
  let s := if s.fieldIn kind i then s.fieldAbort else s
  (if kind = 0 then s.dieDown i else if kind = 1 then s.lanDown i else s.quadDown i).domDone 1 0

/-- A power-off goes on once its snuffs have ended: step 3 snuffs the die cache, then step 5. -/
def State.domSettle (s : State) : State :=
  match s.pwr.cmd with
  | some ⟨kind, i, false⟩ =>
    if !s.managerRuns || (domIfs kind i).any (fun x => s.ifState x.1 x.2 == 3) then s
    else if kind = 0 ∧ s.maySnuff (dcacheAt i).1 (dcacheAt i).2 then
      let pg := Pg.stop (dcacheAt i).1
      (s.setFld pg Fld.STOP_SNUFF_TIMEOUT_US (max 1000 (s.fld pg Fld.STOP_SNUFF_TIMEOUT_US))).snuffIf (dcacheAt i)
    else s.domOffEnd kind i
  | _ => s

/-- The sections of the running image that a domain's power-on reads: FRAMES and MEMINIT of a die, ENGINE of its marked lanterns. -/
def Image.domSections (img : Image) (kind i : Nat) : List (Nat × Section) :=
  img.order.filter fun e =>
    (kind == 0 && (e.2.typ == 4 || e.2.typ == 5) && e.2.target == i) || (e.2.typ == 6 && (if kind = 0 then e.2.target / 3 == i else kind == 1 && e.2.target == i))

/-- Step 3 of Table 17.5: sections are read from the bank of the running image and their CHECK compared; none where all are good, else the
reason. -/
def reloadSections (img : Image) : List (Nat × Section) → State → Option Nat × State
  | [], s => (none, s)
  | e :: l, s =>
    match s.nvSection (img.src - 1) e.2 with
    | (none, s) => (some 0x10, s)
    | (some bytes, s) =>
      if !e.2.checkOk bytes then (some 0x09, s)
      else
        let p := img.plain e.2 bytes
        let s := match e.2.typ with
          | 4 =>
            let s := s.putFrames e.2.target 0 p 131072
            s.mergeDesign e.2.target (fun _ => true) (Config.dieDesign e.2.target (s.dieBytes e.2.target))
          | 5 => s.putMems e.2.target (fun _ => true) p
          | _ => if img.resources.getLsbD (16 + e.2.target) then s.putEngine e.2.target p else s
        reloadSections img l s

/-- Step 4: the REGS entries of a domain's pages are applied again. -/
def State.regsAgain (s : State) (img : Image) (kind i : Nat) : State :=
  img.regs.foldl (fun s e =>
    let mine := match pageOf e.1 with
      | some (k, n) => match pageDomain k n with
        | some (d, j) => (d == kind && j == i) || (kind == 0 && d == 1 && j / 3 == i)
        | none => false
      | none => false
    if mine then (secReg e s).2 else s) s

/-- The lanterns of a domain that RESOURCES marks and self-test has not held out. -/
def State.domLans (s : State) (img : Image) (kind i : Nat) : List Nat :=
  (if kind = 0 then [3 * i, 3 * i + 1, 3 * i + 2] else if kind = 1 then [i] else []).filter fun k =>
    img.resources.getLsbD (16 + k) && !s.lanAbsent k

/-- The power-on of a domain (Table 17.5), as far as its end; `serve`: its interfaces are switched ON. None where it succeeds, else the reason. -/
def State.domPower (s : State) (img : Image) (kind i : Nat) (serve : Bool) : Option Nat × State :=
  if kind = 2 then
    let s := [0, 1, 2, 3].foldl (fun s j => s.setFld (Pg.lane (4 * i + j)) Fld.LN_STAT_STATE 1) s
    (none, s.regsAgain img 2 i)
  else
    let s := if kind = 0 then s.setFld (Pg.fabCtl i) Fld.FABCTL_DIE_STAT_PWR_STATE 1 else s
    match reloadSections img (img.domSections kind i) s with
    | (some r, s) => (some r, if kind = 0 then s.dieDown i else s.lanDown i)
    | (none, s) =>
      let s := if kind = 0 then s.setFld (Pg.fabCtl i) Fld.FABCTL_DIE_STAT_PWR_STATE 2 else s
      let s := s.regsAgain img kind i
      let s := if kind = 0 then (s.dieConfigured i).clampDie i false else s
      let lans := s.domLans img kind i
      let s := lans.foldl (fun s k => effSync k (s.lanUp k)) s
      if !serve then (none, s)
      else
        let s := if kind = 0 then s.dieServe i else s
        (none, lans.foldl (fun s k => s.ifServe (lanternAt k)) s)

/-- The manager runs the command that waits for it. -/
def State.domRun (s : State) : State :=
  match s.pwr.cmd with
  | none => s
  | some c =>
    if !s.managerRuns then s
    else if !c.on then (s.domOffStart c.kind c.index).domSettle
    else match s.boot.running with
      | none => s.domDone 2 0
      | some img =>
        match s.domPower img c.kind c.index true with
        | (none, s) => s.domDone 1 0
        | (some r, s) => (s.trb Pg.pwr 1).domDone 2 r

/-- DOM_CMD.START, accepted. -/
def effDomCmd (v : Word) (s : State) : State :=
  let kind := wf v Fld.PWR_DOM_CMD_KIND
  let i := wf v Fld.PWR_DOM_CMD_INDEX
  let s := ((s.setReg Pg.pwr Reg.PWR_DOM_STAT 0).setFld Pg.pwr Fld.PWR_DOM_STAT_BUSY 1).setFld Pg.pwr Fld.PWR_DOM_STAT_KIND kind
  let s := s.setFld Pg.pwr Fld.PWR_DOM_STAT_INDEX i
  { s with pwr.cmd := some ⟨kind, i, wb v Fld.PWR_DOM_CMD_OP⟩ }.domRun

/-! ### WICKs (R366, R419) -/

/-- The domain that answers a WICK of an interface: the die where it is off, else the lantern. -/
def State.wickDomain (s : State) (stop ifc : Nat) : Option (Nat × Nat) :=
  match epKind stop ifc with
  | .port p => some (0, p / 8)
  | .dcache m => some (0, m)
  | .lantern k => if !s.domOn 0 (k / 3) then some (0, k / 3) else some (1, k)
  | _ => none

/-- WICK: a gate opens, a loop starts, or the power manager powers the domain on, where SERVICE is WAKE and the running image, of a bank, marks the
unit. Without effect while SYSREF is lost. -/
def execWick (i : Island) (s : State) : Out :=
  if s.clk.lost then .next s
  else
    let woken (s : State) : State := if s.clk.woken.contains i then s else { s with clk.woken := i :: s.clk.woken }
    let heard : State := { s with wicks := s.wicks.filter (· ≠ i) }
    match i with
    | .creg m c => .next (if s.cregOpen m c || !s.dieUp m then s else woken (heard.setCregOpen m c true))
    | .fdie m b => .next (if s.fdieOpen m b then s else woken heard)
    | .lantern k =>
      .next (if s.fld (Pg.lan k) Fld.LAN_LAN_STAT_PWR = 2 then woken (heard.setFld (Pg.lan k) Fld.LAN_LAN_STAT_PWR 1) else s)
    | .loop l => .next (if s.loopState l = 0 then effLoopOn l heard else s)
    | .iface stop ifc =>
      match s.wickDomain stop ifc, s.boot.running with
      | some (kind, n), some img =>
        let may := s.wicks.contains i && s.bit Pg.pwr Fld.PWR_PWR_CTRL_SERVICE && s.managerRuns && s.pwr.cmd.isNone && img.src != 3
          && s.marked kind n && !s.domOn kind n
        if !may then .next s
        else match s.domPower img kind n true with
          | (none, s) => .next s
          | (some _, s) => .next (s.trb Pg.pwr 1)
      | _, _ =>
        -- a failed UCIe module is brought up again (R327)
        match epKind stop ifc with
        | .partner u =>
          .next (if s.wicks.contains i && s.managerRuns && s.uciState u == 4 && s.bit (Pg.uciM u) Fld.UCIM_M_CTRL_ENABLE then effModuleEnable u s else s)
        | _ => .next s

/-! ### Sensors and throttling (R409 to R412) -/

/-- A temperature register as a signed number of sixteenths. -/
def State.temp (s : State) (i : Nat) : Int := (BitVec.ofNat 16 (s.fld Pg.thm (Fld.THM_TEMP_TEMP i))).toInt
/-- THR_CTRL.POINT in sixteenths. -/
def State.point (s : State) : Int := 16 * (s.fld Pg.thm Fld.THM_THR_CTRL_POINT : Int)
/-- The hottest sensor of a zone is at or above a temperature. -/
def State.zoneHot (s : State) (m : Nat) (t : Int) : Bool := (List.range 16).any fun j => decide (t ≤ s.temp (16 * m + j))

/-- A sensor of a powered unit: those of a die without power read 0. -/
def State.sensorOn (s : State) (i : Nat) : Bool := decide (128 ≤ i) || s.fld (Pg.fabCtl (i / 16)) Fld.FABCTL_DIE_STAT_PWR_STATE != 0

/-- VMONj outside its range (Table 17.1): 3 % about the nominal voltage; VBAT outside 2.2 to 3.6 V. -/
def vmonBad (j mv : Nat) : Bool :=
  let off (nom : Nat) : Bool := decide (100 * mv + 3 * nom < 100 * nom) || decide (103 * nom < 100 * mv)
  if j < 64 then off 720 else if j < 72 then off 750 else if j < 76 then off 800 else if j < 80 then off 800 else if j < 84 then off 1200
  else if j = 84 then off 1100 else if j = 85 then off 1800 else if j = 86 then off Config.vddHbm else decide (mv < 2200) || decide (3600 < mv)

/-- A voltage is read: a new warning counts in THM.TRB1. -/
def State.voltSample (s : State) (j mv : Nat) : State :=
  let was := s.bit Pg.thm (Fld.THM_VMON_WARN j)
  let bad := vmonBad j mv
  let s := (s.setFld Pg.thm (Fld.THM_VMON_MV j) mv).setFld Pg.thm (Fld.THM_VMON_WARN j) bad.toNat
  let s := if bad && !was then s.trb Pg.thm 1 else s
  let s := if bad then s.alert 2 else s
  if j = 87 then s.vbatSeen mv else s

/-- SENSOR_SAMPLE: the manager has read sensors; the hottest one is shown; THERM, HBM_HOT, VOLT and the HBM controllers' TEMP_2X (R207) follow. -/
def execSensorSample (temps : List (Fin 164 × BitVec 16)) (volts : List (Fin 88 × BitVec 16)) (s : State) : Out :=
  if !s.managerRuns then .next s
  else
    let s := temps.foldl (fun s (e : Fin 164 × BitVec 16) => s.setFld Pg.thm (Fld.THM_TEMP_TEMP e.1) (if s.sensorOn e.1 then e.2.toNat else 0)) s
    let hot := (List.range 164).foldl (fun b i => if s.temp b < s.temp i then i else b) 0
    let s := (s.setFld Pg.thm Fld.THM_THM_STAT_HOT_IDX hot).setFld Pg.thm Fld.THM_THM_STAT_HOT_TEMP (s.fld Pg.thm (Fld.THM_TEMP_TEMP hot))
    let s := if (List.range 160).any fun i => decide (s.point ≤ s.temp i) then s.alert 0 else s
    let s := if (List.range 4).any fun i => decide (16 * 95 ≤ s.temp (160 + i)) then s.alert 1 else s
    let s := temps.foldl (fun s (e : Fin 164 × BitVec 16) => if 160 ≤ e.1.val then s.hbmHot (e.1 - 160) (decide (16 * 85 < s.temp e.1)) else s) s
    .next (volts.foldl (fun s (e : Fin 88 × BitVec 16) => s.voltSample e.1 e.2.toNat) s)

/-- The loops that a zone throttles: its ZONE_FCLK bits and its lantern loops; zone 8 stands for the backstop. -/
def State.zoneNames (s : State) (m l : Nat) : Bool :=
  if m = 8 then decide (l < 56)
  else (decide (l < 32) && (s.fld Pg.thm (Fld.THM_ZONE_FCLK_FCLK m)).testBit l) || (decide (32 + 3 * m ≤ l) && decide (l ≤ 34 + 3 * m))

def State.demand (s : State) (m : Nat) : Nat := mgetD 0 s.pwr.demand m
def State.setDemand (s : State) (m n : Nat) : State := { s with pwr.demand := mputD 0 s.pwr.demand m n }

/-- Every loop that a zone names takes the highest skip demanded of it. -/
def State.throttle (s : State) : State :=
  (List.range 56).foldl (fun s l =>
    let zs := (List.range 9).filter fun m => s.zoneNames m l && (m != 8 || s.demand 8 != 0)
    if zs.isEmpty then s else s.setFld Pg.clkMl (Fld.ML_THR_SKIP l) ((zs.map s.demand).foldl max 0)) s

/-- THROTTLE_STEP: hot zones demand one more, up to SKIP_MAX; cool ones one less. -/
def execThrottleStep (down : Bool) (s : State) : Out :=
  if !s.managerRuns then .next s
  else
    let top := s.fld Pg.thm Fld.THM_THR_CTRL_SKIP_MAX
    let low : Int := s.point - 16 * (s.fld Pg.thm Fld.THM_THR_CTRL_HYST : Int)
    let t := (List.range 8).foldl (fun t m =>
      if down then (if s.zoneHot m low then t else t.setDemand m (t.demand m - 1))
      else if s.zoneHot m s.point then t.setDemand m (min top (t.demand m + 1)) else t) s
    let was8 := s.demand 8
    let t := if down && !s.bit Pg.thm Fld.THM_THM_STAT_BACKSTOP then t.setDemand 8 (was8 - 1) else t
    -- loops that only the backstop names fall to 0 with its last step
    let t := if was8 = 1 ∧ t.demand 8 = 0 then (List.range 56).foldl (fun t l => t.setFld Pg.clkMl (Fld.ML_THR_SKIP l) 0) t else t
    .next t.throttle

/-- BACKSTOP: a sensor of the dies or the mantle at POINT + 5 °C or more for 1 ms. -/
def execBackstop (s : State) : Out :=
  if s.boot.held ≠ 0 ∨ s.bit Pg.thm Fld.THM_THM_STAT_BACKSTOP ∨ !((List.range 160).any fun i => decide (s.point + 80 ≤ s.temp i)) then .next s
  else
    let top := s.fld Pg.thm Fld.THM_THR_CTRL_SKIP_MAX
    let s := (s.setFld Pg.thm Fld.THM_THM_STAT_BACKSTOP 1).trb Pg.thm 0
    let s := s.setDemand 8 top
    .next ((List.range 56).foldl (fun s l => s.setFld Pg.clkMl (Fld.ML_THR_SKIP l) top) s)

/-- BACKSTOP_CLEAR: every such sensor below POINT for 1 ms. -/
def execBackstopClear (s : State) : Out :=
  if (List.range 160).any fun i => decide (s.point ≤ s.temp i) then .next s else .next (s.setFld Pg.thm Fld.THM_THM_STAT_BACKSTOP 0)

/-! ### Trip and brown-out (R408, R414, R415, R420, R406) -/

/-- Programs in progress at a trip end, or are aborted: an aborted block fails its code and its sector is recorded. -/
def State.nvTrip (s : State) (abort : Bool) : State :=
  let s := s.nv.progs.foldl (fun s p =>
    if abort then
      let s := s.setNvBlock p.block { s.nvBlock p.block with torn := true }
      let sec := p.block / 1024
      if s.ember.aborted.contains sec then s else { s with ember.aborted := s.ember.aborted ++ [sec] }.emberLog 0x08 sec
    else (s.setNvBlock p.block ⟨p.data, 0, false⟩).renewBlock p.block) s
  let s := match s.nv.flip with
    | none => s
    | some (off, l) => if abort then s.setNvBlock (off / 64) { s.nvBlock (off / 64) with torn := true } else s.setNvBlock (off / 64) ⟨l, 0, false⟩
  { s with nv.progs := [], nv.flip := none }

/-- THERMAL_TRIP: a sensor of a powered unit reads 120 °C or more (Table 17.3): the device is held in reset until VCC_MNT falls. -/
def execThermalTrip (sensor : Fin 164) (above125 : Bool) (s : State) : Out :=
  if s.boot.held = 1 ∨ s.boot.held = 3 ∨ s.boot.held = 5 ∨ !s.sensorOn sensor then .next s
  else
    let s := s.nvTrip above125
    let s : State := { s with ember.cause := 2 }
    .next ((s.deviceReset 1 0 3).emberLog 0x07 sensor)

/-- A die loses its power without a command: a command, a field test or a partial load in progress on it ends. -/
def State.dieFail (s : State) (m : Nat) : State :=
  let s := match s.pwr.cmd with
    | some c => if (c.kind = 0 ∧ c.index = m) ∨ (c.kind = 1 ∧ c.index / 3 = m) then s.domDone 2 0 else s
    | none => s
  let s := if s.fieldIn 0 m then s.fieldAbort else s
  let s := match s.boot.part with | some x => if x.die = m then s.partFail 2 0x10 0 else s | none => s
  s.dieCut m

/-- BROWN_OUT: the mantle's rails: cold reset; VCC_FABm: uncommanded power-off of die m; other rails: a warning only. -/
def execBrownOut (rail : Rail) (s : State) : Out :=
  match rail with
  | .core =>
    if s.boot.held = 5 then .next s
    else .next ({ s with ember.cause := if s.boot.held = 3 then 2 else 1 }.deviceReset 1 0 1)
  | .fab m =>
    if s.boot.held ≠ 0 ∨ s.fld (Pg.fabCtl m) Fld.FABCTL_DIE_STAT_PWR_STATE = 0 then .next s
    else
      let s := s.dieFail m
      let s := if s.noPair then s else effDieLost (2 ^ m.val) s
      .next ((s.scrubSettle.trb Pg.pwr 2).alarm 10 Pg.pwr (BitVec.ofNat 32 m))
  | .other _ => .next s

/-- TAKEOVER_RESUME: the new active pair runs the services again: the domain command that waited, SERVICE (R445). -/
def execTakeoverResume (s : State) : Out :=
  if !s.pairs.takeover then .next s
  else
    let s : State := { s with pairs.takeover := false }
    .next (s.domRun).serviceApply

end Sys2Proof.Machine
end

