-- ==== Sys2Proof/Machine/Bist.lean ====
section
/-!
DEFINITION. Field self-test of a unit out of service (R493, R494).
-/
namespace Sys2Proof.Machine

/-! ### Contents destroyed -/

/-- n places in turn take free values (log 1). -/
def State.fillFree (s : State) (n : Nat) (f : State → Nat → Line → State) : State :=
  (List.range n).foldl (fun s i => f s.useFree i s.freeLine) s

def Line.word (d : Line) : EccWord := ⟨d.setWidth 64, d.extractLsb' 64 8⟩

/-- A lantern's memories hold undefined words. -/
def State.lanScramble (s : State) (k : Nat) : State :=
  let s := (s.lanClear k).fillFree 131072 fun s i d => s.setLanWord k i (Line.word d)
  [0, 1, 2, 3].foldl (fun s j =>
    let e := 4 * k + j
    let s := s.fillFree 32768 fun s i d => s.setDataWord e i (Line.word d)
    s.fillFree 4096 fun s i d => s.setProgWord e i ⟨d.setWidth 128, d.extractLsb' 128 9⟩) s

/-- A die's memories and frames hold undefined contents. -/
def State.dieScramble (s : State) (m : Nat) : State :=
  let s := (s.fabClear m).framesClear m
  let s := s.fillFree (3072 * 2048) fun s i d =>
    s.setBmWord (6144 * m + i / 2048) (i % 2048) ⟨(d.setWidth 36).setWidth 64, (d.extractLsb' 64 7).setWidth 8⟩
  let s := s.fillFree (256 * 16384) fun s i d => s.setBmWord (6144 * m + 3072 + i / 16384) (i % 16384) (Line.word d)
  let s := s.fillFree 131072 fun s i d =>
    let e := s.useFree.useFree.freeLine
    let t := s.useFree.freeLine
    let v : BitVec 1920 := ((d ++ t) ++ e).setWidth 1920
    { s.useFree.useFree.useFree with integ.frames := mputD 0 s.integ.frames (frameKey m i) v }
  [0, 1, 2].foldl (fun s j => s.lanScramble (3 * m + j)) s

/-! ### The test -/

/-- The domain of a unit under field test: die, lantern, quad. -/
def fieldDomain (kind : Nat) : Nat := kind - 1

/-- FB_CTRL.START, accepted: the test destroys the unit's contents; a die is unconfigured from then on. -/
def effFieldStart (v : Word) (s : State) : State :=
  let kind := wf v Fld.BIST_FB_CTRL_KIND
  let i := wf v Fld.BIST_FB_CTRL_INDEX
  let s := ((s.setReg Pg.bist Reg.BIST_FB_STAT 0).setFld Pg.bist Fld.BIST_FB_STAT_BUSY 1).setFld Pg.bist Fld.BIST_FB_STAT_KIND kind
  let s := s.setFld Pg.bist Fld.BIST_FB_STAT_INDEX i
  let s : State := { s with bist.field := some (kind, i) }
  if kind = 1 then
    let s := s.setFld (Pg.fabCtl i) Fld.FABCTL_DIE_STAT_PWR_STATE 2
    let s := ((s.setFld (Pg.fabCtl i) Fld.FABCTL_DIE_STAT_CFG_DONE 0).clampDie i true).clearSlots i
    s.dieScramble i
  else if kind = 2 then s.lanScramble i else s

/-- The interfaces in quarantine of a unit under test go out of service (R453). -/
def State.fieldFail (s : State) (kind i : Nat) : State :=
  let s := (s.setFld Pg.bist Fld.BIST_FB_STAT_RESULT 3).trb Pg.bist 3
  if kind = 3 then s
  else
    let s := (domIfs (fieldDomain kind) i).foldl (fun s x => if s.ifState x.1 x.2 = 6 then s.cutOff x.1 x.2 else s) s
    -- a command on another unit goes on
    let other := match s.pairs.cmd with | some (_, 1, stop, sub) => !(domIfs (fieldDomain kind) i).contains (stop, sub) | some _ => true | none => false
    let s := if other then s else
      let s := (s.setFld Pg.alm Fld.ALM_ADMIT_STAT_BUSY 0).setFld Pg.alm Fld.ALM_ADMIT_STAT_RESULT 2
      { s.setFld Pg.alm Fld.ALM_ADMIT_STAT_STATE 1 with pairs.cmd := none }
    (s.trb Pg.alm 4).alarm 12 Pg.alm (s.reg Pg.alm Reg.ALM_ADMIT_CTRL &&& 0x0FFFFFFF)

/-- The records that a field test can make. -/
def fieldRecord (kind i : Nat) (f : MemFail) : Bool :=
  match recordUnit (fieldOf f.bits 60 4) (fieldOf f.bits 52 7) with
  | .die m => kind == 1 && m.val == i
  | .dcache m => kind == 1 && m.val == i
  | .lantern k => (kind == 1 && k.val / 3 == i) || (kind == 2 && k.val == i)
  | _ => false

/-- The unit has passed: it is reloaded, its interfaces stay in QUARANTINE; an ADMIT that waited takes effect. -/
def State.fieldPass (s : State) (kind i repaired : Nat) : State :=
  let s := if kind = 1 then
      let s := (s.fabClear i).framesClear i
      [0, 1, 2].foldl (fun s j => s.lanClear (3 * i + j)) s
    else if kind = 2 then s.lanClear i else s
  let bank := s.boot.running.filter fun img => kind == 3 || img.src != 3
  match bank with
  | none => s.fieldFail kind i
  | some img =>
    match s.domPower img (fieldDomain kind) i false with
    | (some _, s) => (s.trb Pg.pwr 1).fieldFail kind i
    | (none, s) =>
      let s := s.setFld Pg.bist Fld.BIST_FB_STAT_RESULT (if repaired = 0 then 1 else 2)
      match s.pairs.cmd with
      | some (3, 1, stop, sub) => if (domIfs (fieldDomain kind) i).contains (stop, sub) then s.admitIf stop sub else s
      | _ => s

/-- FIELD_BIST_END: failing cells, and the partition of a logic mismatch, decide the result. -/
def execFieldBistEnd (fails : List MemFail) (logicFail : Option (BitVec 16)) (s : State) : Out :=
  match s.bist.field with
  | none => .next s
  | some (kind, i) =>
    let cells := fails.filter (fieldRecord kind i)
    let (bad, s) := s.memFailures cells
    let s := (s.setFld Pg.bist Fld.BIST_FB_STAT_MEM_FAIL (min 255 cells.length)).setFld Pg.bist Fld.BIST_FB_STAT_BUSY 0
    let s := match logicFail with
      | none => s
      | some p =>
        let s := (s.trb Pg.bist 2).setFld Pg.bist Fld.BIST_LB_LAST_VALID 1
        ((s.setFld Pg.bist Fld.BIST_LB_LAST_KIND (kind + 1)).setFld Pg.bist Fld.BIST_LB_LAST_INDEX i).setFld Pg.bist Fld.BIST_LB_LAST_PART p.toNat
    let s : State := { s with bist.field := none }
    .next (if bad.isEmpty && logicFail.isNone then s.fieldPass kind i cells.length else s.fieldFail kind i)

end Sys2Proof.Machine
end

