-- ==== Sys2Proof/Machine/HostReset.lean ====
section
/-!
DEFINITION. Resets of the host port (R310, R382, R480): hot reset, link down, PERST_N, function level reset; and the link's training.
-/
namespace Sys2Proof.Machine

/-- The link is up. -/
def State.dlUp (s : State) : Bool := s.bit Pg.hostLnk Fld.HLNK_LINK_STAT_DL_UP

/-- A function is presented (R305, R382). -/
def State.fnExists (s : State) (f : Nat) : Bool :=
  match s.hostMode with
  | 0 => false
  | 1 => f == 0
  | _ => decide (f < 8) || decide ((f - 8) % 63 < (s.fn (pfOf f)).numVfs)

/-- What a reset does to the functions that satisfy `p`: completions still outstanding will be discarded, requests not yet on the rings are dropped,
MSI-X state and configuration space are reset. Posted writes already on the rings complete. -/
def State.fnReset (s : State) (p : Nat → Bool) : State :=
  { s with
    msixPend := s.msixPend.filter fun g => !(s.vectorFn 512 0 g).any fun x => p x.1
    fns := mkeep (fun f => !p f) s.fns
    host := { table := mkeep (fun k => !p (k / 8192)) s.host.table, wait := s.host.wait.filter fun x => !p x.fn,
              out := mmap (fun _ (x : HostPiece) => if p x.fn then { x with dead := true } else x) s.host.out,
              reads := mkeep (fun k => !p (k / 1024)) s.host.reads, last := mkeep (fun f => !p f) s.host.last } }

/-- A hot reset or link down: a host load is abandoned, H-class fields return to reset, the port is reset, locks and channels of agents 0x08 to 0x0F
are released; the boot function makes way for the functions of a host-loaded image. -/
def State.hostReset (s : State) : State :=
  let st := s.fld Pg.cfgh Fld.CFGH_H_STAT_STATE
  let s := if st = 1 ∨ st = 2 then s.hostAbandon else s
  let s : State := { s with regs := mkeep (fun k => decide (keyCls k ≠ some .H)) s.regs, boot.hbuf := [], boot.chunk := none }
  let s := ((s.fnReset fun _ => true).agentReset fun a => decide (0x08 ≤ a) && decide (a ≤ 0x0F)).trb Pg.rst 2
  if s.fld Pg.cfg Fld.CFG_CFG_STAT_SOURCE = 3 then { s with boot.bootFn := false } else s

/-- The link goes down where it is up. -/
def State.linkLost (s : State) : State := if s.dlUp then s.hostReset.trb Pg.hostLnk 4 else s

/-- HOT_RESET: an in-band reset of a link that is up. -/
def execHotReset (s : State) : Out := if s.dlUp then .next (s.hostReset.trb Pg.hostLnk 5) else .next s

/-- LINK_DOWN. -/
def execLinkDown (s : State) : Out := .next s.linkLost

/-- PERST: PERST_N as its filter accepts it; low acts as link down (Table 17.6). -/
def execPerst (high : Bool) (s : State) : Out :=
  let was := s.mgmt.perst
  let s : State := { s with mgmt.perst := high }
  if high ∨ !was ∨ s.boot.held ≠ 0 then .next s
  else if s.dlUp then .next s.linkLost else .next s.hostReset

/-- FLR: one function, and with a PF its VFs; the locks and channels of the PF's agent are released (Table 19.4). -/
def execFlr (fn : Fin 512) (s : State) : Out :=
  if !s.dlUp || !s.fnExists fn then .next s
  else
    let s := s.fnReset fun f => f == fn.val || (decide (fn.val < 8) && decide (8 ≤ f) && pfOf f == fn.val)
    let s := if fn.val < 8 then s.agentReset (· == 8 + fn.val) else s
    .next (s.trb Pg.hostLnk 5)

/-- HOST_LINK_UP: the link trains to L0 (R313): not before step 5 and the release of PERST_N, nor while safe states are forced (R370, R382). -/
def execHostLinkUp (speed : BitVec 4) (width : BitVec 6) (s : State) : Out :=
  let ok := [1, 2, 4, 8, 16].contains width.toNat && decide (1 ≤ speed.toNat) && decide (speed.toNat ≤ 5)
  if !ok || s.boot.held != 0 || !s.boot.refsUp || !s.mgmt.perst || s.bit Pg.bist Fld.BIST_FAIL_PORT_HOST || s.bit Pg.clkRef Fld.REF_LOSS_STAT_SAFE then
    .next s
  else
    let pg := Pg.hostLnk
    let s := (s.setFld pg Fld.HLNK_LINK_STAT_LTSSM 3).setFld pg Fld.HLNK_LINK_STAT_DL_UP 1
    let top := s.fld pg Fld.HLNK_LINK_CTRL_MAX_SPEED
    .next ((s.setFld pg Fld.HLNK_LINK_STAT_SPEED (min speed.toNat top)).setFld pg Fld.HLNK_LINK_STAT_WIDTH width.toNat)

end Sys2Proof.Machine
end

