-- ==== Sys2Proof/Machine/ClockFail.lean ====
section
/-!
DEFINITION. Failure of the system reference (R363, R368 to R371): self-refresh, SAFE_WAIT and its end, RESET, the return of a master, the locking
of loops.
-/
namespace Sys2Proof.Machine

/-! ### SAFE_WAIT ends (Table 15.5, steps 5 and 6) -/

/-- Step 6: the safe states are released; lanes train from DISABLED. -/
def State.safeReleased (s : State) : State :=
  let s : State := { s.setFld Pg.clkRef Fld.REF_LOSS_STAT_SAFE 0 with clk.safeStep := 0 }
  (List.range 192).foldl (fun s l => if s.bit (Pg.lane l) Fld.LN_CTRL_ENABLE then effLaneEnable l s else s) s

/-- Step 5 ends once no loop is locking any more: islands restart; DRAM controllers exit self-refresh and retrain before they serve. -/
def State.relocked (s : State) : State :=
  if s.clk.safeStep ≠ 2 ∨ (List.range 64).any (fun l => s.loopState l == 1) then s
  else
    let s : State := { s with clk.safeStep := 3, clk.failed := false }
    let cs := (List.range 136).filter s.cbRuns
    let s := cs.foldl (fun s c => effTrainStart c s) s.dramWake
    let s : State := { s with clk.retrain := cs }
    if s.bit Pg.clkRef Fld.REF_LOSS_CTRL_AUTO_RELEASE then s.safeReleased else s

/-- LOOP_LOCKED: a loop whose input runs achieves lock. -/
def execLoopLocked (l : Fin 64) (s : State) : Out :=
  if s.loopState l ≠ 1 ∨ s.dpllMode = 0 ∨ s.clk.lost then .next s else .next (s.loopLock l).relocked

/-- Where ML57 stops, MX1 leaves it on the forced path, which always runs at once (R368; DEDUCED, log 144). -/
def State.mx1Leave (s : State) (l : Nat) : State :=
  if l = 57 ∧ !s.bit Pg.clkCtl Fld.CLK_MUX_STAT_MX1_SRC then (s.setMx1 true).forced else s

/-- LOOP_LOCK_LOSS: a loop loses lock while its input runs and relocks, or a relock fails; the third failure in succession: FAILED, TRB1,
alarm (R363). -/
def execLoopLockLoss (l : Fin 64) (s : State) : Out :=
  if s.clk.lost then .next s
  else if s.loopState l = 2 then .next (((s.setLoopState l 1).trb Pg.clkMl 0).mx1Leave l)
  else if s.loopState l = 1 then
    let n := s.fld Pg.clkMl (Fld.ML_STAT_RELOCKS l) + 1
    let s := s.setFld Pg.clkMl (Fld.ML_STAT_RELOCKS l) n
    if n < 3 then .next s
    else .next (((s.setLoopState l 4).trb Pg.clkMl 1).alarm 8 Pg.clkMl (BitVec.ofNat 32 l)).relocked
  else .next s

/-- LOSS_CTRL.RELEASE, accepted. -/
def effSafeRelease (s : State) : State := if s.bit Pg.clkRef Fld.REF_LOSS_STAT_SAFE then s.safeReleased else s

/-! ### The failure (R369 to R371) -/

/-- RESET: a system reset; LAST_RESET survives it. -/
def State.lossReset (s : State) : State :=
  ((s.systemReset 2).setFld Pg.clkRef Fld.REF_LOSS_STAT_LAST_RESET 1).setFld Pg.clkRef Fld.REF_LOSS_STAT_SAFE 0

/-- SAFE_WAIT, steps 1 to 3: safe states are forced, lanes and host lanes idle, loops stop with their islands, MX1 is forced onto the ring
oscillator. -/
def State.safeWait (s : State) : State :=
  let s : State := { s.setFld Pg.clkRef Fld.REF_LOSS_STAT_SAFE 1 with clk.failed := true, clk.safeStep := 1 }
  let s := (List.range 192).foldl (fun s l => if s.laneState l ≤ 1 then s else (s.laneOut l).setLaneState l 1) s
  let s := (List.range 64).foldl (fun s l => if s.loopState l = 1 ∨ s.loopState l = 2 then s.setLoopState l 3 else s) s
  (s.mx1Leave 57).linkLost

/-- SOURCE_FAILURE: SYSREF has not returned within the hold: no master input is present, or MX0 is still hung. -/
def execSourceFailure (s : State) : Out :=
  if !s.clk.lost ∨ s.clk.failed ∨ !s.boot.refsUp ∨ !(s.chooseMaster.isNone ∨ s.bit Pg.clkCtl Fld.CLK_MUX_STAT_MX0_HUNG) then .next s
  else
    let n := s.fld Pg.clkRef Fld.REF_LOSS_STAT_COUNT
    let s := (s.trb Pg.clkRef 3).setFld Pg.clkRef Fld.REF_LOSS_STAT_COUNT (min 0xFFFF (n + 1))
    let s := s.raise Pg.clkRef Evt.REF_SOURCE_FAIL
    .next (if s.bit Pg.clkRef Fld.REF_LOSS_CTRL_ACTION then s.lossReset else s.safeWait)

/-- SOURCE_LOSS_SELF_REFRESH: 400 ns after the loss the controllers that are not there already enter self-refresh; queued accesses stay queued. -/
def execSourceLossSelfRefresh (s : State) : Out :=
  if !s.clk.lost then .next s
  else .next ((List.range 136).foldl (fun s c =>
    if s.cbRuns c then (s.ranks c).foldl (fun s r => s.selfRefresh c r) s else s) s)

/-- SAFE_WAIT_TIMEOUT: no master input within SAFE_WAIT_S: as under RESET. -/
def execSafeWaitTimeout (s : State) : Out := if s.clk.safeStep = 1 then .next s.lossReset else .next s

/-! ### The return (R367, R368, R370) -/

/-- SYSREF restarts on an input, in MASTER after a source failure or out of NONE, where R358 selects; the loops that are held relock. -/
def State.sysrefRestart (s : State) (i : Nat) : State :=
  let s := if s.clk.failed ∨ s.dpllMode = 0 then (s.startMaster i).reselect
    else ((s.setFld Pg.clkRef Fld.REF_DPLL_STAT_MASTER i).setFld Pg.clkCtl Fld.CLK_MUX_STAT_MX0_SRC i).setFld Pg.clkCtl Fld.CLK_MUX_STAT_MX0_HUNG 0
  let s := s.sysrefBack
  if !s.clk.failed then s
  else
    let s : State := { s with clk.safeStep := 2 }
    ((List.range 64).foldl (fun s l => if s.loopState l = 3 then s.setLoopState l 1 else s) s).relocked

/-- MUX_CTRL.MX0_FORCE, accepted: a hung switch completes on the forced path; SYSREF restarts if the other input runs. -/
def effMx0Force (s : State) : State :=
  let next := 1 - s.fld Pg.clkCtl Fld.CLK_MUX_STAT_MX0_SRC
  let s := s.forced
  if s.refPresent next then s.sysrefRestart next
  else (s.setFld Pg.clkCtl Fld.CLK_MUX_STAT_MX0_SRC next).setFld Pg.clkCtl Fld.CLK_MUX_STAT_MX0_HUNG 0

/-- A master input that was absent is found present, at a frequency that is a free value (log 1): a hung switch completes once its old source
runs; otherwise MX0 takes the input, at once or by leaving the one it passes. -/
def State.masterBack (s : State) (i : Nat) : State :=
  let s := (s.useFree.setRefInput i (1 + fieldOf s.freeLine 0 1)).compareRefs
  let src := s.fld Pg.clkCtl Fld.CLK_MUX_STAT_MX0_SRC
  if !s.clk.lost then s
  else if s.bit Pg.clkCtl Fld.CLK_MUX_STAT_MX0_HUNG then (if i = src then s.sysrefRestart (1 - src) else s)
  else if !s.refPermitted i then s
  else if i = src then s.sysrefRestart i
  else if s.bit Pg.clkCtl Fld.CLK_MUX_CTRL_AUTO_FORCE then s.forced.sysrefRestart i
  else s.setFld Pg.clkCtl Fld.CLK_MUX_STAT_MX0_HUNG 1

/-- MASTER_RETURN: an absent input runs again; which, where both are absent, is a free value (log 1). With neither absent SYSREF itself has
returned. -/
def execMasterReturn (s : State) : Out :=
  if s.boot.held ≠ 0 ∨ !s.boot.refsUp then .next s
  else if !s.refPresent 0 && !s.refPresent 1 then .next (s.useFree.masterBack (fieldOf s.freeLine 0 1))
  else if !s.refPresent 0 then .next (s.masterBack 0)
  else if !s.refPresent 1 then .next (s.masterBack 1)
  else if s.clk.lost && !s.bit Pg.clkCtl Fld.CLK_MUX_STAT_MX0_HUNG then .next (s.sysrefRestart (s.fld Pg.clkCtl Fld.CLK_MUX_STAT_MX0_SRC))
  else .next s

end Sys2Proof.Machine
end

