-- ==== Sys2Proof/Machine/Host.lean ====
section
/-!
DEFINITION. Requests of the host (R304 to R309, R382): BARs, pieces and their order, completions, the MSI-X table, configuration requests.
-/
namespace Sys2Proof.Machine

/-! ### Pieces and their order (R307) -/

def HostPiece.posted (x : HostPiece) : Bool := decide (x.typ = .wrp)

/-- Where an address leads, as a number; 0 where it leads nowhere. -/
def State.destNo (s : State) (a : Nat) : Nat := match s.destOf a with | some d => ifKey d.1 d.2.1 + 1 | none => 0
def State.hostDest (s : State) (x : HostPiece) : Nat := s.destNo (fieldOf x.r.addr 0 48)

/-- The ordering rules let a waiting piece go. -/
def State.hostMay (s : State) (x : HostPiece) : Bool :=
  let before (y : HostPiece) : Bool := y.fn == x.fn && y.posted && decide (y.ord < x.ord)
  let waits := s.host.wait.any before
  let open_ := s.host.out.any fun e => before e.2
  if x.ro then !(x.posted && waits)
  else if x.posted then !waits && (!open_ || mget s.host.last x.fn == some (s.hostDest x))
  else !waits && !open_

/-- The tenant of a function (R31). -/
def State.fnTenant (s : State) (f : Nat) : Nat :=
  s.fld Pg.host (if f % 2 = 0 then Fld.HOST_TEN_MAP_TID_EVEN (f / 2) else Fld.HOST_TEN_MAP_TID_ODD (f / 2))

/-- Hands the pieces that may go to the attachment point, while end point tags last. -/
def State.hostGo (s : State) : (fuel : Nat) → State
  | 0 => s
  | n + 1 =>
    let st := s.ifState 56 0
    if !(st == 1 || st == 2 || st == 6) then s
    else match s.host.wait.find? s.hostMay, (List.range 256).find? fun g => (mget s.host.out g).isNone with
      | some x, some g =>
        let e : EpEntry := ⟨x.typ, { x.r with tag := BitVec.ofNat 8 g }, x.tid, false⟩
        let s : State := { s with
          host.wait := s.host.wait.filter fun y => y.ord != x.ord
          host.out := mput s.host.out g x
          host.last := if x.posted then mput s.host.last x.fn (s.hostDest x) else s.host.last }
        (s.handIn 56 0 e).hostGo n
      | _, _ => s
def State.hostIssue (s : State) : State := s.hostGo s.host.wait.length

/-! ### Completions (R308) -/

/-- A read is complete: good or poisoned with its bytes; Unsupported Request and Completer Abort count in TRB7. -/
def State.hostComplete (s : State) (fn tag outcome : Nat) (bytes : List Byte) : State :=
  let bad := outcome == 1 || outcome == 2
  let s := s.emit (.completion fn tag outcome (if bad then [] else bytes))
  if bad then s.trb Pg.hostLnk 7 else s

/-- A posted write fails: an AER uncorrectable error of the function, TRB7. -/
def State.postedError (s : State) (fn : Nat) : State :=
  (s.setFn fn { s.fn fn with uncErr := (s.fn fn).uncErr + 1 }).trb Pg.hostLnk 7

/-- An address that lies in no mapped range, or whose unit is absent or failed. -/
def State.unmapped (s : State) (a : Nat) : Bool :=
  (s.destOf a).isNone || (cacheable a && (match s.dramPlace (a / 64) with
    | some (c, _) => let st := s.cb c Fld.CB_CB_STAT_STATE; st == 5 || st == 6
    | none => true))

/-- The outcome of a ring status at an address: 0 good, 1 Unsupported Request, 2 Completer Abort, 3 poisoned. -/
def State.hostOutcome (s : State) (a : Nat) (st : Status) : Nat :=
  match st with
  | .ok => 0 | .poison => 3 | .domainOff => 2
  | .busError => if s.unmapped a then 1 else 2

/-- The bytes of a line whose enables are set, in order. -/
def pickBytes (d : Line) (be : BitVec 64) : List Byte := ((List.range 64).filter fun i => be.getLsbD i).map (byteOf d)

/-- The outcome of a read from those of two pieces. -/
def joinOutcome (a b : Nat) : Nat := if a = 0 ∨ (a = 3 ∧ b ≠ 0) then b else a

/-- A piece ends. -/
def State.hostEnd (s : State) (g : Nat) (addr : Nat) (st : Status) (data : Line) : State :=
  match mget s.host.out g with
  | none => s
  | some x =>
    let s : State := { s with host.out := mdel s.host.out g }
    let s :=
      if x.dead then s
      else if x.posted then (if st = .ok then s else s.postedError x.fn)
      else
        let key := x.fn * 1024 + x.tag
        match mget s.host.reads key with
        | none => s
        | some r =>
          let l := pickBytes data x.r.be
          let r : HostRead := { missing := r.missing - 1, bytes := r.bytes.take x.lo ++ l ++ r.bytes.drop (x.lo + l.length),
                                outcome := joinOutcome r.outcome (s.hostOutcome addr st) }
          if r.missing = 0 then { s with host.reads := mdel s.host.reads key }.hostComplete x.fn x.tag r.outcome r.bytes
          else { s with host.reads := mput s.host.reads key r }
    s.hostIssue

/-! ### Splitting a request -/

/-- The length code of the smallest aligned access that covers n bytes from place `lo` of a line on, and where it starts. -/
def coverOf (lo n : Nat) : BitVec 3 × Nat :=
  let k := ((List.range 6).find? fun k => lo / 2 ^ k == (lo + n - 1) / 2 ^ k).getD 6
  (if k = 6 then 0 else BitVec.ofNat 3 (k + 1), lo / 2 ^ k * 2 ^ k)

/-- The units of `u` bytes that n bytes from an address on touch: unit address, place of its first wanted byte in the request, its first wanted
byte, their number. -/
def unitsOf (u addr n : Nat) : List (Nat × Nat × Nat × Nat) :=
  (List.range ((addr % u + n + u - 1) / u)).map fun i =>
    let base := addr / u * u + i * u
    let first := max base addr
    (base, first - addr, first, min (base + u) (addr + n) - first)

/-- A mask of n bytes at place p of a line. -/
def maskAt (p n : Nat) : BitVec 64 := BitVec.ofNat 64 ((2 ^ n - 1) * 2 ^ p)

/-- The pieces of a read: one a line, the smallest access that covers it, or 32-bit words (R467); a read of no byte reads one word for
none of its bytes. `path` marks BAR0. -/
def readPieces (words : Bool) (hi path addr n : Nat) : List (EpReq × Nat × Nat) :=
  let u := if words then 4 else 64
  let r (len : BitVec 3) (a : Nat) (be : BitVec 64) : EpReq := ⟨BitVec.ofNat 64 (hi + a), len, 0, 0, be, BitVec.ofNat 12 path⟩
  if n = 0 then [(r 3 (addr / 4 * 4) 0, 0, 0)]
  else (unitsOf u addr n).map fun (base, lo, first, k) =>
    let (len, at_) := if words then (3, base % 64) else coverOf (first % 64) k
    (r len (base / 64 * 64 + at_) (maskAt (first % 64) k), lo, k)

/-- The pieces of a write: one a line or word, without bytes enabled none; a part is masked. -/
def writePieces (words : Bool) (hi path addr : Nat) (data : List (Option Byte)) : List EpReq :=
  let u := if words then 4 else 64
  (unitsOf u addr data.length).filterMap fun (base, lo, first, k) =>
    let part := (data.drop lo).take k
    let mask := (List.range k).foldl (fun m i => if (part.getD i none).isSome then m + 2 ^ (first % 64 + i) else m) 0
    let line : Nat := (List.range k).foldl (fun d i => d + ((part.getD i none).getD 0).toNat * 2 ^ (8 * (first % 64 + i))) 0
    if mask = 0 then none
    else
      let full := mask == (2 ^ u - 1) * 2 ^ (base % 64)
      some ⟨BitVec.ofNat 64 (hi + (if full then base else base / 64 * 64)), if full then (if words then 3 else 0) else 7, 0, BitVec.ofNat 512 line,
        if full then BitVec.allOnes 64 else BitVec.ofNat 64 mask, BitVec.ofNat 12 path⟩

/-- Pieces of a request join the queue and go as the rules let them. -/
def State.hostPut (s : State) (fn : Nat) (typ : ReqType) (ro : Bool) (tag : Nat) (l : List (EpReq × Nat × Nat)) : State :=
  let s := l.foldl (fun s e =>
    let x : HostPiece := ⟨fn, typ, e.1, ro, tag, e.2.1, e.2.2, false, s.rings.seq, BitVec.ofNat 9 (s.fnTenant fn)⟩
    { s with host.wait := s.host.wait ++ [x], rings.seq := s.rings.seq + 1 }) s
  s.hostIssue

/-- A memory request that the port answers itself. -/
def State.hostRefuse (s : State) (fn : Nat) (r : HostReq) (outcome : Nat) : State :=
  if r.wr then s.postedError fn else s.hostComplete fn r.tag.toNat outcome []

/-- A request reaches the rings at an address, with its key ID. -/
def State.hostRing (s : State) (fn : Nat) (r : HostReq) (words : Bool) (kid addr : Nat) : State :=
  let hi := kid * 2 ^ 48
  let path := fn + (if words then 0x800 else 0)
  if r.wr then s.hostPut fn .wrp r.ro 0 ((writePieces words hi path addr r.data).map fun e => (e, 0, 0))
  else
    let l := readPieces words hi path addr r.len.toNat
    let key := fn * 1024 + r.tag.toNat
    if (mget s.host.reads key).isSome then s
    else { s with host.reads := mput s.host.reads key ⟨l.length, List.replicate r.len.toNat 0, 0⟩ }.hostPut fn .rd r.ro r.tag.toNat l

/-! ### The MSI-X table (R309, Table 12.8) -/

/-- The global vector of a function's first one (Table 19.12). -/
def State.vectorBase (s : State) (f : Nat) : Nat := ((List.range f).map s.msixSize).sum

/-- Pending messages that nothing masks any more are sent. -/
def State.msixFlush (s : State) (f : Nat) : State :=
  let fn := s.fn f
  if !(fn.msixEn && fn.busMaster && !fn.msixMask) then s
  else
    let base := s.vectorBase f
    let go (g : Nat) : Bool := decide (base ≤ g) && decide (g < base + s.msixSize f) && !s.vectorMasked f (g - base)
    let l := s.msixPend.filter go
    l.foldl (fun s g => s.emit (s.msixMessage f (g - base))) { s with msixPend := s.msixPend.filter fun g => !go g }

/-- A word of BAR4: the table at 0x0000, the pending bits at 0x8000. -/
def State.bar4Word (s : State) (f w : Nat) : Word :=
  if w < 8192 then (if w < 4 * s.msixSize f then s.msixWord f w else 0)
  else if w < 8192 + 64 then
    let base := s.vectorBase f
    BitVec.ofNat 32 ((List.range 32).foldl (fun v i =>
      let j := 32 * (w - 8192) + i
      if j < s.msixSize f ∧ s.msixPend.contains (base + j) then v + 2 ^ i else v) 0)
  else 0

/-- A write of bytes of the table. -/
def State.bar4Write (s : State) (f off : Nat) (data : List (Option Byte)) : State :=
  let s := (List.range data.length).foldl (fun s i =>
    let a := off + i
    match data.getD i none with
    | some b =>
      if a < 16 * s.msixSize f then
        { s with host.table := mput s.host.table (f * 8192 + a / 4) (withField (s.msixWord f (a / 4)) (8 * (a % 4)) 8 b.toNat) }
      else s
    | none => s) s
  s.msixFlush f

/-! ### Requests -/

/-- The aperture of a function: base, log of its size, key ID (Table 19.12); none where SIZE is 0. -/
def State.aperture (s : State) (f : Nat) : Option (Nat × Nat × Nat) :=
  let p := pfOf f
  let get (size lo hi kid : Fld) (n : Nat) : Option (Nat × Nat × Nat) :=
    let k := s.fld Pg.host size
    if k = 0 then none else some (s.fld Pg.host hi * 2 ^ 32 + s.fld Pg.host lo * 2 ^ 20 + n * 2 ^ k, k, s.fld Pg.host kid)
  if f < 8 then get (Fld.HOST_PF_AP_LO_SIZE p) (Fld.HOST_PF_AP_LO_BASE p) (Fld.HOST_PF_AP_HI_BASE p) (Fld.HOST_AP_KID_PF_KID p) 0
  else get (Fld.HOST_VF_AP_LO_SIZE p) (Fld.HOST_VF_AP_LO_BASE p) (Fld.HOST_VF_AP_HI_BASE p) (Fld.HOST_AP_KID_VF_KID p) ((f - 8) % 63)

/-- The bytes of a request's range, at least one. -/
def HostReq.span (r : HostReq) : Nat := max 1 (if r.wr then r.data.length else r.len.toNat)

/-- HOST_REQUEST: a memory request: what no BAR of a presented function claims is an Unsupported Request; the boot function reaches four pages. -/
def execHostRequest (fn : Fin 512) (bar : Fin 3) (r : HostReq) (s : State) : Out :=
  let f := fn.val
  let off := r.off.toNat
  let inside (n : Nat) : Bool := decide (off + r.span ≤ n)
  if !s.dlUp || s.boot.held != 0 then .next s
  else if !s.fnExists f || !(s.fn f).memEn then .next (s.hostRefuse f r 1)
  else match bar.val with
    | 0 =>
      if 8 ≤ f || !inside (2 ^ 25) then .next (s.hostRefuse f r 1)
      else if s.hostMode = 1 ∧ !(bootPage (off / 4096) && bootPage ((off + r.span - 1) / 4096)) then .next (s.hostRefuse f r 2)
      else .next (s.hostRing f r true 0 (0x010000000000 + off))
    | 1 =>
      match (if s.hostMode = 2 then s.aperture f else none) with
      | none => .next (s.hostRefuse f r 1)
      | some (base, k, kid) => if inside (2 ^ k) then .next (s.hostRing f r false kid (base + off)) else .next (s.hostRefuse f r 1)
    | _ =>
      if s.hostMode ≠ 2 || !inside 0x10000 then .next (s.hostRefuse f r 1)
      else if r.wr then .next (s.bar4Write f off r.data)
      else .next (s.hostComplete f r.tag.toNat 0 ((List.range r.len.toNat).map fun i => byteOf (s.bar4Word f ((off + i) / 4)) ((off + i) % 4)))

/-- CONFIG_REQUEST: Configuration Request Retry Status (answer 0) until functions are presented; Unsupported Request (2) for a function that is not;
else success (1) with the effect of the write. -/
def execConfigRequest (fn : Fin 512) (r : CfgReq) (s : State) : Out :=
  let f := fn.val
  if !s.dlUp || s.boot.held != 0 then .next s
  else if s.hostMode = 0 then .next (s.emit (.config f 0))
  else if !s.fnExists f then .next (s.emit (.config f 2))
  else
    let s := s.emit (.config f 1)
    let x := s.fn f
    match r with
    | .read => .next s
    | .command m b => .next ((s.setFn f { x with memEn := m, busMaster := b }).msixFlush f)
    | .msix e m => .next ((s.setFn f { x with msixEn := e, msixMask := m }).msixFlush f)
    | .numVfs n =>
      if 8 ≤ f ∨ s.hostMode ≠ 2 ∨ 63 < n.toNat then .next s
      else .next ((s.fnReset fun g => decide (8 ≤ g) && pfOf g == f && decide (n.toNat ≤ (g - 8) % 63)).setFn f { x with numVfs := n.toNat })

end Sys2Proof.Machine
end

