-- ==== Sys2Proof/Machine/Nvs.lean ====
section
/-!
DEFINITION. Updating the NV store (R403 to R405): the window, OPEN, CLOSE, VERIFY, FLIP.
-/
namespace Sys2Proof.Machine

def State.updState (s : State) : Nat := s.fld Pg.nvs Fld.NVS_UPD_STAT_STATE

/-- UPD_STAT is written. -/
def State.setUpd (s : State) (busy : Bool) (st result reason : Nat) : State :=
  let s := (s.setFld Pg.nvs Fld.NVS_UPD_STAT_BUSY busy.toNat).setFld Pg.nvs Fld.NVS_UPD_STAT_STATE st
  (s.setFld Pg.nvs Fld.NVS_UPD_STAT_RESULT result).setFld Pg.nvs Fld.NVS_UPD_STAT_REASON reason

/-- A pointer copy as it reads: SEQ and bank. -/
def State.ptrAt (s : State) (i : Nat) : Option (Nat × Nat) :=
  let x := s.nvBlock (ptrOff i / 64)
  match x.decode with
  | .clean => ptrOf x.data
  | .corrected d => ptrOf (BitVec.ofNat 512 d)
  | .uncorrectable => none

/-- The copy that FLIP programs, the one with the lower SEQ, and its content (DESIGN CHOICE log 44: with no copy valid copy A, SEQ 1). -/
def State.flipTarget (s : State) (bank : Nat) : Nat × Line :=
  match newerCopy (s.ptrAt 0) (s.ptrAt 1) with
  | some (i, seq, _) => (ptrOff (1 - i), ptrLine (seq + 1) bank)
  | none => (ptrOff 0, ptrLine 1 bank)

/-- PTR_STAT and PTR_SEQ show the copies. -/
def State.showPtr (s : State) : State :=
  let a := s.ptrAt 0
  let b := s.ptrAt 1
  let (seq, bank) := match newerCopy a b with | some (_, q, k) => (q, k) | none => (0, 0)
  let s := (s.setFld Pg.nvs Fld.NVS_PTR_STAT_A_VALID a.isSome.toNat).setFld Pg.nvs Fld.NVS_PTR_STAT_B_VALID b.isSome.toNat
  (s.setFld Pg.nvs Fld.NVS_PTR_STAT_ACTIVE bank).setReg Pg.nvs Reg.NVS_PTR_SEQ (BitVec.ofNat 32 seq)

/-- An accepted command of UPD_CTRL. -/
def effUpd (v : Word) (s : State) : State :=
  let bank := fieldOf v Fld.NVS_UPD_CTRL_BANK.lo 1
  let has (f : Fld) : Bool := v.getLsbD f.lo
  if has Fld.NVS_UPD_CTRL_OPEN then (s.setUpd false 1 0 0).setFld Pg.nvs Fld.NVS_UPD_STAT_BANK bank
  else if has Fld.NVS_UPD_CTRL_CLOSE then (if s.updState = 1 then s.setUpd false 0 0 0 else s)
  else if has Fld.NVS_UPD_CTRL_VERIFY then (s.setUpd true 2 0 0).setFld Pg.nvs Fld.NVS_UPD_STAT_BANK bank
  else if has Fld.NVS_UPD_CTRL_FLIP then { s.setUpd true 4 0 0 with nv.flip := some (s.flipTarget bank) }
  else s

/-- What a check of a bank under R389 to R394 finds, 0 or the reason of Table 16.9: what a load at a reset now would find, done on a copy of the
state; blocks corrected and uncorrectable on its reads. -/
def State.verifyBank (s : State) (bank : Nat) : Nat × Nat × Nat :=
  let t := (s.deviceReset 3 0 0)
  let t : State := { t with regs := (s.regs.filter fun e => e.1 / 1024 == Pg.bist).foldl (fun m e => mput m e.1 e.2) t.regs }
  let t := t.startUp.fixedStart
  let u := t.nvLoad bank
  let n (k : Nat) : Nat := u.fld Pg.nvs (Fld.PG_TRB_CNT k) - t.fld Pg.nvs (Fld.PG_TRB_CNT k)
  let reason := match u.boot.loading with
    | some img => img.verdict
    | none => u.fld Pg.cfg Fld.CFG_LOAD_ERR_REASON
  (reason, n 0, n 1)

/-- VERIFY_END. -/
def execNvVerifyEnd (s : State) : Out :=
  if s.updState ≠ 2 then .next s
  else
    let (reason, corr, unc) := s.verifyBank (s.fld Pg.nvs Fld.NVS_UPD_STAT_BANK)
    let s := (s.trbN Pg.nvs 0 corr).trbN Pg.nvs 1 unc
    .next (if reason = 0 then s.setUpd false 3 1 0 else s.setUpd false 0 2 reason)

/-- A block program ends; one whose verify fails leaves its block undefined and counts in TRB2. -/
def State.nvProgram (s : State) (b : Nat) (d : Line) (ok : Bool) : State :=
  if ok then (s.setNvBlock b ⟨d, 0, false⟩).renewBlock b
  else
    let l := s.freeLine
    let s := s.useFree
    let c : BitVec 64 := s.freeLine.setWidth 64
    (s.useFree.setNvBlock b ⟨l, c, false⟩).trb Pg.nvs 2

/-- FLIP_END: the pointer copy is programmed and verified (DESIGN CHOICE log 44: after a failure the bank stays VERIFIED). -/
def execNvFlipEnd (ok : Bool) (s : State) : Out :=
  match s.nv.flip with
  | none => .next s
  | some (off, d) =>
    let s := ({ s with nv.flip := none }.nvProgram (off / 64) d ok).showPtr
    .next (if ok then s.setUpd false 0 1 0 else s.setUpd false 3 2 0)

/-! ### The window (R403) -/

/-- The store offset that an address of the window shows. -/
def State.nvWindow (s : State) (addr : Nat) : Nat := s.fld Pg.nvs Fld.NVS_WIN_SEL_HALF * 2 ^ 28 + addr % 2 ^ 28

/-- A read through the window: the block's bytes; an uncorrectable block is a BUS_ERROR (DESIGN CHOICE log 44: the spec gives no status). -/
def State.nvWindowRead (s : State) (t : TxnKey) (x : Txn) : State :=
  match s.nvRead (s.nvWindow x.addr.toNat / 64) with
  | (some d, s) => s.answer t .ok d
  | (none, s) => s.answer t .busError 0

/-- IN_FLIGHT shows the programs. -/
def State.syncFlight (s : State) : State := s.setFld Pg.nvs Fld.NVS_NVS_STAT_IN_FLIGHT s.nv.progs.length

/-- NV_WINDOW_WRITE: a write that the store has received: a full line in the open bank or its auxiliary half is programmed, up to 64 at once;
any other is refused. -/
def execNvWindowWrite (t : TxnKey) (s : State) : Out :=
  match s.txn t with
  | none => .next s
  | some x =>
    let mine := x.dst == 58 && x.dstIf == 1 && decide (x.phase = .delivered) && (x.typ == .wr || x.typ == .wrp)
    if !mine || s.nv.progs.any (fun p => p.txn == t) then .next s
    else
      let off := s.nvWindow x.addr.toNat
      let full := x.len = 0 ∨ (x.len = 7 ∧ x.be = BitVec.allOnes 64)
      let bank := s.fld Pg.nvs Fld.NVS_UPD_STAT_BANK
      if !full ∨ s.updState ≠ 1 ∨ bankOf off ≠ some bank then .next ((s.trb Pg.nvs 3).answer t .busError 0)
      else if 64 ≤ s.nv.progs.length then .next s
      else
        let s : State := { s with nv.progs := s.nv.progs ++ [⟨t, off / 64, x.data⟩] }
        .next s.syncFlight

/-- BLOCK_PROGRAM_END: the program is verified by reading back; then its WACK or PACK. -/
def execBlockProgramEnd (t : TxnKey) (ok : Bool) (s : State) : Out :=
  match s.nv.progs.find? fun p => p.txn == t with
  | none => .next s
  | some p =>
    let s : State := { s with nv.progs := s.nv.progs.filter fun p => p.txn != t }
    .next ((s.nvProgram p.block p.data ok).syncFlight.answer t (if ok then .ok else .busError) 0)

end Sys2Proof.Machine
end

