-- ==== Sys2Proof/Machine/Window.lean ====
section
/-!
DEFINITION. Writes through the management window with every effect, and the commands that are such a write (R11, R471). A command without a value
of its own writes the register's present content with its command bit.
-/
namespace Sys2Proof.Machine

/-- The effects that Window0.lean leaves out: start-up, power, clocks' failures and tests. -/
def effAll (a : Nat) (k : PageKind) (i pg off : Nat) (v old : Word) (s : State) : State :=
  let t := eff0 a k i pg off v old s
  match k with
  | .cfg =>
    if off = Reg.CFG_PR_CTRL then
      if wb v Fld.CFG_PR_CTRL_ABORT then effPartAbort t
      else if wb v Fld.CFG_PR_CTRL_START then effPartStart v t
      else if wb v Fld.CFG_PR_CTRL_CLEAR then effPartClear v t else t
    else t
  | .cfgh =>
    if off = Reg.CFGH_H_CTRL then
      let t := if wb v Fld.CFGH_H_CTRL_ABORT then effHostAbort t else t
      if wb v Fld.CFGH_H_CTRL_START then effHostStart t else t
    else t
  | .nvs => if off = Reg.NVS_UPD_CTRL then effUpd v t else t
  | .pwr => if off = Reg.PWR_DOM_CMD ∧ wb v Fld.PWR_DOM_CMD_START then (effDomCmd v t).scrubSettle else t
  | .stop => if off = Reg.STOP_SNUFF_CTRL then t.scrubSettle.hostIssue else t
  | .alm => if off = Reg.ALM_ADMIT_CTRL then t.scrubSettle.hostIssue else t
  | .rst => if off = Reg.RST_SYS_RESET then t.systemReset 1 else t
  | .clkCtl => if off = Reg.CLK_MUX_CTRL ∧ wb v Fld.CLK_MUX_CTRL_MX0_FORCE then effMx0Force t else t
  | .clkRef => if off = Reg.REF_LOSS_CTRL ∧ wb v Fld.REF_LOSS_CTRL_RELEASE then effSafeRelease t else t
  | .bist => if off = Reg.BIST_FB_CTRL ∧ wb v Fld.BIST_FB_CTRL_START then effFieldStart v t else t
  | _ => t

/-- An agent writes a register: the reason if it is refused, and the state. -/
def State.winWrite (s : State) (a pg off be : Nat) (v : Word) : Option Nat × State := s.winWriteWith effAll a pg off be v

/-! ### Commands that are a register write -/

/-- The writable fields of a register as they are, command bits 0. -/
def State.rwWord (s : State) (pg off : Nat) : Word :=
  match pageOf pg with
  | none => 0
  | some (k, i) =>
    match regAt k i off with
    | none => 0
    | some (r, _) => s.reg pg off &&& r.bits fun c => c == .rw || c == .rwl || c == .rwh

/-- A word with fields set. -/
def withFlds (w : Word) (l : List (Fld × Nat)) : Word := l.foldl (fun w e => withField w e.1.lo e.1.width e.2) w

/-- A full-word write by an agent. -/
def State.put (s : State) (a pg off : Nat) (v : Word) : State := (s.winWrite a pg off 0xF v).2

/-- A write of a register's present content with fields set. -/
def State.cmd (s : State) (a pg off : Nat) (l : List (Fld × Nat)) : State := s.put a pg off (withFlds (s.rwWord pg off) l)

/-- REGISTER_WRITE: a write with its byte enables (R11, R471). -/
def execRegisterWrite (agent : Agent) (page : BitVec 13) (off : BitVec 12) (be : BitVec 4) (v : BitVec 32) (s : State) : Out :=
  .next (s.winWrite agent.toNat page.toNat off.toNat be.toNat v).2

/-- LO_REGISTER_READ: a read, which at a LO register records HI for the agent (R469). -/
def execLoRegisterRead (agent : Agent) (page : BitVec 13) (off : BitVec 12) (s : State) : Out :=
  .next (s.winRead agent.toNat page.toNat off.toNat).2

/-! Page header (R459, R463, R472). -/

def execSoftReset (agent : Agent) (page : BitVec 13) (s : State) : Out :=
  .next (s.put agent.toNat page.toNat Reg.PG_PG_CTRL 3)
def execTrbClr (agent : Agent) (page : BitVec 13) (s : State) : Out := .next (s.put agent.toNat page.toNat Reg.PG_TRB_CLR 1)
def execAcquire (agent : Agent) (page : BitVec 13) (s : State) : Out := .next (s.put agent.toNat page.toNat Reg.PG_PG_LOCK 1)
def execRelease (agent : Agent) (page : BitVec 13) (s : State) : Out := .next (s.put agent.toNat page.toNat Reg.PG_PG_LOCK 2)
def execClrBroken (agent : Agent) (page : BitVec 13) (s : State) : Out := .next (s.put agent.toNat page.toNat Reg.PG_PG_LOCK 3)

/-! Engines and lanterns (R124, R127 to R132). -/

def execHaltCommand (agent : Agent) (e : Fin 96) (s : State) : Out := .next (s.put agent.toNat (Pg.engCtl e) Reg.ENG_CMD 1)
def execResume (agent : Agent) (e : Fin 96) (s : State) : Out := .next (s.put agent.toNat (Pg.engCtl e) Reg.ENG_CMD 2)
def execStepCmd (agent : Agent) (e : Fin 96) (s : State) : Out := .next (s.put agent.toNat (Pg.engCtl e) Reg.ENG_CMD 4)
def execEngSrWrite (agent : Agent) (e : Fin 96) (off : BitVec 12) (v : BitVec 32) (s : State) : Out :=
  .next (s.put agent.toNat (Pg.engSr e) off.toNat v)
def execSync (agent : Agent) (k : Fin 24) (s : State) : Out := .next (s.cmd agent.toNat (Pg.lan k) Reg.LAN_SYNC_CMD [(Fld.LAN_SYNC_CMD_SYNC, 1)])

/-! Attachment points, caches, DRAM (R160, R166, R168, R189, R193, R194, R211). -/

def execFence (agent : Agent) (stop : Fin 64) (ifs : BitVec 4) (s : State) : Out :=
  .next (s.cmd agent.toNat (Pg.stop stop) Reg.STOP_FENCE [(Fld.STOP_FENCE_START, ifs.toNat)])
def execSnuff (agent : Agent) (stop : Fin 64) (ifs : BitVec 4) (s : State) : Out :=
  .next (s.cmd agent.toNat (Pg.stop stop) Reg.STOP_SNUFF_CTRL [(Fld.STOP_SNUFF_CTRL_SNUFF, ifs.toNat)])
def execIfOn (agent : Agent) (stop : Fin 64) (ifs : BitVec 4) (s : State) : Out :=
  .next (s.cmd agent.toNat (Pg.stop stop) Reg.STOP_SNUFF_CTRL [(Fld.STOP_SNUFF_CTRL_ON, ifs.toNat)])
def execDieLost (agent : Agent) (dies : BitVec 8) (s : State) : Out :=
  .next (s.cmd agent.toNat Pg.dir Reg.DIR_DIE_LOST [(Fld.DIR_DIE_LOST_LOST, dies.toNat)])
def execRangeCmoClean (agent : Agent) (s : State) : Out :=
  .next (s.cmd agent.toNat Pg.dir Reg.DIR_CMO_CTRL [(Fld.DIR_CMO_CTRL_OP, 0), (Fld.DIR_CMO_CTRL_START, 1)])
def execRangeCmoFlush (agent : Agent) (s : State) : Out :=
  .next (s.cmd agent.toNat Pg.dir Reg.DIR_CMO_CTRL [(Fld.DIR_CMO_CTRL_OP, 1), (Fld.DIR_CMO_CTRL_START, 1)])
def execDieCacheFlush (agent : Agent) (die : Fin 8) (s : State) : Out :=
  .next (s.cmd agent.toNat (Pg.dc die) Reg.DC_DC_CTRL [(Fld.DC_DC_CTRL_FLUSH, 1)])
def execTrainStart (agent : Agent) (c : Fin 136) (s : State) : Out :=
  .next (s.cmd agent.toNat (cbPage c) (cbBase c + Reg.CB_TRAIN) [(Fld.CB_TRAIN_START, 1)])

/-! Keys (R230 to R236). -/

def execKeyLoad (agent : Agent) (slot : Fin 1024) (s : State) : Out :=
  .next (s.cmd agent.toNat Pg.key Reg.KEY_LOAD_CTRL [(Fld.KEY_LOAD_CTRL_SLOT, slot), (Fld.KEY_LOAD_CTRL_START, 1)])
def execActivate (agent : Agent) (slot : Fin 1024) (s : State) : Out :=
  .next (s.cmd agent.toNat (Pg.keySlt (slot.val / 256)) (Reg.SLT_CFG (slot.val % 256)) [(Fld.SLT_CFG_CMD 0, 1)])
def execDisable (agent : Agent) (slot : Fin 1024) (s : State) : Out :=
  .next (s.cmd agent.toNat (Pg.keySlt (slot.val / 256)) (Reg.SLT_CFG (slot.val % 256)) [(Fld.SLT_CFG_CMD 0, 2)])
def execAlarmAck (agent : Agent) (s : State) : Out := .next (s.cmd agent.toNat Pg.key Reg.KEY_EMB_ALARM_ACK [(Fld.KEY_EMB_ALARM_ACK_ACK, 1)])

/-! Scrub, raw mode, repair (R248, R252, R254 to R262). -/

def execScrubStart (agent : Agent) (k : Fin 8) (v : BitVec 32) (s : State) : Out :=
  .next (s.put agent.toNat (Pg.scrub k) Reg.SCR_SCR_CTRL (withFlds v [(Fld.SCR_SCR_CTRL_START, 1), (Fld.SCR_SCR_CTRL_STOP, 0)]))
def execScrubStop (agent : Agent) (k : Fin 8) (s : State) : Out :=
  .next (s.cmd agent.toNat (Pg.scrub k) Reg.SCR_SCR_CTRL [(Fld.SCR_SCR_CTRL_STOP, 1)])

/-- RAW_CTRL of one of the ten ECC pages, ECC_F0 to ECC_F7, ECC_MNT, ECC_DRAM. -/
def State.rawCmd (s : State) (agent : Agent) (pg : Fin 10) (op : Nat) : State :=
  s.cmd agent.toNat (Pg.eccF 0 + pg.val) Reg.ECC_RAW_CTRL [(Fld.ECC_RAW_CTRL_OP, op)]
def execRawEnter (agent : Agent) (pg : Fin 10) (s : State) : Out := .next (s.rawCmd agent pg 1)
def execRawExit (agent : Agent) (pg : Fin 10) (s : State) : Out := .next (s.rawCmd agent pg 2)
def execRawRead (agent : Agent) (pg : Fin 10) (s : State) : Out := .next (s.rawCmd agent pg 3)
def execRawWrite (agent : Agent) (pg : Fin 10) (s : State) : Out := .next (s.rawCmd agent pg 4)
def execRawEncode (agent : Agent) (pg : Fin 10) (s : State) : Out := .next (s.rawCmd agent pg 5)

def State.listCmd (s : State) (agent : Agent) (op : Nat) : State := s.cmd agent.toNat Pg.repair Reg.REP_LIST_CTRL [(Fld.REP_LIST_CTRL_OP, op)]
def execAddEntry (agent : Agent) (s : State) : Out := .next (s.listCmd agent 1)
def execCommit (agent : Agent) (s : State) : Out := .next (s.listCmd agent 2)
def execListWrite (agent : Agent) (s : State) : Out := .next (s.listCmd agent 4)

/-! Check engines (R268 to R276): the modes of JOB_CTRL. -/

def State.jobCmd (s : State) (agent : Agent) (k : Fin 16) (mode poly : Nat) : State :=
  s.cmd agent.toNat (Pg.chk k) Reg.CHK_JOB_CTRL [(Fld.CHK_JOB_CTRL_MODE, mode), (Fld.CHK_JOB_CTRL_POLY, poly), (Fld.CHK_JOB_CTRL_START, 1)]
def execOutgoingJob (agent : Agent) (k : Fin 16) (poly : BitVec 2) (s : State) : Out := .next (s.jobCmd agent k 0 poly.toNat)
def execIncomingJob (agent : Agent) (k : Fin 16) (poly : BitVec 2) (s : State) : Out := .next (s.jobCmd agent k 1 poly.toNat)
def execScanJob (agent : Agent) (k : Fin 16) (poly : BitVec 2) (compare : Bool) (s : State) : Out :=
  .next (s.jobCmd agent k (2 + compare.toNat) poly.toNat)
def execJobStop (agent : Agent) (k : Fin 16) (s : State) : Out :=
  .next (s.cmd agent.toNat (Pg.chk k) Reg.CHK_JOB_CTRL [(Fld.CHK_JOB_CTRL_STOP, 1)])

/-! Lanes, host link, UCIe, Tequel (R289, R303, R309, R313, R326, R327, R330, R337, R343, R346, R349). -/

def execLaneEnable (agent : Agent) (l : Fin 192) (s : State) : Out :=
  .next (s.cmd agent.toNat (Pg.lane l) Reg.LN_CTRL [(Fld.LN_CTRL_ENABLE, 1)])
def execLaneDisable (agent : Agent) (l : Fin 192) (s : State) : Out :=
  .next (s.cmd agent.toNat (Pg.lane l) Reg.LN_CTRL [(Fld.LN_CTRL_ENABLE, 0)])
def execRestart (agent : Agent) (l : Fin 192) (s : State) : Out :=
  .next (s.cmd agent.toNat (Pg.lane l) Reg.LN_CTRL [(Fld.LN_CTRL_RESTART, 1)])
def execFire (agent : Agent) (l : Fin 192) (s : State) : Out := .next (s.cmd agent.toNat (Pg.lane l) Reg.LN_INJ [(Fld.LN_INJ_FIRE, 1)])
def execMsixTrig (agent : Agent) (g : BitVec 11) (s : State) : Out :=
  .next (s.cmd agent.toNat Pg.hostLnk Reg.HLNK_MSIX_TRIG [(Fld.HLNK_MSIX_TRIG_VECTOR, g.toNat)])
def execLinkRetrain (agent : Agent) (s : State) : Out :=
  .next (s.cmd agent.toNat Pg.hostLnk Reg.HLNK_LINK_CTRL [(Fld.HLNK_LINK_CTRL_RETRAIN, 1)])

/-- RETRAIN: M_CTRL.RETRAIN, or the request of the partner. -/
def execRetrain (u : Fin 4) (agent : Option Agent) (s : State) : Out :=
  match agent with
  | some a => .next (s.cmd a.toNat (Pg.uciM u) Reg.UCIM_M_CTRL [(Fld.UCIM_M_CTRL_RETRAIN, 1)])
  | none => if s.uciState u = 2 then .next (effRetrain u s) else .next s
def execModuleEnable (agent : Agent) (u : Fin 4) (s : State) : Out :=
  .next (s.cmd agent.toNat (Pg.uciM u) Reg.UCIM_M_CTRL [(Fld.UCIM_M_CTRL_ENABLE, 1)])
def execModuleDisable (agent : Agent) (u : Fin 4) (s : State) : Out :=
  .next (s.cmd agent.toNat (Pg.uciM u) Reg.UCIM_M_CTRL [(Fld.UCIM_M_CTRL_ENABLE, 0)])
def execSpanEnable (agent : Agent) (sp : Fin 24) (width : BitVec 4) (s : State) : Out :=
  .next (s.cmd agent.toNat (Pg.span sp) Reg.SPAN_SP_CTRL [(Fld.SPAN_SP_CTRL_WIDTH, width.toNat), (Fld.SPAN_SP_CTRL_ENABLE, 1)])
def execQueueEnable (agent : Agent) (v : BitVec 32) (s : State) : Out :=
  .next (s.put agent.toNat Pg.tq Reg.TQ_Q_CFG (withFlds v [(Fld.TQ_Q_CFG_EN, 1)]))
def execQueueDisable (agent : Agent) (s : State) : Out :=
  .next (s.put agent.toNat Pg.tq Reg.TQ_Q_CFG (withFlds (s.queue s.qSel).cfg [(Fld.TQ_Q_CFG_EN, 0), (Fld.TQ_Q_CFG_BROKEN, 0)]))
def execElectionStart (agent : Agent) (s : State) : Out := .next (s.cmd agent.toNat Pg.tq Reg.TQ_ELECT [(Fld.TQ_ELECT_START, 1)])
def execNodeWrite (agent : Agent) (v : BitVec 32) (s : State) : Out := .next (s.put agent.toNat Pg.tq Reg.TQ_NODE v)
def execRtData (agent : Agent) (wr : Option (BitVec 32)) (s : State) : Out :=
  match wr with
  | some v => .next (s.put agent.toNat Pg.tq Reg.TQ_RT_DATA v)
  | none => .next (s.winRead agent.toNat Pg.tq Reg.TQ_RT_DATA).2
def execPerrRecordPop (agent : Agent) (s : State) : Out := .next (s.cmd agent.toNat Pg.tq Reg.TQ_PERR_HI [(Fld.TQ_PERR_HI_VALID, 1)])

/-! Clocks (R54, R356 to R370). -/

def execToMaster (agent : Agent) (s : State) : Out :=
  .next (s.cmd agent.toNat Pg.clkRef Reg.REF_DPLL_CTRL [(Fld.REF_DPLL_CTRL_TO_MASTER, 1)])
def execRefPrioWrite (agent : Agent) (v : BitVec 32) (s : State) : Out := .next (s.put agent.toNat Pg.clkRef Reg.REF_REF_PRIO v)
def execLoopOn (agent : Agent) (l : Fin 64) (s : State) : Out :=
  .next (s.cmd agent.toNat Pg.clkMl (Reg.ML_CFG l) [(Fld.ML_CFG_ON l, 1)])
def execLoopOff (agent : Agent) (l : Fin 64) (s : State) : Out :=
  .next (s.cmd agent.toNat Pg.clkMl (Reg.ML_CFG l) [(Fld.ML_CFG_ON l, 0)])
def execSkip (agent : Agent) (l : Fin 64) (v : BitVec 32) (s : State) : Out := .next (s.put agent.toNat Pg.clkMl (Reg.ML_THR l) v)
def execCregGate (agent : Agent) (die : Fin 8) (v : BitVec 32) (s : State) : Out :=
  .next (s.put agent.toNat (Pg.fabCtl die) Reg.FABCTL_CREG_GATE v)
def execFdieGate (agent : Agent) (die : Fin 8) (v : BitVec 32) (s : State) : Out :=
  .next (s.put agent.toNat Pg.clkCtl (Reg.CLK_FDIE_GATE die) v)
def execMx0Force (agent : Agent) (s : State) : Out := .next (s.cmd agent.toNat Pg.clkCtl Reg.CLK_MUX_CTRL [(Fld.CLK_MUX_CTRL_MX0_FORCE, 1)])
def execSafeRelease (agent : Agent) (s : State) : Out :=
  .next (s.cmd agent.toNat Pg.clkRef Reg.REF_LOSS_CTRL [(Fld.REF_LOSS_CTRL_RELEASE, 1)])

/-! Configuration (R397 to R404). -/

def execHostLoadStart (agent : Agent) (s : State) : Out := .next (s.cmd agent.toNat Pg.cfgh Reg.CFGH_H_CTRL [(Fld.CFGH_H_CTRL_START, 1)])
def execHDoorbell (agent : Agent) (v : BitVec 32) (s : State) : Out := .next (s.put agent.toNat Pg.cfgh Reg.CFGH_H_DOORBELL v)
def execHostLoadAbort (agent : Agent) (s : State) : Out := .next (s.cmd agent.toNat Pg.cfgh Reg.CFGH_H_CTRL [(Fld.CFGH_H_CTRL_ABORT, 1)])
def execPartialLoad (agent : Agent) (v : BitVec 32) (s : State) : Out :=
  .next (s.put agent.toNat Pg.cfg Reg.CFG_PR_CTRL
    (withFlds v [(Fld.CFG_PR_CTRL_START, 1), (Fld.CFG_PR_CTRL_ABORT, 0), (Fld.CFG_PR_CTRL_CLEAR, 0)]))
def execPartialAbort (agent : Agent) (s : State) : Out := .next (s.cmd agent.toNat Pg.cfg Reg.CFG_PR_CTRL [(Fld.CFG_PR_CTRL_ABORT, 1)])
def execPrClear (agent : Agent) (v : BitVec 32) (s : State) : Out :=
  .next (s.put agent.toNat Pg.cfg Reg.CFG_PR_CTRL
    (withFlds v [(Fld.CFG_PR_CTRL_START, 0), (Fld.CFG_PR_CTRL_ABORT, 0), (Fld.CFG_PR_CTRL_CLEAR, 1)]))

/-- UPD_CTRL with one of its commands. -/
def State.updCmd (s : State) (agent : Agent) (v : Word) (f : Fld) : State :=
  s.put agent.toNat Pg.nvs Reg.NVS_UPD_CTRL (withFlds v [(Fld.NVS_UPD_CTRL_OPEN, 0), (Fld.NVS_UPD_CTRL_CLOSE, 0), (Fld.NVS_UPD_CTRL_VERIFY, 0),
    (Fld.NVS_UPD_CTRL_FLIP, 0), (f, 1)])
def execNvOpen (agent : Agent) (v : BitVec 32) (s : State) : Out := .next (s.updCmd agent v Fld.NVS_UPD_CTRL_OPEN)
def execNvClose (agent : Agent) (s : State) : Out := .next (s.updCmd agent (s.rwWord Pg.nvs Reg.NVS_UPD_CTRL) Fld.NVS_UPD_CTRL_CLOSE)
def execNvVerify (agent : Agent) (v : BitVec 32) (s : State) : Out := .next (s.updCmd agent v Fld.NVS_UPD_CTRL_VERIFY)
def execNvFlip (agent : Agent) (v : BitVec 32) (s : State) : Out := .next (s.updCmd agent v Fld.NVS_UPD_CTRL_FLIP)

/-! Power, reset, ember (R416, R422, R428 to R431). -/

def execDomainPowerOff (agent : Agent) (v : BitVec 32) (s : State) : Out :=
  .next (s.put agent.toNat Pg.pwr Reg.PWR_DOM_CMD (withFlds v [(Fld.PWR_DOM_CMD_START, 1), (Fld.PWR_DOM_CMD_OP, 0)]))
def execDomainPowerOn (agent : Agent) (v : BitVec 32) (s : State) : Out :=
  .next (s.put agent.toNat Pg.pwr Reg.PWR_DOM_CMD (withFlds v [(Fld.PWR_DOM_CMD_START, 1), (Fld.PWR_DOM_CMD_OP, 1)]))
def execSysReset (agent : Agent) (v : BitVec 32) (s : State) : Out := .next (s.put agent.toNat Pg.rst Reg.RST_SYS_RESET v)
def execCfgLock (agent : Agent) (s : State) : Out := .next (s.cmd agent.toNat Pg.emb Reg.EMB_EMB_CTRL [(Fld.EMB_EMB_CTRL_CFG_LOCK, 1)])
def execInstall (agent : Agent) (s : State) : Out := .next (s.cmd agent.toNat Pg.emb Reg.EMB_KEK_CTRL [(Fld.EMB_KEK_CTRL_INSTALL, 1)])
def execZeroise (agent : Agent) (s : State) : Out := .next (s.cmd agent.toNat Pg.emb Reg.EMB_KEK_CTRL [(Fld.EMB_KEK_CTRL_ZEROISE, 1)])

/-! Service states and alarms (R447 to R456). -/

def State.admitCmd (s : State) (agent : Agent) (v : Word) (op : Nat) : State :=
  s.put agent.toNat Pg.alm Reg.ALM_ADMIT_CTRL (withFlds v [(Fld.ALM_ADMIT_CTRL_START, 1), (Fld.ALM_ADMIT_CTRL_OP, op)])
def execAdmitOut (agent : Agent) (v : BitVec 32) (s : State) : Out := .next (s.admitCmd agent v 1)
def execQuarantine (agent : Agent) (v : BitVec 32) (s : State) : Out := .next (s.admitCmd agent v 2)
def execReadmit (agent : Agent) (v : BitVec 32) (s : State) : Out := .next (s.admitCmd agent v 3)
def execAlarmQueuePop (agent : Agent) (s : State) : Out := .next (s.cmd agent.toNat Pg.alm Reg.ALM_Q_STAT [(Fld.ALM_Q_STAT_POP, 1)])

/-! Mailbox (R482) and tests (R493, R498). -/

def State.chCmd (s : State) (agent : Agent) (c : Fin 8) (op : Nat) : State :=
  s.put agent.toNat Pg.mbx (Reg.MBX_CH_CTRL c) (BitVec.ofNat 32 op)
def execChannelClaim (agent : Agent) (c : Fin 8) (s : State) : Out := .next (s.chCmd agent c 1)
def execGo (agent : Agent) (c : Fin 8) (s : State) : Out := .next (s.chCmd agent c 2)
def execChannelRelease (agent : Agent) (c : Fin 8) (s : State) : Out := .next (s.chCmd agent c 3)
def execFieldBist (agent : Agent) (v : BitVec 32) (s : State) : Out :=
  .next (s.put agent.toNat Pg.bist Reg.BIST_FB_CTRL (withFlds v [(Fld.BIST_FB_CTRL_START, 1)]))
def execAtbSelect (agent : Agent) (bus1 : Bool) (v : BitVec 32) (s : State) : Out :=
  .next (s.put agent.toNat Pg.atb (if bus1 then Reg.ATB_ATB1_SEL else Reg.ATB_ATB0_SEL) v)

end Sys2Proof.Machine
end

