-- ==== Sys2Proof/Machine/Settle.lean ====
section
/-!
DEFINITION. What ends once its waiting is over: snuffs and the commands that wait for them (R166, R167, R191), step 2 of a purge (R233 to R235).
-/
namespace Sys2Proof.Machine

/-- An interface has been snuffed: what waited for that goes on, a UCIe module's stop, a domain's power-off, OUT of a service command. -/
def State.snuffed (s : State) (stop : Nat) : State :=
  let s := if 60 ≤ stop then s.uciSettle (stop - 60) else s
  s.domSettle.admitSettle

/-- SNUFF_DONE: with nothing outstanding and nothing unanswered the interface is OFF (Table 06.9, steps 4 and 5). -/
def execSnuffDone (stop : Fin 64) (ifc : Fin 4) (s : State) : Out :=
  let pg := Pg.stop stop
  let key := ifKey stop ifc
  if s.ifState stop ifc ≠ 3 || s.ifOpen stop ifc || s.ifUnanswered stop ifc || !s.snuffReady stop ifc
      || [TxnClass.req, .post, .mgmt].any (fun c => !(s.epQ key c).isEmpty) then .next s
  else
    let s := s.setIfState stop ifc 4
    let s := s.setFld pg Fld.STOP_SNUFF_STAT_DONE (s.fld pg Fld.STOP_SNUFF_STAT_DONE ||| 2 ^ ifc.val)
    let late := s.fld pg Fld.STOP_SNUFF_STAT_TO
    let s := s.setFld pg Fld.STOP_SNUFF_STAT_TO (if late.testBit ifc then late - 2 ^ ifc.val else late)
    .next ((s.raise pg Evt.STOP_SNUFF_DONE).snuffed stop)

/-- SNUFF_TIMEOUT: the snuff ends as R167 says; a die cache's lines that it did not write back are lost, and the manager writes DIE_LOST (R191). -/
def execSnuffTimeout (stop : Fin 64) (ifc : Fin 4) (s : State) : Out :=
  let pg := Pg.stop stop
  if s.ifState stop ifc ≠ 3 then .next s
  else
    let s := s.cutOff stop ifc
    let s := s.setFld pg Fld.STOP_SNUFF_STAT_DONE (s.fld pg Fld.STOP_SNUFF_STAT_DONE ||| 2 ^ ifc.val)
    let s := s.setFld pg Fld.STOP_SNUFF_STAT_TO (s.fld pg Fld.STOP_SNUFF_STAT_TO ||| 2 ^ ifc.val)
    let s := s.raise pg Evt.STOP_SNUFF_TO
    let s := match epKind stop ifc with
      | .dcache m => if s.managerRuns then effDieLost (2 ^ m) s else s
      | _ => s
    .next (s.snuffed stop)

/-- A home has a request of a key ID in a tracker. -/
def State.trkUnder (s : State) (k : Nat) : Bool :=
  s.coh.trk.any fun e => e.2.any fun t => t.kid.toNat == k && (match t.asker with | .recall _ => false | _ => true)

/-- The Tequel engine holds frames to decrypt under a slot, or requests checked under it that wait to be encrypted (R234). -/
def State.framesUnder (s : State) (k : Nat) : Bool :=
  s.tq.queues.any fun e => e.2.en && !e.2.broken && e.2.key == k && (!e.2.held.isEmpty || e.2.wait.any fun o => o.pair.isSome)

/-- PURGE_WAIT_END: step 2 of Table 09.5 ends: the purge of a LINK slot or of a LOADED one is over (R233, R234), that of slot 0 waits for Tequel frames
too (R235). -/
def execPurgeWaitEnd (s : State) : Out :=
  match s.keys.purge with
  | none => .next s
  | some p =>
    let frames := (!p.mem || p.slot == 0) && s.framesUnder p.slot
    if s.fld Pg.ime Fld.IME_PURGE_STAT_PHASE ≠ 1 ∨ s.slotState p.slot ≠ 3 ∨ s.trkUnder p.slot ∨ frames then .next s
    else if p.was = 1 ∨ !p.mem then .next (s.purgeDone p.slot)
    else .next (s.setFld Pg.ime Fld.IME_PURGE_STAT_PHASE 2)

end Sys2Proof.Machine
end

