-- ==== Sys2Proof/Machine/Deliver.lean ====
section
/-!
DEFINITION. The life of a ring transaction: injection, arrival, what the end points make of it, its answer and its end without one (R129, R144,
R147 to R149, R158, R161, R165, R192, R443, R465, R467, R524).
-/
namespace Sys2Proof.Machine

/-! ### The end at the source -/

/-- A request that a die cache had passed on has ended: the next of its port and line goes on (R182). -/
def State.dcPassed (s : State) (m : Nat) (x : Txn) : State :=
  let line := x.addr.toNat / 64
  { s with coh.passed := s.coh.passed.erase (dcKey m line, x.who, decide (x.typ = ReqType.clean) || decide (x.typ = ReqType.flush)) }.dcGo m line

/-- A transaction ends at its source with a status: its end point receives it under its own tag; a posted write reports a failure only (R147, R158,
R161). -/
def State.endAt (s : State) (t : TxnKey) (x : Txn) (st : Status) (data : Line) : State :=
  let kind := epKind t.src x.ifc
  if x.typ = .wrp then
    let at_ : Nat × Nat := match kind with | .dcache m => portAt (8 * m + x.who) | _ => (t.src.val, x.ifc)
    let s := if st = .ok then s else s.errEntry at_.1 at_.2 x.addr x.kid st
    match kind with
    | .host => s.hostEnd x.epTag.toNat x.addr.toNat st 0
    | .tequel => s.tqResponse x.who x.epTag st 0
    | .dcache m => s.dcPassed m x
    | _ => s
  else match kind with
    | .port p => s.portRespond p x.epTag st data false
    | .dcache m => (s.portRespond (8 * m + x.who) x.epTag st data false).dcPassed m x
    | .check => s.chkResponse x.who x.typ x.addr st data
    | .host => s.hostEnd x.epTag.toNat x.addr.toNat st data
    | .tequel => s.tqResponse x.who x.epTag st data
    | .mgmt => if x.who = 0 then s.partResponse st data else s
    | .partner u => s.uciSend u (x.partnerResponse t st.no data)
    | _ => s

/-! ### Injection (R147 to R149, R192) -/

/-- A request as the source attachment point sees one that it ends itself. -/
def EpEntry.asTxn (e : EpEntry) (stop : Fin 64) (ifc : Nat) : TxnKey × Txn :=
  (⟨stop, if e.typ = .wrp then .post else .req, 0⟩,
    { ifc := ifc, epTag := e.r.tag, who := e.r.who.toNat, typ := e.typ, addr := BitVec.ofNat 48 (fieldOf e.r.addr 0 48),
      kid := BitVec.ofNat 10 (fieldOf e.r.addr 48 10), tid := e.tid, len := e.r.len, data := 0, be := 0, dst := stop, dstIf := ifc, ring := 0,
      ringBack := 0, phase := .flying, poison := false, seq := 0, aseq := 0, live := true })

/-- The request at the head of the queue of class `q` is checked and injected; refused, it ends with BUS_ERROR; a CMO outside the cacheable ranges is answered at
once. It waits for a fence, for a tag and its turn, for room on the ring, and while its flow is held. -/
def State.injectHead (s : State) (stop : Fin 64) (ifc : Nat) (q : TxnClass) (e : EpEntry) : State :=
  let key := ifKey stop ifc
  if !s.mayInject stop ifc || ((mget s.rings.fences key).isSome && s.beforeFence key q == 0) then s
  else
    let me := e.asTxn stop ifc
    match s.headDest stop ifc e with
    | none => ((s.popHead key q).refuseReq stop).endAt me.1 me.2 .busError 0
    | some d =>
      let cmo := e.typ = .clean ∨ e.typ = .flush
      let c := s.classOf stop ifc e.typ d
      if cmo ∧ !cacheable (fieldOf e.r.addr 0 48) then (s.popHead key q).endAt me.1 me.2 .ok 0
      else if s.flowHeld stop d.1 ∨ !s.turnOk stop ifc c then s
      else match s.inject stop ifc e d with
        | none => s
        | some s => s.popHead key q

/-- An end point issues a request: the one at the head of a queue of its interface; management firmware, which has no queue of its own, hands it over
here. -/
def State.issueReq (s : State) (stop : Fin 64) (ifc : Fin 4) (typ : ReqType) (r : EpReq) : State :=
  let key := ifKey stop ifc
  match [TxnClass.req, .post, .mgmt].findSome? fun q => (s.epQ key q).head?.bind fun e => if e.typ = typ ∧ e.r = r then some (q, e) else none with
  | some (q, e) => s.injectHead stop ifc q e
  | none =>
    let e : EpEntry := ⟨typ, { r with who := 1 }, 0, false⟩
    let q := s.queueOf 58 0 typ r.addr.toNat
    if key = ifKey 58 0 ∧ s.managerRuns ∧ s.mayIssue 58 0 ∧ s.epQ key q = [] then (s.handIn 58 0 e).injectHead stop ifc q e else s

/-- RD: a read is issued. -/
def execRd (stop : Fin 64) (ifc : Fin 4) (r : EpReq) (s : State) : Out := .next (s.issueReq stop ifc .rd r)
/-- WR: a write is issued. -/
def execWr (stop : Fin 64) (ifc : Fin 4) (r : EpReq) (s : State) : Out := .next (s.issueReq stop ifc .wr r)
/-- WRP: a posted write is issued. -/
def execWrp (stop : Fin 64) (ifc : Fin 4) (r : EpReq) (s : State) : Out := .next (s.issueReq stop ifc .wrp r)
/-- CMO_CLEAN: a CLEAN is issued (R192). -/
def execCmoClean (stop : Fin 64) (ifc : Fin 4) (r : EpReq) (s : State) : Out := .next (s.issueReq stop ifc .clean r)
/-- CMO_FLUSH: a FLUSH is issued (R192). -/
def execCmoFlush (stop : Fin 64) (ifc : Fin 4) (r : EpReq) (s : State) : Out := .next (s.issueReq stop ifc .flush r)

/-! ### The management window on the ring (R465, R467) -/

/-- The agent of a request from the rings, by the path it came on. -/
def windowAgent (t : TxnKey) (x : Txn) : Option Nat :=
  match epKind t.src x.ifc with
  | .port p => some (0x40 + p)
  | .partner u => some (0x80 + u)
  | .host => if 0x800 ≤ x.who ∧ x.who < 0x808 then some (0x08 + (x.who - 0x800)) else none
  | _ => none

/-- The window performs an access as 32-bit accesses in increasing address order; any other route receives BUS_ERROR. A refused write is OK on the
ring (R8). -/
def State.windowTake (s : State) (t : TxnKey) (x : Txn) : State :=
  match windowAgent t x with
  | none => s.answer t .busError 0
  | some a =>
    let words := (List.range 16).filter fun w => x.bytes / 2 ^ (4 * w) % 16 != 0
    let off (w : Nat) : Nat := x.addr.toNat / 64 * 64 + 4 * w - 0x010000000000
    if x.typ = .rd then
      let (d, s) := words.foldl (fun (acc : Line × State) w =>
        let (v, s) := acc.2.winRead a (off w / 4096) (off w % 4096)
        (withField acc.1 (32 * w) 32 v.toNat, s)) ((0 : Line), s)
      s.answer t .ok (mergeLanes 8 64 x.bytes 0 d)
    else
      let s := words.foldl (fun (s : State) w =>
        (s.winWrite a (off w / 4096) (off w % 4096) (x.bytes / 2 ^ (4 * w) % 16) (BitVec.ofNat 32 (fieldOf x.data (32 * w) 32))).2) s
      s.answer t .ok 0

/-! ### Arrival (R165, Table 06.8) -/

/-- A request is delivered to its end point; a closed gate before it raises a WICK (R24, R366). -/
def State.deliverReq (s : State) (t : TxnKey) (x : Txn) : State :=
  let s := (s.epIslands x.dst x.dstIf).foldl State.raiseWick s
  match epKind x.dst x.dstIf with
  | .mgmt => s.windowTake t x
  | .nv => if x.typ = .rd then s.nvWindowRead t x else s.setTxn t { x with phase := .delivered }
  | .partner u => s.partnerTake u t x
  | _ => s.handOver t x

/-- A request that has come off the ring: delivered, parked or answered as the state of its interface says; behind those that are parked there. -/
def State.arrive (s : State) (t : TxnKey) (x : Txn) : State :=
  let s := s.ringSound t.src x.dst x.ring
  match s.ifState x.dst x.dstIf with
  | 1 | 2 => if (s.parkedAt x.dst x.dstIf).isEmpty then s.deliverReq t x else s
  | 3 => s.answer t .domainOff 0
  | 4 => if (s.fld (Pg.stop x.dst) Fld.STOP_IF_CTRL_WAKE_EN).testBit x.dstIf then s.park t x else s.answer t .domainOff 0
  | 6 => if t.cls = .mgmt then s.deliverReq t x else s.answer t .domainOff 0
  | _ => s.answer t .busError 0

/-- REQUEST_ARRIVAL: a request reaches its destination attachment point, in order (R159), when the ejection queue of its VC has room (R154); one whose type its VC does not
carry is discarded and counted in TRB5 (Table 06.14). A parked one of an interface that is ON again passes to its end point. -/
def execRequestArrival (t : TxnKey) (s : State) : Out :=
  match s.txn t with
  | none => .next s
  | some x =>
    if x.phase = .parked ∧ s.ifState x.dst x.dstIf = 1 ∧ (s.parkedAt x.dst x.dstIf).head? = some t then
      .next (s.unparkFirst x.dst x.dstIf State.deliverReq)
    else if x.phase ≠ .flying ∨ s.clk.failed ∨ !s.mayLand (.req t.no) ∨ t.cls.vc.eject ≤ s.ejected x.dst t.cls then .next s
    else if (s.flit (.req t.no)).any Flit.badType then
      .next ((s.landed (.req t.no)).setTxn t { x with phase := .lost } |>.trb (Pg.stop x.dst) 5)
    else
      let s := s.arrive t x
      -- one that its end point has no room for stays on the ring
      .next (if (s.txn t).any fun y => decide (y.phase = .flying) then s else s.landed (.req t.no))

/-! ### Lanterns (R28, R129, R524) -/

/-- Where an address of a lantern's interface leads: the memory and the byte offset in it. -/
def lanternPlace (a : Nat) : LanMem × Nat :=
  if a < 0x010023000000 then
    let e := Fin.ofNat 96 ((a - 0x010020000000) / 0x80000)
    let o := a % 0x80000
    if o < 0x40000 then (.prog e, o) else (.data e, o - 0x40000)
  else (.lan (Fin.ofNat 24 ((a - 0x010023000000) / 0x100000)), a % 0x100000)

/-- An uncorrectable error met by a ring access: LANk.TRB2, ENGn_CTL.TRB5; not in raw mode (R257). -/
def State.ringUncorrectable (s : State) (m : LanMem) : State :=
  if s.lanRaw m then s
  else match m with
    | .lan k => s.trb (Pg.lan k) 2
    | .data e | .prog e => s.trb (Pg.engCtl e) 5

/-- A bundle's bits as a reader sees them; none where they cannot be corrected. -/
def State.progRead (s : State) (e : Fin 96) (i : Nat) : Option (BitVec 128) × State :=
  let w := s.progWord e i
  match w.decode with
  | .clean => (some w.data, s)
  | .corrected d =>
    let d := BitVec.ofNat 128 d
    let t := s.memCorrected (.prog e) i 0
    (some d, if s.lanRaw (.prog e) then t else { t with engs.wbProg := mput t.engs.wbProg (progKey e i) d })
  | .uncorrectable => (none, s)

/-- The bytes of a stored word of a memory: 16 of a bundle, 8 of a 64-bit word. -/
def LanMem.word : LanMem → Nat
  | .prog _ => 16
  | _ => 8

/-- Reads stored word i: its bits, or none where they cannot be corrected. -/
def State.ringWord (s : State) (m : LanMem) (i : Nat) : Option Nat × State :=
  match m with
  | .prog e => match s.progRead e i with | (d, s) => (d.map BitVec.toNat, s)
  | m => match s.memRead m i with | (d, s) => (d.map BitVec.toNat, s)

/-- The data bits of stored word i as they stand. -/
def State.heldWord (s : State) (m : LanMem) (i : Nat) : Nat :=
  match m with
  | .prog e => (s.progWord e i).data.toNat
  | m => (s.memWord m i).data.toNat

/-- Writes the bytes of stored word i whose enables are set; answers whether that was done. -/
def State.ringWordWrite (s : State) (m : LanMem) (i be v : Nat) : Bool × State :=
  match m with
  | .prog e =>
    if be = 0xFFFF then (true, s.setProgWord e i ⟨BitVec.ofNat 128 v, 0⟩)
    else match s.progRead e i with
      | (some old, s) => (true, s.setProgWord e i ⟨mergeLanes 8 16 be old (BitVec.ofNat 128 v), 0⟩)
      | (none, s) => (false, s)
  | m => s.memWrite m i be (BitVec.ofNat 64 v)

/-- The stored words of an access, by their place in the line. -/
def touchedWords (n bytes : Nat) : List Nat := (List.range (64 / n)).filter fun w => bytes / 2 ^ (n * w) % 2 ^ n != 0

/-- A ring read of a lantern's memories; a POISON answer carries the words as they stand (R59). -/
def State.lanternRead (s : State) (t : TxnKey) (x : Txn) : State :=
  let (m, o) := lanternPlace x.addr.toNat
  let n := m.word
  let (d, bad, s) := (touchedWords n x.bytes).foldl (fun (acc : Line × Bool × State) w =>
    let i := o / 64 * 64 / n + w
    match acc.2.2.ringWord m i with
    | (some v, s) => (withField acc.1 (8 * n * w) (8 * n) v, acc.2.1, s)
    | (none, s) => (withField acc.1 (8 * n * w) (8 * n) (s.heldWord m i), true, s.ringUncorrectable m)) ((0 : Line), false, s)
  s.answer t (if bad then .poison else .ok) (mergeLanes 8 64 x.bytes 0 d)

/-- Stored word i is marked as one that cannot be corrected: how a lantern's memory holds data that came poisoned (R317; DESIGN CHOICE, log 143). -/
def State.spoilWord (s : State) (m : LanMem) (i : Nat) : State :=
  match m with
  | .prog e => s.setProgWord e i { s.progWord e i with syn := 3 }
  | m => s.setMemWord m i { s.memWord m i with syn := 3 }

/-- A ring write of a lantern's memories, word by word; program memory only while its engine is HALTED or STOPPED. A posted one has its PACK already. -/
def State.lanternWrite (s : State) (t : TxnKey) (x : Txn) : State :=
  let (m, o) := lanternPlace x.addr.toNat
  let n := m.word
  let refused := match m with | .prog e => s.engState e != 1 && s.engState e != 3 | _ => false
  let done (s : State) (st : Status) : State := if x.typ = .wrp then s else s.answer t st 0
  if refused then
    done (match m with | .prog e => s.trb (Pg.engCtl e) 2 | _ => s) .busError
  else
    let (good, s) := (touchedWords n x.bytes).foldl (fun (acc : Bool × State) w =>
      match acc.2.ringWordWrite m (o / 64 * 64 / n + w) (x.bytes / 2 ^ (n * w) % 2 ^ n) (fieldOf x.data (8 * n * w) (8 * n)) with
      | (true, s) => (acc.1, if x.poison then s.spoilWord m (o / 64 * 64 / n + w) else s)
      | (false, s) => (false, s.ringUncorrectable m)) (true, s)
    done s (if good then .ok else .busError)

/-- A request is at a lantern whose island runs (R366, R374). -/
def State.lanternServes (s : State) (x : Txn) : Bool := match epKind x.dst x.dstIf with | .lantern k => s.lanClk k | _ => false

/-- A request of a key that waits with a lantern, the oldest posted write of that key first, and the state without the posted write. -/
def State.atLantern (s : State) (t : TxnKey) : Option (Txn × State) :=
  match s.rings.posted.find? fun e => e.1 == t.no with
  | some e => if s.lanternServes e.2 then some (e.2, { s with rings.posted := s.rings.posted.erase e }) else none
  | none =>
    match s.txn t with
    | some x => if decide (x.phase = .delivered) && s.lanternServes x then some (x, s) else none
    | none => none

/-- PROGRAM_MEMORY_WRITE. -/
def execProgramMemoryWrite (t : TxnKey) (s : State) : Out :=
  match s.atLantern t with
  | none => .next s
  | some (x, s') =>
    match lanternPlace x.addr.toNat with
    | (.prog _, _) => .next (if x.typ = .rd then s else s'.lanternWrite t x)
    | _ => .next s

/-- LANTERN_MEMORY_RING_READ. -/
def execLanternMemoryRingRead (t : TxnKey) (s : State) : Out :=
  match s.atLantern t with
  | none => .next s
  | some (x, s') => .next (if x.typ = .rd then s'.lanternRead t x else s)

/-- LANTERN_MEMORY_RING_WRITE. -/
def execLanternMemoryRingWrite (t : TxnKey) (s : State) : Out :=
  match s.atLantern t with
  | none => .next s
  | some (x, s') => .next (if x.typ = .rd then s else s'.lanternWrite t x)

/-! ### Answers (R147, R158, R161) -/

/-- An answer reaches the source attachment point in order: the tag is free, the end point is answered; an answer no one waits for is discarded and
counted in TRB4. -/
def State.answerArrive (s : State) (t : TxnKey) (mine : Txn → Bool) : State :=
  match s.txn t with
  | none => s
  | some x =>
    match x.phase with
    | .answered st data =>
      if !mine x || s.clk.failed || !s.mayLand (.ans t.no) then s
      else
        let s := ((s.ringSound x.dst t.src x.ringBack).landed (.ans t.no)).delTxn t
        if x.live then (s.syncPools t.src).endAt t x st data else s.trb (Pg.stop t.src) 4
    | _ => s

/-- RDATA: read data arrives. -/
def execRdata (t : TxnKey) (s : State) : Out := .next (s.answerArrive t fun x => decide (x.typ = .rd))
/-- WACK: the answer to a write or CMO, and to a posted write that MGMT carried (R153). -/
def execWack (t : TxnKey) (s : State) : Out := .next (s.answerArrive t fun x => decide (x.typ ≠ .rd) && decide (t.cls ≠ .post))
/-- PACK: the answer to a posted write. -/
def execPack (t : TxnKey) (s : State) : Out := .next (s.answerArrive t fun _ => decide (t.cls = .post))

/-! ### Ends without an answer (R158, R443) -/

/-- A transaction ends with BUS_ERROR at its source; its tag is free. -/
def State.giveUp (s : State) (t : TxnKey) (x : Txn) : State :=
  let s := if x.phase = .lost then s.delTxn t else s.setTxn t { x with live := false }
  (s.syncPools t.src).endAt t x .busError 0

/-- REQUEST_TIMEOUT: REQ_TIMEOUT has passed since the injection. -/
def execRequestTimeout (t : TxnKey) (s : State) : Out :=
  match s.txn t with
  | none => .next s
  | some x => .next (if x.live then s.giveUp t x else s)

/-- The uncertain transactions of an attachment point for a failed segment. -/
def State.uncertain (s : State) (at_ stop ring : Nat) (before : Nat) : List (Nat × Txn) :=
  s.rings.txns.filter fun e => e.1 / 768 == at_ && e.2.live && decide (e.2.seq < before)
    && ((e.2.ring == ring && crosses at_ e.2.dst ring stop) || (e.2.ringBack == ring && crosses e.2.dst at_ ring stop))

/-- FO_DRAIN: 16 µs after an attachment point learned of a failed segment its uncertain transactions end with BUS_ERROR, counted in ALM.TRB5 (Table 18.2,
step 5), and its lost coherence messages are sent again on their new routes (R443). -/
def execFoDrain (at_ stop : Fin 64) (ring : Fin 16) (s : State) : Out :=
  let key := at_.val * 1024 + stop.val * 16 + ring.val
  match mget s.rings.drain key with
  | none => .next s
  | some before =>
    let l := s.uncertain at_ stop ring before
    let s : State := { s with rings.drain := mdel s.rings.drain key }
    .next ((l.foldl (fun s e => (s.giveUp (txnKeyOf e.1) e.2).trb Pg.alm 5) s).reroute at_
      fun f => f.again && f.ref.coherence && f.ring == ring && crosses f.src f.dst ring stop)

end Sys2Proof.Machine
end

