-- ==== Sys2Proof/Machine/Links.lean ====
section
/-!
DEFINITION. Errors of the in-package links (R315 to R318).
-/
namespace Sys2Proof.Machine

/-- CROSSING_WORD_ERROR, a crossing group's word (R315, R316): corrected words count in TRB0, uncorrectable ones in TRB1 with XNG_DBE and alarm 5;
the first is recorded. Nothing counts while the group presents clamp values. -/
def State.xngError (s : State) (m kind src group word syn : Nat) (dbe : Bool) : State :=
  if !s.dieUp m || (decide (kind < 2) && !s.dieUp src) || !s.bit Pg.cfg Fld.CFG_CFG_STAT_USER_EN then s
  else
    let pg := Pg.dlk m
    let s := if dbe then (((s.emit (.xdbe m kind src group)).trb pg 1).raise pg Evt.DLK_XNG_DBE).alarm 5 pg (BitVec.ofNat 32 m) else s.trb pg 0
    if s.bit pg Fld.DLK_XNG_ERR_VALID then s
    else
      let s := s.setFld pg Fld.DLK_XNG_ERR_DBE dbe.toNat
      let s := s.setFld pg Fld.DLK_XNG_ERR_KIND kind
      let s := s.setFld pg Fld.DLK_XNG_ERR_SRC (if kind < 2 then src else 0)
      let s := s.setFld pg Fld.DLK_XNG_ERR_GROUP group
      let s := s.setFld pg Fld.DLK_XNG_ERR_WORD word
      let s := s.setFld pg Fld.DLK_XNG_ERR_SYN syn
      s.setFld pg Fld.DLK_XNG_ERR_VALID 1

/-- The latest entry of a list changed by `f`. -/
def onLast {α : Type} (f : α → α) (l : List α) : List α := l.take (l.length - 1) ++ (l.drop (l.length - 1)).map f

/-- A double-bit error on a transfer of ring port p (R317): from the fabric, the write handed over last becomes a poisoned one, or, hit in its
header, is discarded and ends with BUS_ERROR; towards the fabric, the response delivered last becomes POISON or BUS_ERROR. -/
def State.portHit (s : State) (p : Nat) (out header : Bool) : State :=
  let (stop, ifc) := portAt p
  let key := ifKey stop ifc
  if out then
    let q := mgetD [] s.fab.rsp p
    { s with fab.rsp := mput s.fab.rsp p (onLast (fun (r : PortRsp) => { r with status := if header then .busError else .poison }) q) }
  else
    match [TxnClass.req, .post, .mgmt].findSome? fun c => (s.epQ key c).getLast?.map fun e => (c, e) with
    | none => s
    | some (c, e) =>
      if !header then s.setEpQ key c (onLast (fun (e : EpEntry) => { e with poison := true }) (s.epQ key c))
      else
        let s := s.setEpQ key c (s.epQ key c).dropLast
        if e.typ = .wrp then s.errEntry stop ifc (BitVec.ofNat 48 (fieldOf e.r.addr 0 48)) (BitVec.ofNat 10 (fieldOf e.r.addr 48 10)) .busError
        else s.portRespond p e.r.tag .busError 0 false

/-- A double-bit error on an answer on its way (R317): it carries POISON, or BUS_ERROR in place of the discarded one. -/
def State.answerHit (s : State) (n : Nat) (header : Bool) : State :=
  match mget s.rings.txns n with
  | none => s
  | some x =>
    match x.phase with
    | .answered st d => { s with rings.txns := mput s.rings.txns n { x with phase := .answered (if header then .busError else if x.typ = .rd then .poison else st) d } }
    | _ => s

/-- A double-bit error on a request on its way (R317): hit in its header it is discarded, and ends under R158; a write's data is poisoned. -/
def State.requestHit (s : State) (n : Nat) (header : Bool) : State :=
  match mget s.rings.txns n with
  | none => s
  | some x =>
    { (if header then s.landed (.req n) else s) with
      rings.txns := mput s.rings.txns n (if header then { x with phase := .lost } else { x with poison := decide (x.typ = .wr) || decide (x.typ = .wrp) }) }

/-- A double-bit error on a transfer of lantern k (R317): from it, the latest answer; to it, the request that it took last. -/
def State.lanternHit (s : State) (k : Nat) (out header : Bool) : State :=
  let (stop, ifc) := lanternAt k
  let mine (e : Nat × Txn) : Bool := e.2.dst == stop && e.2.dstIf == ifc
  if out then
    match (s.rings.posted.filter mine).getLast?, (s.rings.txns.filter fun e => mine e && decide (e.2.phase = .delivered)).getLast? with
    | some e, _ =>
      { s with rings.posted := (if header then s.rings.posted.erase e else s.rings.posted.map fun y => if y = e then (e.1, { e.2 with poison := true }) else y) }
    | none, some e => s.requestHit e.1 header
    | none, none => s
  else
    match (s.rings.txns.filter fun e => mine e && (match e.2.phase with | .answered _ _ => true | _ => false)).foldl
        (fun (b : Option (Nat × Txn)) e => match b with
          | none => some e
          | some a => if a.2.aseq < e.2.aseq then some e else b) none with
    | none => s
    | some (n, _) => s.answerHit n header

/-- A double-bit error on a transfer of die cache m (R317): from it, the flit it sent last; to it, the next to come. A grant lost with its request, or its request, ends as
one with BUS_ERROR; other coherence messages whose header is hit are lost, and those who wait for them end under R158 (log 143). -/
def State.dcacheHit (s : State) (m : Nat) (out header : Bool) : State :=
  let (stop, ifc) := dcacheAt m
  if out then
    match s.rings.flits.find? fun f => f.dst == stop && f.dstIf == ifc with
    | none => s
    | some f =>
      match f.ref with
      | .ans n => s.answerHit n header
      | .home ch =>
        match mgetD [] s.coh.homeCh ch with
        | .cgnt line excl d st :: rest =>
          let x : HomeMsg := if header then .cgnt line false none .busError else if d.isSome then .cgnt line false d .poison else .cgnt line excl d st
          { s with coh.homeCh := mput s.coh.homeCh ch (x :: rest) }
        | .cack _ :: rest => if header then { s.landed f.ref with coh.homeCh := mputD [] s.coh.homeCh ch rest } else s
        | [] => s
      | .snp ch => if header then { s.landed f.ref with coh.snpCh := mputD [] s.coh.snpCh ch ((mgetD [] s.coh.snpCh ch).drop 1) } else s
      | _ => s
  else
    match (s.rings.flits.filter fun f => f.src == stop && f.srcIf == ifc).getLast? with
    | none => s
    | some f =>
      let gone : State := { s with rings.flits := (s.rings.flits.reverse.erase f).reverse }
      match f.ref with
      | .req n => s.requestHit n header
      | .crd ch =>
        match header, (mgetD [] s.coh.crdCh ch).getLast? with
        | true, some x =>
          { gone with coh.crdCh := mputD [] s.coh.crdCh ch (mgetD [] s.coh.crdCh ch).dropLast,
                      coh.homeCh := mput s.coh.homeCh ch (mgetD [] s.coh.homeCh ch ++ [.cgnt x.line false none .busError]) }
        | _, _ => s
      | .dc ch =>
        let l := mgetD [] s.coh.dcCh ch
        if header then { gone with coh.dcCh := mputD [] s.coh.dcCh ch l.dropLast }
        else { s with coh.dcCh := mputD [] s.coh.dcCh ch (onLast (fun x => match x with | .cwb line d _ kid tid => .cwb line d true kid tid | x => x) l) }
      | _ => s

/-- CROSSING_WORD_ERROR, an interface bond's word (R317): corrected words count in TRB2, uncorrectable ones in TRB3 with alarm 6; the first is
recorded. -/
def State.bondError (s : State) (m : Nat) (out : Bool) (ifkind index syn : Nat) (dbe header : Bool) : State :=
  let pg := Pg.dlk m
  let s := if dbe then (s.trb pg 3).alarm 6 pg (BitVec.ofNat 32 m) else s.trb pg 2
  let s := if s.bit pg Fld.DLK_IF_ERR_VALID then s
    else
      let s := s.setFld pg Fld.DLK_IF_ERR_DBE dbe.toNat
      let s := s.setFld pg Fld.DLK_IF_ERR_DIR out.toNat
      let s := s.setFld pg Fld.DLK_IF_ERR_IFKIND ifkind
      let s := s.setFld pg Fld.DLK_IF_ERR_INDEX index
      let s := s.setFld pg Fld.DLK_IF_ERR_SYN syn
      s.setFld pg Fld.DLK_IF_ERR_VALID 1
  if !dbe then s
  else if ifkind = 1 ∧ index < 8 then s.portHit (8 * m + index) out header
  else if ifkind = 2 then s.dcacheHit m out header
  else if ifkind = 3 ∧ index < 3 then s.lanternHit (3 * m + index) out header
  else s

/-- CROSSING_WORD_ERROR: a word of an in-package link arrives with an error. -/
def execCrossingWordError (w : CrossWord) (s : State) : Out :=
  match w with
  | .xng die kind src group word syn dbe => .next (s.xngError die kind.toNat src group.toNat word.toNat syn.toNat dbe)
  | .bond die out ifkind index syn dbe header =>
    if ifkind = 1 ∨ ifkind = 2 ∨ ifkind = 3 then .next (s.bondError die out ifkind.toNat index.toNat syn.toNat dbe header) else .next s

/-- CA_PARITY_ERROR: the controller counts the report, records the pseudo-channel, precharges its banks and issues again every access of the reporting
window: none is lost or performed twice (R318). -/
def execCaParityError (pc : Fin 128) (s : State) : Out :=
  let s := ((s.prechargeAll pc).trb Pg.dlkH 0).setFld Pg.dlkH Fld.DLKH_CA_ERR_PC pc
  .next (s.setFld Pg.dlkH Fld.DLKH_CA_ERR_VALID 1)

end Sys2Proof.Machine
end

