-- ==== Sys2Proof/Machine/Mgmt.lean ====
section
/-!
DEFINITION. The I2C target, the USB device, the TAP with its window access, the mailbox's services (R470, R475 to R485, R495 to R497) and GPIO inputs
(R516).
-/
namespace Sys2Proof.Machine

/-- PAGE_ACCESS_TIMEOUT: the page has not answered an access of the agent: BUS_ERROR to its path, counted in the path's page (Table 19.5). On the
ring paths R158 says what follows. -/
def execPageAccessTimeout (agent : Agent) (_page : BitVec 13) (s : State) : Out :=
  if s.boot.held ≠ 0 then .next s
  else if agent.toNat = 3 then .next ((s.setFld Pg.i2ct Fld.I2CT_I2C_STAT_RESULT 2).trb Pg.i2ct 3)
  else if agent.toNat = 4 then .next { s with mgmt.usbRes := 2, mgmt.usbWords := 0 }
  else if agent.toNat = 5 then .next ({ s with mgmt.jtagStat := 3 }.trb Pg.jtg 1)
  else .next s

/-! ### I2C (R475 to R477) -/

/-- The packet error code. -/
def pec (l : List Byte) : Byte :=
  let p : CrcPoly := ⟨8, 0x07, 0, false, 0⟩
  BitVec.ofNat 8 (p.result (p.bytes l p.init))

/-- The address byte of a write, and of a read. -/
def State.i2cAddr (s : State) (read : Bool) : Byte := BitVec.ofNat 8 (2 * s.mgmt.i2cAt + read.toNat)

/-- A transaction ends with its STOP, from which the address of I2C_CTRL applies (Table 19.14). -/
def State.i2cStop (s : State) : State := { s with mgmt.i2cAt := s.fld Pg.i2ct Fld.I2CT_I2C_CTRL_ADDR }

/-- The target answers at its address: from step 2 on, also while the device is HALTED (R21). -/
def State.i2cUp (s : State) : Bool := s.boot.held == 0 || s.boot.held == 4

/-- The bytes of a window offset, the most significant one first. -/
def offBytes (off : BitVec 32) : List Byte := (toBytes 4 off).reverse

/-- A byte is not acknowledged; the transaction has no effect. -/
def State.i2cNack (s : State) : State := (s.i2cStop.trb Pg.i2ct 1).emit .i2cNack

/-- A command byte that the target acknowledges only from user enable on, and the offset bytes that it does not (R476). -/
def State.i2cNacks (s : State) (off : BitVec 32) : Bool := !s.userOn || off &&& 0xFE000003 != 0

/-- The bytes returned after `sent`, with the PEC over the whole transaction. -/
def State.i2cReply (s : State) (sent back : List Byte) : State :=
  (s.emit (.i2c (back ++ [pec (s.i2cAddr false :: sent ++ s.i2cAddr true :: back)]))).i2cStop

/-- I2C_READ. -/
def execI2cRead (off : BitVec 32) (s : State) : Out :=
  if !s.i2cUp then .next s
  else if s.i2cNacks off then .next s.i2cNack
  else
    let (v, s) := s.winRead 3 (off.toNat / 4096) (off.toNat % 4096)
    .next ((s.i2cReply (0x01 :: offBytes off) (toBytes 4 v)).setFld Pg.i2ct Fld.I2CT_I2C_STAT_RESULT 0)

/-- I2C_WRITE: at its STOP, with a right PEC; RESULT is the status. -/
def execI2cWrite (off v : BitVec 32) (code : BitVec 8) (s : State) : Out :=
  if !s.i2cUp then .next s
  else if s.i2cNacks off then .next s.i2cNack
  else if code ≠ pec (s.i2cAddr false :: 0x02 :: offBytes off ++ toBytes 4 v) then
    .next ((s.i2cStop.trb Pg.i2ct 0).setFld Pg.i2ct Fld.I2CT_I2C_STAT_RESULT 3)
  else
    let (r, s) := s.winWrite 3 (off.toNat / 4096) (off.toNat % 4096) 0xF v
    .next (s.i2cStop.setFld Pg.i2ct Fld.I2CT_I2C_STAT_RESULT r.isSome.toNat)

/-- PART_ID, CFG_STAT and LOAD_ERR (Table 19.7). -/
def State.statusBytes (s : State) : List Byte :=
  toBytes 4 (s.reg Pg.dev0 Reg.DEV0_PART_ID) ++ toBytes 4 (s.reg Pg.cfg Reg.CFG_CFG_STAT) ++ toBytes 4 (s.reg Pg.cfg Reg.CFG_LOAD_ERR)

/-- I2C_STATUS. -/
def execI2cStatus (s : State) : Out := if s.i2cUp then .next (s.i2cReply [0x03] s.statusBytes) else .next s

/-- I2C_RESULT. -/
def execI2cResult (s : State) : Out :=
  if !s.i2cUp then .next s
  else if !s.userOn then .next s.i2cNack
  else .next (s.i2cReply [0x04] [BitVec.ofNat 8 (s.fld Pg.i2ct Fld.I2CT_I2C_STAT_RESULT)])

/-- I2C_BUS_TIMEOUT: the transaction is discarded, locks and channels of agent 0x03 are released (Tables 19.4 and 19.5). -/
def execI2cBusTimeout (s : State) : Out := if s.i2cUp then .next ((s.agentReset (· == 3)).trb Pg.i2ct 2) else .next s

/-! ### USB (R478, R479) -/

def State.usbState (s : State) : Nat := s.fld Pg.usbd Fld.USBD_USB_STAT_STATE
def State.setUsbState (s : State) (n : Nat) : State := s.setFld Pg.usbd Fld.USBD_USB_STAT_STATE n

/-- STALL. -/
def State.usbStall (s : State) : State := (s.trb Pg.usbd 2).emit .usbStall

/-- USB_ATTACH: the pull-up is attached (Table 16.3), 50 ms after step 5 and with VBUS present, where ATTACH permits it. -/
def execUsbAttach (s : State) : Out :=
  if s.boot.held = 0 ∧ s.boot.refsUp ∧ s.bit Pg.usbd Fld.USBD_USB_CTRL_ATTACH ∧ s.usbState = 0 then .next (s.setUsbState 1) else .next s

/-- USB_BUS_RESET: a bus reset, or a detach: locks and channels of agent 0x04 are released. -/
def execUsbBusReset (highSpeed detach : Bool) (s : State) : Out :=
  if s.usbState = 0 then .next s
  else if detach then .next s.usbDetach
  else
    let s : State := (s.agentReset (· == 4)).trb Pg.usbd 0
    let s : State := { s with mgmt.usbAddr := 0, mgmt.usbConf := 0 }
    .next ((s.setUsbState 1).setFld Pg.usbd Fld.USBD_USB_STAT_HS highSpeed.toNat)

/-- USB_TRANSFER_TIMEOUT: the transfer is discarded (R479). -/
def execUsbTransferTimeout (s : State) : Out := if s.usbState = 0 then .next s else .next (s.trb Pg.usbd 1)

/-- The fields of READ_REG and WRITE_REG lie within Table 19.8. -/
def usbFieldsOk (value index length : BitVec 16) : Bool :=
  decide (index.toNat < 512) && value.toNat % 4 == 0 && decide (4 ≤ length.toNat) && decide (length.toNat ≤ 64) && length.toNat % 4 == 0

/-- The page and the offset in it of word n of a transfer. -/
def usbWord (value index : BitVec 16) (n : Nat) : Nat × Nat :=
  let off := index.toNat * 65536 + value.toNat + 4 * n
  (off / 4096, off % 4096)

/-- Reads n words at consecutive offsets. -/
def State.usbReads (s : State) (value index : BitVec 16) (i : Nat) : (n : Nat) → List Byte × State
  | 0 => ([], s)
  | n + 1 =>
    let (v, t) := s.winRead 4 (usbWord value index i).1 (usbWord value index i).2
    let (l, u) := t.usbReads value index (i + 1) n
    (toBytes 4 v ++ l, u)

/-- READ_REG. -/
def execReadReg (value index length : BitVec 16) (s : State) : Out :=
  if s.usbState = 0 then .next s
  else if !s.userOn || !usbFieldsOk value index length then .next s.usbStall
  else
    let (l, s) := s.usbReads value index 0 (length.toNat / 4)
    .next ({ s with mgmt.usbRes := 0, mgmt.usbWords := 0 }.emit (.usb l))

/-- Writes words at consecutive offsets: whether one was refused, and the number of those written. -/
def State.usbWrites (s : State) (value index : BitVec 16) (i : Nat) : List Word → Bool × Nat × State
  | [] => (false, 0, s)
  | v :: l =>
    let (r, t) := s.winWrite 4 (usbWord value index i).1 (usbWord value index i).2 0xF v
    let (bad, n, u) := t.usbWrites value index (i + 1) l
    (r.isSome || bad, n + (!r.isSome).toNat, u)

/-- WRITE_REG: committed with its status stage; a refused word does not stop the others; a transfer whose data stage does not match is discarded. -/
def execWriteReg (value index length : BitVec 16) (words : List (BitVec 32)) (s : State) : Out :=
  if s.usbState = 0 then .next s
  else if !s.userOn || !usbFieldsOk value index length then .next s.usbStall
  else if 4 * words.length ≠ length.toNat then .next (s.trb Pg.usbd 1)
  else
    let (bad, n, s) := s.usbWrites value index 0 words
    .next (if s.usbState = 0 then s else { s with mgmt.usbRes := bad.toNat, mgmt.usbWords := n })

/-- USB_STATUS. -/
def execUsbStatus (value index length : BitVec 16) (s : State) : Out :=
  if s.usbState = 0 then .next s
  else if value ≠ 0 ∨ index ≠ 0 ∨ length ≠ 12 then .next s.usbStall
  else .next (s.emit (.usb s.statusBytes))

/-- USB_RESULT. -/
def execUsbResult (value index length : BitVec 16) (s : State) : Out :=
  if s.usbState = 0 then .next s
  else if !s.userOn ∨ value ≠ 0 ∨ index ≠ 0 ∨ length ≠ 4 then .next s.usbStall
  else .next (s.emit (.usb [BitVec.ofNat 8 s.mgmt.usbRes, BitVec.ofNat 8 s.mgmt.usbWords, 0, 0]))

/-- The descriptors: device, configuration (one, with one interface of class 0xFF and endpoint 0 only), device qualifier, other speed configuration; what
R478 does not give of them is free (log 45). -/
def State.usbDescriptor (s : State) (kind : Nat) : Option (List Byte) :=
  let free (i : Nat) : Byte := byteOf s.freeLine i
  let ids := toBytes 4 (s.reg Pg.usbd Reg.USBD_USB_IDS)
  let conf (k : Byte) : List Byte := [9, k, 18, 0, 1, 1, free 5, free 6, free 7, 9, 4, 0, 0, 0, 0xFF, free 8, free 9, free 10]
  match kind with
  | 1 => some ([18, 1, 0x00, 0x02, 0, 0, 0, 64] ++ ids.drop 2 ++ ids.take 2 ++ [free 0, free 1, free 2, free 3, free 4, 1])
  | 2 => some (conf 2)
  | 6 => some [10, 6, 0x00, 0x02, 0, 0, 0, 64, 1, 0]
  | 7 => some (conf 7)
  | _ => none

/-- USB_STANDARD_REQUEST: the requests of USB 2.0 chapter 9 (PRESUMED from that standard, log 45). -/
def execUsbStandardRequest (r : UsbStd) (s : State) : Out :=
  if s.usbState = 0 then .next s
  else match r with
    | .setAddress a =>
      .next (({ s with mgmt.usbAddr := a.setWidth 8 }.setUsbState (if a = 0 then 1 else 2)).emit (.usb []))
    | .setConfiguration c =>
      if s.usbState = 1 ∨ 1 < c.toNat then .next s.usbStall
      else .next (({ s with mgmt.usbConf := c }.setUsbState (if c = 0 then 2 else 3)).emit (.usb []))
    | .getDescriptor kind len =>
      match s.usbDescriptor kind.toNat with
      | some l => .next (s.useFree.emit (.usb (l.take len.toNat)))
      | none => .next s.usbStall
    | .getStatus => .next (s.useFree.emit (.usb [s.freeLine.setWidth 8 &&& 1, 0]))
    | .getConfiguration => .next (s.emit (.usb [s.mgmt.usbConf]))
    | .other bm breq =>
      let k := (bm.toNat, breq.toNat)
      if k = (0x81, 0) ∨ k = (0x82, 0) then .next (s.emit (.usb [0, 0]))
      else if k = (0x81, 10) then .next (if s.usbState = 3 then s.emit (.usb [0]) else s.usbStall)
      else if k = (0x01, 11) ∨ (bm.toNat ≤ 2 ∧ (breq = 1 ∨ breq = 3)) then .next (s.emit (.usb []))
      else .next s.usbStall

/-! ### The TAP (R481, R495 to R498) -/

/-- An instruction is selected. Leaving EXTEST, EXTEST_PULSE, EXTEST_TRAIN, CLAMP and HIGHZ for one outside them performs a system reset; the TAP is there
from T0 on. -/
def State.tapSelect (s : State) (t : Byte) : State :=
  if s.boot.held = 1 ∨ s.boot.held = 5 then s
  else
    let was := s.pinTest
    let s : State := { s with mgmt.tap := t }
    if was && !pinInstruction t && s.boot.held == 0 then s.systemReset 0 else s

/-- Pins that only capture: the references, receivers, inputs (R496). -/
def BPin.observeOnly : BPin → Bool
  | .gpioIn _ _ | .resetN | .perstN | .strap _ | .refA | .refB | .laneRx _ | .hostRx _ => true
  | _ => false

/-- A scan of the boundary register: it captures the levels of the pins and its driving cells take what is shifted in. It runs only while the rings carry
no flit (R164, log 133). -/
def State.bsrScan (s : State) (levels load : List (BPin × Bool)) : State :=
  if s.boot.held = 1 ∨ s.boot.held = 5 ∨ !s.rings.flits.isEmpty ∨ s.rings.txns.any (fun e => e.2.phase != .delivered && e.2.phase != .parked) then s
  else
    let cells := (load.filter fun e => !e.1.observeOnly).eraseDups
    { s with mgmt.bsrIn := levels ++ s.mgmt.bsrIn.filter (fun e => !levels.any fun l => l.1 == e.1),
             mgmt.bsr := cells ++ s.mgmt.bsr.filter (fun e => !cells.any fun l => l.1 == e.1) }

/-- An instruction that selects the boundary register, and a scan: the levels at the pins and the bits at TDI come from outside, free values
(log 133). -/
def State.bsrSelect (s : State) (t : Byte) : State :=
  ((s.tapSelect t).bsrScan (Config.pinLevels s.free) (Config.scanBits s.free)).useFree

/-- The identification register (Table 20.3). -/
def idRegister : Word := Config.idStepping ++ (0x9096 : BitVec 16) ++ Config.idMaker ++ (1 : BitVec 1)

/-- IDCODE: the identification register is selected, and is what a scan shifts out then (log 150). -/
def execIdcode (s : State) : Out :=
  if s.boot.held = 1 ∨ s.boot.held = 5 then .next s else .next ((s.tapSelect 0x01).emit (.tapOut idRegister))
def execSamplePreload (s : State) : Out := .next (s.bsrSelect 0x02)
def execExtest (s : State) : Out := .next (s.bsrSelect 0x03)
def execExtestPulse (s : State) : Out := .next (s.bsrSelect 0x04)
def execExtestTrain (s : State) : Out := .next (s.bsrSelect 0x05)
def execClamp (s : State) : Out := .next (s.tapSelect 0x06)
def execHighz (s : State) : Out := .next (s.tapSelect 0x07)
def execProbe (s : State) : Out := .next (s.tapSelect 0x08)
def execWinacc (s : State) : Out := .next (s.tapSelect 0x10)
def execBypass (s : State) : Out := .next (s.tapSelect 0xFF)

/-- TEST_LOGIC_RESET: IDCODE is in force; locks and channels of agent 0x05 are released (Table 19.4). -/
def execTestLogicReset (s : State) : Out :=
  if s.boot.held = 1 ∨ s.boot.held = 5 then .next s else .next ((s.agentReset (· == 5)).tapSelect 0x01)

/-- A refused access of WINACC. -/
def State.jtagRefuse (s : State) : State := { s with mgmt.jtagStat := 2, mgmt.jtagData := 0 }.trb Pg.jtg 0

/-- A WINACC access may start: the instruction is in force and the window runs. -/
def State.jtagUp (s : State) : Bool := s.mgmt.tap == 0x10 && s.boot.held == 0

/-- WINACC performs no access: WIN_EN is 0, or bits [33:32] are not zero. -/
def State.jtagBars (s : State) (off : BitVec 25) : Bool := !s.bit Pg.jtg Fld.JTG_JTG_CTRL_WIN_EN || off.toNat % 4 != 0

/-- WINACC_READ. -/
def execWinaccRead (off : BitVec 25) (s : State) : Out :=
  if !s.jtagUp then .next s
  else if s.jtagBars off then .next s.jtagRefuse
  else
    let (v, s) := s.winRead 5 (off.toNat / 4096) (off.toNat % 4096)
    .next { s with mgmt.jtagStat := 0, mgmt.jtagData := v }

/-- WINACC_WRITE. -/
def execWinaccWrite (off : BitVec 25) (v : BitVec 32) (s : State) : Out :=
  if !s.jtagUp then .next s
  else if s.jtagBars off then .next s.jtagRefuse
  else match s.winWrite 5 (off.toNat / 4096) (off.toNat % 4096) 0xF v with
    | (none, s) => .next { s with mgmt.jtagStat := 0, mgmt.jtagData := 0 }
    | (some _, s) => .next s.jtagRefuse

/-! ### Mailbox (R482 to R484) -/

/-- The firmware serves the mailbox. -/
def State.mbxServes (s : State) : Bool := s.managerRuns && s.bit Pg.mbx Fld.MBX_MBX_INFO_FW_RUN

/-- The bytes of a channel. -/
def State.chBytes (s : State) (c n : Nat) : List Byte :=
  (List.range n).map fun i => byteOf (s.reg Pg.mbx (Reg.MBX_CH_DATA c (i / 4))) (i % 4)
def State.setChBytes (s : State) (c : Nat) (l : List Byte) : State :=
  (List.range l.length).foldl (fun s i =>
    let off := Reg.MBX_CH_DATA c (i / 4)
    s.setReg Pg.mbx off (withField (s.reg Pg.mbx off) (8 * (i % 4)) 8 (l.getD i 0).toNat)) s

/-- MAILBOX_REQUEST_TAKEN: step 3 of Table 19.9. -/
def execMailboxRequestTaken (c : Fin 8) (s : State) : Out :=
  if s.chState c ≠ 2 ∨ !s.mbxServes ∨ (mget s.mbx c).isSome then .next s
  else
    let n := s.fld Pg.mbx (Fld.MBX_CH_REQ_LEN c)
    let q : MbxReq := ⟨s.fld Pg.mbx (Fld.MBX_CH_REQ_SERVICE c), n, s.chBytes c n, BitVec.ofNat 8 (s.chOwner c), false⟩
    .next ({ s with mbx := mput s.mbx c q }.setFld Pg.mbx (Fld.MBX_CH_STAT_STATE c) 3)

/-- The firmware answers: step 4; the answer to a request that has lost its channel is discarded. -/
def State.mbxAnswer (s : State) (c : Nat) (status : Nat) (data : List Byte) : State :=
  match mget s.mbx c with
  | none => s
  | some q =>
    let s : State := { s with mbx := mdel s.mbx c }
    if q.orphan then s else (s.setChBytes c data).chDone c status data.length

/-- The request of a channel that runs for a service, once firmware can end it. -/
def State.running (s : State) (c : Nat) (service : Nat) : Option MbxReq :=
  if s.mbxServes then (mget s.mbx c).filter fun q => q.service == service else none

/-- MAILBOX_RESPONSE: to a service other than the base services. -/
def execMailboxResponse (c : Fin 8) (status : BitVec 8) (data : List (BitVec 8)) (s : State) : Out :=
  match mget s.mbx c with
  | none => .next s
  | some q =>
    if !s.mbxServes ∨ (1 ≤ q.service ∧ q.service ≤ 3) ∨ 128 < data.length ∨ 6 < status.toNat then .next s
    else .next (s.mbxAnswer c status.toNat data)

/-- MAILBOX_TIMEOUT: MBX_TIMEOUT has passed since the GO: DONE with TIMEOUT; a later answer is discarded. -/
def execMailboxTimeout (c : Fin 8) (s : State) : Out :=
  if s.chState c ≠ 2 ∧ s.chState c ≠ 3 then .next s
  else
    let s : State := match mget s.mbx c with
      | some q => { s with mbx := mput s.mbx c { q with orphan := true } }
      | none => s
    .next ((s.chDone c 5 0).trb Pg.mbx 0)

/-- GET_VERSION. -/
def execGetVersion (c : Fin 8) (s : State) : Out :=
  match s.running c 1 with
  | none => .next s
  | some q =>
    if q.len ≠ 0 then .next (s.mbxAnswer c 2 [])
    else
      let v : Word := BitVec.ofNat 32 (s.fld Pg.mbx Fld.MBX_MBX_INFO_VERSION)
      .next (s.mbxAnswer c 0 (toBytes 4 v ++ toBytes 4 s.mgmt.fwBuild))

/-- The lock of a page, as the service BREAK_LOCK breaks it for an agent: status and state (Table 19.10). -/
def State.breakFor (s : State) (a pg : Nat) : Nat × State :=
  if (s.page pg).isNone then (2, s)
  else if !(s.pathWr a && s.reaches a pg) then (3, s)
  else if !s.bit pg Fld.PG_PG_LOCK_HELD then (0, s)
  else (0, s.breakLock pg)

/-- BREAK_LOCK. -/
def execBreakLock (c : Fin 8) (s : State) : Out :=
  match s.running c 2 with
  | none => .next s
  | some q =>
    if q.len ≠ 2 then .next (s.mbxAnswer c 2 [])
    else
      let (st, s) := s.breakFor q.agent.toNat ((q.data.getD 0 0).toNat + 256 * (q.data.getD 1 0).toNat)
      .next (s.mbxAnswer c st [])

/-- NV_SYS_WRITE: one block of the DRAM remap records (Table 16.5) is programmed and verified. -/
def execNvSysWrite (c : Fin 8) (ok : Bool) (s : State) : Out :=
  match s.running c 3 with
  | none => .next s
  | some q =>
    let off := (ofBytes 32 (q.data.take 4)).toNat
    if q.len ≠ 68 ∨ off % 64 ≠ 0 then .next (s.mbxAnswer c 2 [])
    else if off < 0x1FF40000 ∨ 0x1FF80000 ≤ off then .next (s.mbxAnswer c 3 [])
    else .next ((s.nvProgram (off / 64) (ofBytes 512 (q.data.drop 4)) ok).mbxAnswer c (if ok then 0 else 6) [])

/-! ### GPIO (R516) -/

/-- GPIO_INPUT_EDGE: the bank's filter accepts a pin's level; no input reaches the fabric before user enable, nor while the clocks stand. -/
def execGpioInputEdge (bank : Fin 12) (pin : Fin 48) (level : Bool) (s : State) : Out :=
  if !s.userOn || s.clk.failed then .next s
  else
    let w := withField (mgetD 0 s.mgmt.gpio bank) pin 1 level.toNat
    .next { s with mgmt.gpio := mputD 0 s.mgmt.gpio bank w }

end Sys2Proof.Machine
end

