-- ==== Sys2Proof/Machine/Dispatch.lean ====
section
/-!
DEFINITION. Dispatch: one arm for each command of the table.
-/
namespace Sys2Proof.Machine

def exec (i : Instr) (s : State) : Host.Outcome State Fault Refusal :=
  match i with
  | .registerWrite agent page off be v => Sys2Proof.Machine.execRegisterWrite agent page off be v s
  | .loRegisterRead agent page off => Sys2Proof.Machine.execLoRegisterRead agent page off s
  | .pageAccessTimeout agent page => Sys2Proof.Machine.execPageAccessTimeout agent page s
  | .softReset agent page => Sys2Proof.Machine.execSoftReset agent page s
  | .trbClr agent page => Sys2Proof.Machine.execTrbClr agent page s
  | .acquire agent page => Sys2Proof.Machine.execAcquire agent page s
  | .release agent page => Sys2Proof.Machine.execRelease agent page s
  | .clrBroken agent page => Sys2Proof.Machine.execClrBroken agent page s
  | .blockMemoryRead p => Sys2Proof.Machine.execBlockMemoryRead p s
  | .blockMemoryWrite p be data other => Sys2Proof.Machine.execBlockMemoryWrite p be data other s
  | .correctedWordWriteBack p => Sys2Proof.Machine.execCorrectedWordWriteBack p s
  | .fabricPortRequest port typ r => Sys2Proof.Machine.execFabricPortRequest port typ r s
  | .targetResponse port tag status data => Sys2Proof.Machine.execTargetResponse port tag status data s
  | .targetTimeout port tag => Sys2Proof.Machine.execTargetTimeout port tag s
  | .responseAccept port => Sys2Proof.Machine.execResponseAccept port s
  | .sliceOperation sl ins => Sys2Proof.Machine.execSliceOperation sl ins s
  | .sliceReset sl ins => Sys2Proof.Machine.execSliceReset sl ins s
  | .nop x => Sys2Proof.Machine.execNop x s
  | .add x f => Sys2Proof.Machine.execAdd x f s
  | .sub x f => Sys2Proof.Machine.execSub x f s
  | .andR x f => Sys2Proof.Machine.execAndR x f s
  | .orR x f => Sys2Proof.Machine.execOrR x f s
  | .xorR x f => Sys2Proof.Machine.execXorR x f s
  | .shl x f => Sys2Proof.Machine.execShl x f s
  | .shr x f => Sys2Proof.Machine.execShr x f s
  | .sra x f => Sys2Proof.Machine.execSra x f s
  | .mul x f => Sys2Proof.Machine.execMul x f s
  | .addi x f => Sys2Proof.Machine.execAddi x f s
  | .movi x f => Sys2Proof.Machine.execMovi x f s
  | .movh x f => Sys2Proof.Machine.execMovh x f s
  | .cmp x f => Sys2Proof.Machine.execCmp x f s
  | .pop x f => Sys2Proof.Machine.execPop x f s
  | .sete x f => Sys2Proof.Machine.execSete x f s
  | .eadd x f => Sys2Proof.Machine.execEadd x f s
  | .emin x f => Sys2Proof.Machine.execEmin x f s
  | .mfe x f => Sys2Proof.Machine.execMfe x f s
  | .mte x f => Sys2Proof.Machine.execMte x f s
  | .mfsr x f => Sys2Proof.Machine.execMfsr x f s
  | .mtsr x f => Sys2Proof.Machine.execMtsr x f s
  | .setbx x f => Sys2Proof.Machine.execSetbx x f s
  | .br x f => Sys2Proof.Machine.execBr x f s
  | .call x f => Sys2Proof.Machine.execCall x f s
  | .ret x f => Sys2Proof.Machine.execRet x f s
  | .loop x f => Sys2Proof.Machine.execLoop x f s
  | .loopr x f => Sys2Proof.Machine.execLoopr x f s
  | .clrrb x f => Sys2Proof.Machine.execClrrb x f s
  | .halt x f => Sys2Proof.Machine.execHalt x f s
  | .vld x f => Sys2Proof.Machine.execVld x f s
  | .vldi x f => Sys2Proof.Machine.execVldi x f s
  | .vst x f => Sys2Proof.Machine.execVst x f s
  | .vsti x f => Sys2Proof.Machine.execVsti x f s
  | .ldw x f => Sys2Proof.Machine.execLdw x f s
  | .stw x f => Sys2Proof.Machine.execStw x f s
  | .sin x f => Sys2Proof.Machine.execSin x f s
  | .sout x f => Sys2Proof.Machine.execSout x f s
  | .shiftin x f => Sys2Proof.Machine.execShiftin x f s
  | .shiftinWindowUpdate e => Sys2Proof.Machine.execShiftinWindowUpdate e s
  | .vadd x f => Sys2Proof.Machine.execVadd x f s
  | .vsub x f => Sys2Proof.Machine.execVsub x f s
  | .vand x f => Sys2Proof.Machine.execVand x f s
  | .vor x f => Sys2Proof.Machine.execVor x f s
  | .vxor x f => Sys2Proof.Machine.execVxor x f s
  | .vmax x f => Sys2Proof.Machine.execVmax x f s
  | .vmin x f => Sys2Proof.Machine.execVmin x f s
  | .vshl x f => Sys2Proof.Machine.execVshl x f s
  | .vsra x f => Sys2Proof.Machine.execVsra x f s
  | .vmul x f => Sys2Proof.Machine.execVmul x f s
  | .vbcst x f => Sys2Proof.Machine.execVbcst x f s
  | .vnorm x f => Sys2Proof.Machine.execVnorm x f s
  | .vexp x f => Sys2Proof.Machine.execVexp x f s
  | .aexp x f => Sys2Proof.Machine.execAexp x f s
  | .vscale x f => Sys2Proof.Machine.execVscale x f s
  | .vmac x f => Sys2Proof.Machine.execVmac x f s
  | .vmpy x f => Sys2Proof.Machine.execVmpy x f s
  | .vmsub x f => Sys2Proof.Machine.execVmsub x f s
  | .vmacb x f => Sys2Proof.Machine.execVmacb x f s
  | .vfir x f => Sys2Proof.Machine.execVfir x f s
  | .aset x f => Sys2Proof.Machine.execAset x f s
  | .accout x f => Sys2Proof.Machine.execAccout x f s
  | .loopBodyEnd e => Sys2Proof.Machine.execLoopBodyEnd e s
  | .rotatingPassEnd e => Sys2Proof.Machine.execRotatingPassEnd e s
  | .stallLimitExpiry e => Sys2Proof.Machine.execStallLimitExpiry e s
  | .inputBeat e k data sb => Sys2Proof.Machine.execInputBeat e k data sb s
  | .outputBeat e k => Sys2Proof.Machine.execOutputBeat e k s
  | .ringAccessStarvation e => Sys2Proof.Machine.execRingAccessStarvation e s
  | .haltCommand agent e => Sys2Proof.Machine.execHaltCommand agent e s
  | .haltTaken e => Sys2Proof.Machine.execHaltTaken e s
  | .haltComplete e => Sys2Proof.Machine.execHaltComplete e s
  | .haltTimeout e => Sys2Proof.Machine.execHaltTimeout e s
  | .resume agent e => Sys2Proof.Machine.execResume agent e s
  | .stepCmd agent e => Sys2Proof.Machine.execStepCmd agent e s
  | .stepComplete e => Sys2Proof.Machine.execStepComplete e s
  | .programMemoryWrite t => Sys2Proof.Machine.execProgramMemoryWrite t s
  | .lanternMemoryRingRead t => Sys2Proof.Machine.execLanternMemoryRingRead t s
  | .lanternMemoryRingWrite t => Sys2Proof.Machine.execLanternMemoryRingWrite t s
  | .lanternWordWriteBack m idx => Sys2Proof.Machine.execLanternWordWriteBack m idx s
  | .engSrWrite agent e off v => Sys2Proof.Machine.execEngSrWrite agent e off v s
  | .sync agent k => Sys2Proof.Machine.execSync agent k s
  | .lsync k => Sys2Proof.Machine.execLsync k s
  | .syncEngineDone e => Sys2Proof.Machine.execSyncEngineDone e s
  | .syncRelease k => Sys2Proof.Machine.execSyncRelease k s
  | .rd stop ifc r => Sys2Proof.Machine.execRd stop ifc r s
  | .wr stop ifc r => Sys2Proof.Machine.execWr stop ifc r s
  | .wrp stop ifc r => Sys2Proof.Machine.execWrp stop ifc r s
  | .requestArrival t => Sys2Proof.Machine.execRequestArrival t s
  | .parkTimeout t => Sys2Proof.Machine.execParkTimeout t s
  | .rdata t => Sys2Proof.Machine.execRdata t s
  | .wack t => Sys2Proof.Machine.execWack t s
  | .pack t => Sys2Proof.Machine.execPack t s
  | .requestTimeout t => Sys2Proof.Machine.execRequestTimeout t s
  | .injectionStarvation stop ring => Sys2Proof.Machine.execInjectionStarvation stop ring s
  | .fence agent stop ifs => Sys2Proof.Machine.execFence agent stop ifs s
  | .fenceComplete stop ifc => Sys2Proof.Machine.execFenceComplete stop ifc s
  | .flitCrcMismatch stop ring => Sys2Proof.Machine.execFlitCrcMismatch stop ring s
  | .segmentFailed stop ring => Sys2Proof.Machine.execSegmentFailed stop ring s
  | .failoverNotice at_ stop ring => Sys2Proof.Machine.execFailoverNotice at_ stop ring s
  | .foDrain at_ stop ring => Sys2Proof.Machine.execFoDrain at_ stop ring s
  | .snuff agent stop ifs => Sys2Proof.Machine.execSnuff agent stop ifs s
  | .snuffDone stop ifc => Sys2Proof.Machine.execSnuffDone stop ifc s
  | .snuffTimeout stop ifc => Sys2Proof.Machine.execSnuffTimeout stop ifc s
  | .ifOn agent stop ifs => Sys2Proof.Machine.execIfOn agent stop ifs s
  | .wick island => Sys2Proof.Machine.execWick island s
  | .wickTimeout island => Sys2Proof.Machine.execWickTimeout island s
  | .gateIdleClose island => Sys2Proof.Machine.execGateIdleClose island s
  | .rds die line => Sys2Proof.Machine.execRds die line s
  | .rdx die line => Sys2Proof.Machine.execRdx die line s
  | .upg die line => Sys2Proof.Machine.execUpg die line s
  | .cwb die line => Sys2Proof.Machine.execCwb die line s
  | .snps die line => Sys2Proof.Machine.execSnps die line s
  | .snpi die line => Sys2Proof.Machine.execSnpi die line s
  | .snpc die line => Sys2Proof.Machine.execSnpc die line s
  | .cgnt die line => Sys2Proof.Machine.execCgnt die line s
  | .srsp die line => Sys2Proof.Machine.execSrsp die line s
  | .dclr die slice => Sys2Proof.Machine.execDclr die slice s
  | .clearingWalkEnd die slice => Sys2Proof.Machine.execClearingWalkEnd die slice s
  | .cack die line => Sys2Proof.Machine.execCack die line s
  | .cmoClean stop ifc r => Sys2Proof.Machine.execCmoClean stop ifc r s
  | .cmoFlush stop ifc r => Sys2Proof.Machine.execCmoFlush stop ifc r s
  | .writeBackWalkEnd die => Sys2Proof.Machine.execWriteBackWalkEnd die s
  | .dieLost agent dies => Sys2Proof.Machine.execDieLost agent dies s
  | .rangeCmoClean agent => Sys2Proof.Machine.execRangeCmoClean agent s
  | .rangeCmoFlush agent => Sys2Proof.Machine.execRangeCmoFlush agent s
  | .rangeCmoEnd => Sys2Proof.Machine.execRangeCmoEnd s
  | .dieCacheFlush agent die => Sys2Proof.Machine.execDieCacheFlush agent die s
  | .dramRead line => Sys2Proof.Machine.execDramRead line s
  | .dramWrite line => Sys2Proof.Machine.execDramWrite line s
  | .dramCorrectedWriteBack line => Sys2Proof.Machine.execDramCorrectedWriteBack line s
  | .rowIdleTimeout c bank => Sys2Proof.Machine.execRowIdleTimeout c bank s
  | .refreshTick c => Sys2Proof.Machine.execRefreshTick c s
  | .refresh c => Sys2Proof.Machine.execRefresh c s
  | .mr4Poll c doubled => Sys2Proof.Machine.execMr4Poll c doubled s
  | .powerDownEntry c rank => Sys2Proof.Machine.execPowerDownEntry c rank s
  | .selfRefreshEntry c rank => Sys2Proof.Machine.execSelfRefreshEntry c rank s
  | .initialTraining c => Sys2Proof.Machine.execInitialTraining c s
  | .dramTrainingEnd c failStep spares repaired => Sys2Proof.Machine.execDramTrainingEnd c failStep spares repaired s
  | .periodicTraining c ok repaired => Sys2Proof.Machine.execPeriodicTraining c ok repaired s
  | .trainStart agent c => Sys2Proof.Machine.execTrainStart agent c s
  | .caParityError pc => Sys2Proof.Machine.execCaParityError pc s
  | .keyLoad agent slot => Sys2Proof.Machine.execKeyLoad agent slot s
  | .keyLoadComplete => Sys2Proof.Machine.execKeyLoadComplete s
  | .activate agent slot => Sys2Proof.Machine.execActivate agent slot s
  | .disable agent slot => Sys2Proof.Machine.execDisable agent slot s
  | .slotStateEdge => Sys2Proof.Machine.execSlotStateEdge s
  | .purgeWaitEnd => Sys2Proof.Machine.execPurgeWaitEnd s
  | .purgeDieCacheWalkEnd die => Sys2Proof.Machine.execPurgeDieCacheWalkEnd die s
  | .purgeSliceWalkEnd => Sys2Proof.Machine.execPurgeSliceWalkEnd s
  | .parityTreeFlag die frame bit n => Sys2Proof.Machine.execParityTreeFlag die frame bit n s
  | .frameCorrection die => Sys2Proof.Machine.execFrameCorrection die s
  | .scrubStart agent k v => Sys2Proof.Machine.execScrubStart agent k v s
  | .scrubUnit k => Sys2Proof.Machine.execScrubUnit k s
  | .scrubStop agent k => Sys2Proof.Machine.execScrubStop agent k s
  | .scrubTimeout k => Sys2Proof.Machine.execScrubTimeout k s
  | .scrubRepeat k => Sys2Proof.Machine.execScrubRepeat k s
  | .rawEnter agent pg => Sys2Proof.Machine.execRawEnter agent pg s
  | .rawExit agent pg => Sys2Proof.Machine.execRawExit agent pg s
  | .rawRead agent pg => Sys2Proof.Machine.execRawRead agent pg s
  | .rawWrite agent pg => Sys2Proof.Machine.execRawWrite agent pg s
  | .rawEncode agent pg => Sys2Proof.Machine.execRawEncode agent pg s
  | .rawTimeout pg => Sys2Proof.Machine.execRawTimeout pg s
  | .addEntry agent => Sys2Proof.Machine.execAddEntry agent s
  | .commit agent => Sys2Proof.Machine.execCommit agent s
  | .listWrite agent => Sys2Proof.Machine.execListWrite agent s
  | .outgoingJob agent k poly => Sys2Proof.Machine.execOutgoingJob agent k poly s
  | .incomingJob agent k poly => Sys2Proof.Machine.execIncomingJob agent k poly s
  | .scanJob agent k poly compare => Sys2Proof.Machine.execScanJob agent k poly compare s
  | .jobStop agent k => Sys2Proof.Machine.execJobStop agent k s
  | .jobEnd k => Sys2Proof.Machine.execJobEnd k s
  | .laneEnable agent l => Sys2Proof.Machine.execLaneEnable agent l s
  | .laneDisable agent l => Sys2Proof.Machine.execLaneDisable agent l s
  | .restart agent l => Sys2Proof.Machine.execRestart agent l s
  | .laneTrainingEnd l ok an => Sys2Proof.Machine.execLaneTrainingEnd l ok an s
  | .probeOrderedSet l mask burst ack => Sys2Proof.Machine.execProbeOrderedSet l mask burst ack s
  | .probeTimeout l => Sys2Proof.Machine.execProbeTimeout l s
  | .coefficientRequest l tap inc => Sys2Proof.Machine.execCoefficientRequest l tap inc s
  | .fecCodeword l e => Sys2Proof.Machine.execFecCodeword l e s
  | .fecLockLoss l => Sys2Proof.Machine.execFecLockLoss l s
  | .lossOfSignal l => Sys2Proof.Machine.execLossOfSignal l s
  | .signalReturn l => Sys2Proof.Machine.execSignalReturn l s
  | .idleEntry l => Sys2Proof.Machine.execIdleEntry l s
  | .idleMarker l => Sys2Proof.Machine.execIdleMarker l s
  | .idleExit l idleUs locked => Sys2Proof.Machine.execIdleExit l idleUs locked s
  | .trainingFramesReceived l => Sys2Proof.Machine.execTrainingFramesReceived l s
  | .frameReceived l bytes => Sys2Proof.Machine.execFrameReceived l bytes s
  | .pauseRepeat l => Sys2Proof.Machine.execPauseRepeat l s
  | .transmitUnderrun l => Sys2Proof.Machine.execTransmitUnderrun l s
  | .checkerLock l => Sys2Proof.Machine.execCheckerLock l s
  | .checkerLockLoss l => Sys2Proof.Machine.execCheckerLockLoss l s
  | .fire agent l => Sys2Proof.Machine.execFire agent l s
  | .hostRequest fn bar r => Sys2Proof.Machine.execHostRequest fn bar r s
  | .configRequest fn r => Sys2Proof.Machine.execConfigRequest fn r s
  | .msixTrig agent g => Sys2Proof.Machine.execMsixTrig agent g s
  | .hotReset => Sys2Proof.Machine.execHotReset s
  | .linkDown => Sys2Proof.Machine.execLinkDown s
  | .flr fn => Sys2Proof.Machine.execFlr fn s
  | .perst high => Sys2Proof.Machine.execPerst high s
  | .linkRetrain agent => Sys2Proof.Machine.execLinkRetrain agent s
  | .crossingWordError w => Sys2Proof.Machine.execCrossingWordError w s
  | .moduleBringup u => Sys2Proof.Machine.execModuleBringup u s
  | .capabilityMessage u payload vendor device => Sys2Proof.Machine.execCapabilityMessage u payload vendor device s
  | .moduleActive u rate txRep rxRep => Sys2Proof.Machine.execModuleActive u rate txRep rxRep s
  | .bringupTimeout u => Sys2Proof.Machine.execBringupTimeout u s
  | .uciUnit u b => Sys2Proof.Machine.execUciUnit u b s
  | .retrain u agent => Sys2Proof.Machine.execRetrain u agent s
  | .retrainEnd u txRep rxRep => Sys2Proof.Machine.execRetrainEnd u txRep rxRep s
  | .retrainTimeout u => Sys2Proof.Machine.execRetrainTimeout u s
  | .moduleEnable agent u => Sys2Proof.Machine.execModuleEnable agent u s
  | .moduleDisable agent u => Sys2Proof.Machine.execModuleDisable agent u s
  | .spanEnable agent sp width => Sys2Proof.Machine.execSpanEnable agent sp width s
  | .tqBlock sp b => Sys2Proof.Machine.execTqBlock sp b s
  | .blockGapTimeout sp => Sys2Proof.Machine.execBlockGapTimeout sp s
  | .remoteRequest t => Sys2Proof.Machine.execRemoteRequest t s
  | .rdq q => Sys2Proof.Machine.execRdq q s
  | .wra q => Sys2Proof.Machine.execWra q s
  | .pwa q => Sys2Proof.Machine.execPwa q s
  | .wd q => Sys2Proof.Machine.execWd q s
  | .rdataFrame q => Sys2Proof.Machine.execRdataFrame q s
  | .wackFrame q => Sys2Proof.Machine.execWackFrame q s
  | .perr q => Sys2Proof.Machine.execPerr q s
  | .credit src entries => Sys2Proof.Machine.execCredit src entries s
  | .remoteTimeout t => Sys2Proof.Machine.execRemoteTimeout t s
  | .queueGapTimeout q => Sys2Proof.Machine.execQueueGapTimeout q s
  | .queueEnable agent v => Sys2Proof.Machine.execQueueEnable agent v s
  | .queueDisable agent => Sys2Proof.Machine.execQueueDisable agent s
  | .hello sp h => Sys2Proof.Machine.execHello sp h s
  | .electionStart agent => Sys2Proof.Machine.execElectionStart agent s
  | .claim sp c round => Sys2Proof.Machine.execClaim sp c round s
  | .backoffEnd => Sys2Proof.Machine.execBackoffEnd s
  | .claimRoundEnd => Sys2Proof.Machine.execClaimRoundEnd s
  | .beacon sp b => Sys2Proof.Machine.execBeacon sp b s
  | .beaconTimeout => Sys2Proof.Machine.execBeaconTimeout s
  | .beaconTick => Sys2Proof.Machine.execBeaconTick s
  | .report sp r => Sys2Proof.Machine.execReport sp r s
  | .reportQuiet => Sys2Proof.Machine.execReportQuiet s
  | .assign sp serial id => Sys2Proof.Machine.execAssign sp serial id s
  | .topo sp epoch edges => Sys2Proof.Machine.execTopo sp epoch edges s
  | .join sp r => Sys2Proof.Machine.execJoin sp r s
  | .linkdown rep nbr sp => Sys2Proof.Machine.execLinkdown rep nbr sp s
  | .epochTimer => Sys2Proof.Machine.execEpochTimer s
  | .idFreeTimer id => Sys2Proof.Machine.execIdFreeTimer id s
  | .nodeWrite agent v => Sys2Proof.Machine.execNodeWrite agent v s
  | .rtData agent wr => Sys2Proof.Machine.execRtData agent wr s
  | .perrRecordPop agent => Sys2Proof.Machine.execPerrRecordPop agent s
  | .oscDlyExpiry => Sys2Proof.Machine.execOscDlyExpiry s
  | .clockLoss c => Sys2Proof.Machine.execClockLoss c s
  | .referenceQualified j => Sys2Proof.Machine.execReferenceQualified j s
  | .acquireComplete => Sys2Proof.Machine.execAcquireComplete s
  | .toMaster agent => Sys2Proof.Machine.execToMaster agent s
  | .refPrioWrite agent v => Sys2Proof.Machine.execRefPrioWrite agent v s
  | .loopOn agent l => Sys2Proof.Machine.execLoopOn agent l s
  | .loopOff agent l => Sys2Proof.Machine.execLoopOff agent l s
  | .loopLocked l => Sys2Proof.Machine.execLoopLocked l s
  | .loopLockLoss l => Sys2Proof.Machine.execLoopLockLoss l s
  | .skip agent l v => Sys2Proof.Machine.execSkip agent l v s
  | .cregGate agent die v => Sys2Proof.Machine.execCregGate agent die v s
  | .fdieGate agent die v => Sys2Proof.Machine.execFdieGate agent die v s
  | .mx0Force agent => Sys2Proof.Machine.execMx0Force agent s
  | .sourceFailure => Sys2Proof.Machine.execSourceFailure s
  | .sourceLossSelfRefresh => Sys2Proof.Machine.execSourceLossSelfRefresh s
  | .masterReturn => Sys2Proof.Machine.execMasterReturn s
  | .safeWaitTimeout => Sys2Proof.Machine.execSafeWaitTimeout s
  | .safeRelease agent => Sys2Proof.Machine.execSafeRelease agent s
  | .auxPowerUp => Sys2Proof.Machine.execAuxPowerUp s
  | .powerOnResetRelease bootSrc oscDly => Sys2Proof.Machine.execPowerOnResetRelease bootSrc oscDly s
  | .bootBist => Sys2Proof.Machine.execBootBist s
  | .taperEnd fails repairs => Sys2Proof.Machine.execTaperEnd fails repairs s
  | .imageLoad => Sys2Proof.Machine.execImageLoad s
  | .loadVerify => Sys2Proof.Machine.execLoadVerify s
  | .doneRelease => Sys2Proof.Machine.execDoneRelease s
  | .firmwareTimeout => Sys2Proof.Machine.execFirmwareTimeout s
  | .doneHigh => Sys2Proof.Machine.execDoneHigh s
  | .doneWaitTimeout => Sys2Proof.Machine.execDoneWaitTimeout s
  | .doneLow => Sys2Proof.Machine.execDoneLow s
  | .laneGroupStart g => Sys2Proof.Machine.execLaneGroupStart g s
  | .hostLoadStart agent => Sys2Proof.Machine.execHostLoadStart agent s
  | .hDoorbell agent v => Sys2Proof.Machine.execHDoorbell agent v s
  | .chunkConsumed => Sys2Proof.Machine.execChunkConsumed s
  | .hostLoadAbort agent => Sys2Proof.Machine.execHostLoadAbort agent s
  | .hostLoadTimeout => Sys2Proof.Machine.execHostLoadTimeout s
  | .partialLoad agent v => Sys2Proof.Machine.execPartialLoad agent v s
  | .partialLoadVerify => Sys2Proof.Machine.execPartialLoadVerify s
  | .releaseDelayEnd => Sys2Proof.Machine.execReleaseDelayEnd s
  | .partialAbort agent => Sys2Proof.Machine.execPartialAbort agent s
  | .prClear agent v => Sys2Proof.Machine.execPrClear agent v s
  | .nvOpen agent v => Sys2Proof.Machine.execNvOpen agent v s
  | .nvClose agent => Sys2Proof.Machine.execNvClose agent s
  | .nvVerify agent v => Sys2Proof.Machine.execNvVerify agent v s
  | .nvVerifyEnd => Sys2Proof.Machine.execNvVerifyEnd s
  | .nvFlip agent v => Sys2Proof.Machine.execNvFlip agent v s
  | .nvWindowWrite t => Sys2Proof.Machine.execNvWindowWrite t s
  | .blockProgramEnd t ok => Sys2Proof.Machine.execBlockProgramEnd t ok s
  | .sensorSample temps volts => Sys2Proof.Machine.execSensorSample temps volts s
  | .throttleStep down => Sys2Proof.Machine.execThrottleStep down s
  | .backstop => Sys2Proof.Machine.execBackstop s
  | .backstopClear => Sys2Proof.Machine.execBackstopClear s
  | .thermalTrip sensor above125 => Sys2Proof.Machine.execThermalTrip sensor above125 s
  | .brownOut rail => Sys2Proof.Machine.execBrownOut rail s
  | .domainPowerOff agent v => Sys2Proof.Machine.execDomainPowerOff agent v s
  | .domainPowerOn agent v => Sys2Proof.Machine.execDomainPowerOn agent v s
  | .pinReset => Sys2Proof.Machine.execPinReset s
  | .sysReset agent v => Sys2Proof.Machine.execSysReset agent v s
  | .supplySwitch toVbat mv => Sys2Proof.Machine.execSupplySwitch toVbat mv s
  | .tamper n => Sys2Proof.Machine.execTamper n s
  | .cfgLock agent => Sys2Proof.Machine.execCfgLock agent s
  | .install agent => Sys2Proof.Machine.execInstall agent s
  | .zeroise agent => Sys2Proof.Machine.execZeroise agent s
  | .alarmAck agent => Sys2Proof.Machine.execAlarmAck agent s
  | .emberStateLoss => Sys2Proof.Machine.execEmberStateLoss s
  | .emberStart => Sys2Proof.Machine.execEmberStart s
  | .lockstepMismatch pair => Sys2Proof.Machine.execLockstepMismatch pair s
  | .takeoverResume => Sys2Proof.Machine.execTakeoverResume s
  | .checkpoint fw => Sys2Proof.Machine.execCheckpoint fw s
  | .admitOut agent v => Sys2Proof.Machine.execAdmitOut agent v s
  | .quarantine agent v => Sys2Proof.Machine.execQuarantine agent v s
  | .quarantineEnd ok => Sys2Proof.Machine.execQuarantineEnd ok s
  | .readmit agent v => Sys2Proof.Machine.execReadmit agent v s
  | .admitNotice at_ stop ring => Sys2Proof.Machine.execAdmitNotice at_ stop ring s
  | .routeRestore at_ stop ring => Sys2Proof.Machine.execRouteRestore at_ stop ring s
  | .rampStep => Sys2Proof.Machine.execRampStep s
  | .alarmQueuePop agent => Sys2Proof.Machine.execAlarmQueuePop agent s
  | .i2cRead off => Sys2Proof.Machine.execI2cRead off s
  | .i2cWrite off v pec => Sys2Proof.Machine.execI2cWrite off v pec s
  | .i2cStatus => Sys2Proof.Machine.execI2cStatus s
  | .i2cResult => Sys2Proof.Machine.execI2cResult s
  | .i2cBusTimeout => Sys2Proof.Machine.execI2cBusTimeout s
  | .readReg value index length => Sys2Proof.Machine.execReadReg value index length s
  | .writeReg value index length words => Sys2Proof.Machine.execWriteReg value index length words s
  | .usbStatus value index length => Sys2Proof.Machine.execUsbStatus value index length s
  | .usbResult value index length => Sys2Proof.Machine.execUsbResult value index length s
  | .usbStandardRequest r => Sys2Proof.Machine.execUsbStandardRequest r s
  | .usbBusReset highSpeed detach => Sys2Proof.Machine.execUsbBusReset highSpeed detach s
  | .usbTransferTimeout => Sys2Proof.Machine.execUsbTransferTimeout s
  | .winaccRead off => Sys2Proof.Machine.execWinaccRead off s
  | .winaccWrite off v => Sys2Proof.Machine.execWinaccWrite off v s
  | .channelClaim agent c => Sys2Proof.Machine.execChannelClaim agent c s
  | .go agent c => Sys2Proof.Machine.execGo agent c s
  | .channelRelease agent c => Sys2Proof.Machine.execChannelRelease agent c s
  | .mailboxResponse c status data => Sys2Proof.Machine.execMailboxResponse c status data s
  | .mailboxTimeout c => Sys2Proof.Machine.execMailboxTimeout c s
  | .getVersion c => Sys2Proof.Machine.execGetVersion c s
  | .breakLock c => Sys2Proof.Machine.execBreakLock c s
  | .nvSysWrite c ok => Sys2Proof.Machine.execNvSysWrite c ok s
  | .fieldBist agent v => Sys2Proof.Machine.execFieldBist agent v s
  | .fieldBistEnd fails logicFail => Sys2Proof.Machine.execFieldBistEnd fails logicFail s
  | .idcode => Sys2Proof.Machine.execIdcode s
  | .samplePreload => Sys2Proof.Machine.execSamplePreload s
  | .extest => Sys2Proof.Machine.execExtest s
  | .extestPulse => Sys2Proof.Machine.execExtestPulse s
  | .extestTrain => Sys2Proof.Machine.execExtestTrain s
  | .clamp => Sys2Proof.Machine.execClamp s
  | .highz => Sys2Proof.Machine.execHighz s
  | .probe => Sys2Proof.Machine.execProbe s
  | .winacc => Sys2Proof.Machine.execWinacc s
  | .bypass => Sys2Proof.Machine.execBypass s
  | .testLogicReset => Sys2Proof.Machine.execTestLogicReset s
  | .atbSelect agent bus1 v => Sys2Proof.Machine.execAtbSelect agent bus1 v s
  | .resetNRelease => Sys2Proof.Machine.execResetNRelease s
  | .transmitIdleExit l => Sys2Proof.Machine.execTransmitIdleExit l s
  | .receiveChannelTransfer l => Sys2Proof.Machine.execReceiveChannelTransfer l s
  | .gpioInputEdge bank pin level => Sys2Proof.Machine.execGpioInputEdge bank pin level s
  | .cdrLockLoss l => Sys2Proof.Machine.execCdrLockLoss l s
  | .blockLockLoss l invalidOnly => Sys2Proof.Machine.execBlockLockLoss l invalidOnly s
  | .qualificationLoss j => Sys2Proof.Machine.execQualificationLoss j s
  | .mailboxRequestTaken c => Sys2Proof.Machine.execMailboxRequestTaken c s
  | .firmwareStart version => Sys2Proof.Machine.execFirmwareStart version s
  | .usbAttach => Sys2Proof.Machine.execUsbAttach s
  | .hostLinkUp speed width => Sys2Proof.Machine.execHostLinkUp speed width s
  | .nvFlipEnd ok => Sys2Proof.Machine.execNvFlipEnd ok s
  | .listWriteEnd ok => Sys2Proof.Machine.execListWriteEnd ok s
  | .holdoffEnd => Sys2Proof.Machine.execHoldoffEnd s

end Sys2Proof.Machine
end

