-- ==== Sys2Proof/Machine/Tick.lean ====
section
/-!
DEFINITION. The passing of time: what a step does when no command waits.
-/
namespace Sys2Proof.Machine

/-- The rings after a nanosecond: so many cycles of their loop ML56, while the rings run (R156, R370, R452; log 136). -/
def State.ringsTick (s : State) : Rings :=
  if s.loopState 56 != 2 || s.clk.failed then s.rings else
    let n := s.loopEdges 56 (s.ns + 1) - s.loopEdges 56 s.ns
    let r := (s.ringCycles n).rings
    { r with paced := pacedOn r.paced n }

/-- The write queues drain where their controllers may (R203). -/
def State.drainAll (s : State) : State := (s.dram.wq.map Prod.fst).foldl State.drain s

/-- The scrub engines write back what they have corrected (R243, log 139). -/
def State.scrubFixes (s : State) : State := (s.integ.scrubFix.map Prod.fst).foldl State.scrubFixGo s

/-- The bits that error injection in rate mode flips in the nanosecond that passes: one in every 2^RATE_EXP that a lane in TEST or UP sends (R303, log 124). -/
def State.rateErrors (s : State) : State :=
  (List.range 192).foldl (fun s l =>
    let pg := Pg.lane l
    if s.fld pg Fld.LN_INJ_MODE = 3 ∧ !(s.lane l).rateStop ∧ (s.laneState l = 6 ∨ s.laneState l = 3) then
      let n (t : Nat) : Nat := edgesIn (s.fld pg Fld.LN_RATE_KBPS) t / 2 ^ s.fld pg Fld.LN_INJ_RATE_EXP
      (List.range (n (s.ns + 1) - n s.ns)).foldl (fun s _ => s.emit (.lane l (.inject 1))) s
    else s) s

/-- One nanosecond passes: the edges of the fabric clocks that fall in it move user logic, crossings and pins; CYCLE counts in running engines; flits move on; write queues drain, scrub corrections are written back; lanes send their probes and flip bits in rate mode; the ports pass their error queues on
(log 4, 130, 132, 136). -/
def State.tick (s : State) : State :=
  let f := s.logicEdges
  let s := { s with rings := s.ringsTick }.drainAll.scrubFixes.probesOut.rateErrors
  { s.portEvts with
    fab := { s.fab with userRegs := f.userRegs, siteMem := f.siteMem, xing := f.xing, pins := f.pins }, engs := s.enginesTick, ns := s.ns + 1 }

end Sys2Proof.Machine
end

