-- ==== Sys2Proof/Safety.lean ====
section
/-!
DEFINITION. What counts as a safe run: the block answers every command with a next state, and no waiting command is lost or reordered. Below it the
terms that the statements use: where a slot instruction stands, what a register write is, which state an event needs.
-/
namespace Sys2Proof

/-- A step answers a next state. -/
def Answers (s : Machine.State) : Prop := ∃ t, Machine.step s = .next t

/-- The commands that wait after a step are those that waited before it, less the one at the front. -/
def KeepsQueue (s t : Machine.State) : Prop := t.pending = s.pending.tail

/-- n steps in a row answer next states. -/
def Runs : Nat → Machine.State → Prop
  | 0, _ => True
  | n + 1, s => ∃ t, Machine.step s = .next t ∧ Runs n t

open Sys2Proof.Machine

/-- A slot instruction other than NOP: where it stands, the slots it has, its opcode and the fields of its format (Tables 04.4 to 04.7). -/
def slotOf : Instr → Option (Issue × List Nat × BitVec 6 × BitVec 22)
  | .add x f => some (x, [0], 0x01, f.enc)
  | .sub x f => some (x, [0], 0x02, f.enc)
  | .andR x f => some (x, [0], 0x03, f.enc)
  | .orR x f => some (x, [0], 0x04, f.enc)
  | .xorR x f => some (x, [0], 0x05, f.enc)
  | .shl x f => some (x, [0], 0x06, f.enc)
  | .shr x f => some (x, [0], 0x07, f.enc)
  | .sra x f => some (x, [0], 0x08, f.enc)
  | .mul x f => some (x, [0], 0x09, f.enc)
  | .addi x f => some (x, [0], 0x0A, f.enc)
  | .movi x f => some (x, [0], 0x0B, f.enc)
  | .movh x f => some (x, [0], 0x0C, f.enc)
  | .cmp x f => some (x, [0], 0x0D, f.enc)
  | .pop x f => some (x, [0], 0x0E, f.enc)
  | .sete x f => some (x, [0], 0x0F, f.enc)
  | .eadd x f => some (x, [0], 0x10, f.enc)
  | .emin x f => some (x, [0], 0x11, f.enc)
  | .mfe x f => some (x, [0], 0x12, f.enc)
  | .mte x f => some (x, [0], 0x13, f.enc)
  | .mfsr x f => some (x, [0], 0x14, f.enc)
  | .mtsr x f => some (x, [0], 0x15, f.enc)
  | .setbx x f => some (x, [0], 0x16, f.enc)
  | .br x f => some (x, [0], 0x18, f.enc)
  | .call x f => some (x, [0], 0x19, f.enc)
  | .ret x f => some (x, [0], 0x1A, f.enc)
  | .loop x f => some (x, [0], 0x1C, f.enc)
  | .loopr x f => some (x, [0], 0x1D, f.enc)
  | .clrrb x f => some (x, [0], 0x1E, f.enc)
  | .halt x f => some (x, [0], 0x1F, f.enc)
  | .vld x f => some (x, [1, 2], 0x01, f.enc)
  | .vldi x f => some (x, [1, 2], 0x02, f.enc)
  | .vst x f => some (x, [1, 2], 0x03, f.enc)
  | .vsti x f => some (x, [1, 2], 0x04, f.enc)
  | .ldw x f => some (x, [1, 2], 0x05, f.enc)
  | .stw x f => some (x, [1, 2], 0x06, f.enc)
  | .sin x f => some (x, [2], 0x10, f.enc)
  | .sout x f => some (x, [2], 0x11, f.enc)
  | .shiftin x f => some (x, [2], 0x12, f.enc)
  | .vadd x f => some (x, [3], 0x01, f.enc)
  | .vsub x f => some (x, [3], 0x02, f.enc)
  | .vand x f => some (x, [3], 0x03, f.enc)
  | .vor x f => some (x, [3], 0x04, f.enc)
  | .vxor x f => some (x, [3], 0x05, f.enc)
  | .vmax x f => some (x, [3], 0x06, f.enc)
  | .vmin x f => some (x, [3], 0x07, f.enc)
  | .vshl x f => some (x, [3], 0x08, f.enc)
  | .vsra x f => some (x, [3], 0x09, f.enc)
  | .vmul x f => some (x, [3], 0x0A, f.enc)
  | .vbcst x f => some (x, [3], 0x0B, f.enc)
  | .vnorm x f => some (x, [3], 0x0C, f.enc)
  | .vexp x f => some (x, [3], 0x0D, f.enc)
  | .aexp x f => some (x, [3], 0x0E, f.enc)
  | .vscale x f => some (x, [3], 0x0F, f.enc)
  | .vmac x f => some (x, [3], 0x10, f.enc)
  | .vmpy x f => some (x, [3], 0x11, f.enc)
  | .vmsub x f => some (x, [3], 0x12, f.enc)
  | .vmacb x f => some (x, [3], 0x13, f.enc)
  | .vfir x f => some (x, [3], 0x14, f.enc)
  | .aset x f => some (x, [3], 0x15, f.enc)
  | .accout x f => some (x, [3], 0x16, f.enc)
  | _ => none

/-- The instruction is the next slot of the bundle its engine issues, in a slot of its own, the program holds its word there, and at slot 0 the bundle passes its
checks and does not stall. -/
def SlotReady (s : State) (x : Issue) (slots : List Nat) (op : BitVec 6) (body : BitVec 22) : Prop :=
  x.slot.val ∈ slots ∧ s.engIssues x.eng = true ∧ (s.eng x.eng).slot = x.slot.val ∧ s.progSlot x.eng x.slot = slotWord op x.guard x.pg body ∧
    (x.slot.val = 0 → (s.eng x.eng).hold = false ∧ (s.fetchBundle x.eng).1 = none ∧ s.bundleStalls x.eng = false)

/-- The guard lets the slot execute. -/
def SlotOpen (s : State) (x : Issue) : Prop := x.guard = true → (s.eng x.eng).core.pVal x.pg.toNat = true

/-- The state after the bundle's fetch, which slot 0 makes: a corrected fetch counts and is written back later. -/
def fetched (s : State) (x : Issue) : State := if x.slot.val = 0 then (s.fetchBundle x.eng).2 else s

/-- The slot instruction executes and does `act`; then the slot is done. -/
def SlotDoes (i : Instr) (x : Issue) (slots : List Nat) (op : BitVec 6) (body : BitVec 22) (act : State → State) : Prop :=
  ∀ s, SlotReady s x slots op body → SlotOpen s x → exec i s = .next ((act (fetched s x)).slotDone x.eng x.slot)

/-- The slot instruction executes and writes registers of its engine: `w` takes what the slots of the bundle read and what they have written so far. -/
def SlotWrites (i : Instr) (x : Issue) (slots : List Nat) (op : BitVec 6) (body : BitVec 22) (w : EngCore → EngCore → EngCore) : Prop :=
  SlotDoes i x slots op body fun s => s.setEng x.eng { s.eng x.eng with next := w (s.eng x.eng).core (s.eng x.eng).next }

/-- A write of a full word to a register of the window that an agent's path carries and the register takes. -/
def Accepts (s : State) (a pg off : Nat) (v : Word) : Prop := s.reaches a pg = true ∧ s.writeReason a pg off 0xF v = none

/-- The five requests that an end point issues, with the type of each. -/
def requestCmds (stop : Fin 64) (ifc : Fin 4) (r : EpReq) : List (Instr × ReqType) :=
  [(.rd stop ifc r, .rd), (.wr stop ifc r, .wr), (.wrp stop ifc r, .wrp), (.cmoClean stop ifc r, .clean), (.cmoFlush stop ifc r, .flush)]

/-- A request stands at the head of an interface's injection queue of a class, with `rest` behind it, and no queue that is looked at earlier begins with the same. -/
def AtHead (s : State) (key : Nat) (q : TxnClass) (e : EpEntry) (rest : List EpEntry) : Prop :=
  s.epQ key q = e :: rest ∧
    ∀ q' ∈ [TxnClass.req, TxnClass.post, TxnClass.mgmt].takeWhile (· ≠ q), ∀ e', (s.epQ key q').head? = some e' → e'.typ ≠ e.typ ∨ e'.r ≠ e.r

/-- The CHECK of a block is the CRC-32C of its first 92 bytes (Table 14.1). -/
def blockGood (b : BitVec 768) : Bool := crcOf 2 ((toBytes 96 b).take 92) == ((toBytes 96 b).drop 92).foldl (fun n x => 256 * n + x.toNat) 0

/-- The pages whose registers act through their contents alone: a write of one has no effect of its own. -/
def plainPages : List PageKind := [.dev0, .sc, .ime, .dlk, .uci, .fabXng, .fabSlt, .tqExp, .hbmStk, .ddrRmt, .thm, .host, .i2ct, .jtg]

/-- A field after an accepted write of v, by its access code (Table 00.4). -/
def fieldAfter (f : FieldDef) (old v : Word) : Nat :=
  match f.acc with
  | .rw | .rwl | .rwh => fieldOf v f.lo f.width
  | .w1c => fieldOf (old &&& ~~~ v) f.lo f.width
  | _ => fieldOf old f.lo f.width

/-- What the reset of an agent releases: its page locks, each with BROKEN set and LOCK_BROKEN raised, and its mailbox channels (R473, R483). -/
def ReleasedBy (owner : Nat) (s t : State) : Prop :=
  (∀ pg w, mget s.regs (regKey pg Reg.PG_PG_LOCK) = some w → w.getLsbD 31 = true → fieldOf w 16 8 = owner →
    t.fld pg Fld.PG_PG_LOCK_HELD = 0 ∧ t.fld pg Fld.PG_PG_LOCK_BROKEN = 1 ∧ t.fld pg Fld.PG_PG_EVT_LOCK_BROKEN = 1) ∧
  (∀ c < 8, s.chState c ≠ 0 → s.chOwner c = owner → t.chState c = 0 ∧ t.chOwner c = 0)

/-- The part that a state is of: its identity, serial number and fuses. -/
def IsPart (part : Word) (serial : BitVec 64) (fuses : KMap Word) (s : State) : Prop := s.partId = part ∧ s.serialNo = serial ∧ s.fuses = fuses

end Sys2Proof
end

