-- ==== Sys2Proof/WellFormed.lean ====
section
/-!
DEFINITION. Which commands the block can meet. The types of the operands rule out most ill-formed commands; the checks here are those they cannot
state. A command that fails one has a meaning all the same (it changes nothing, or what its rule says of such an operand).
-/
namespace Sys2Proof
open Machine

/-- The agents of Table 19.4. -/
def knownAgent (a : Agent) : Bool :=
  let n := a.toNat
  (decide (1 ≤ n) && decide (n ≤ 5)) || (decide (0x08 ≤ n) && decide (n ≤ 0x0F)) || (decide (0x40 ≤ n) && decide (n ≤ 0x7F))
    || (decide (0x80 ≤ n) && decide (n ≤ 0x83))

/-- The agent that a command names. -/
def Instr.agent : Instr → Option Agent
  | .registerWrite agent _ _ _ _ => some agent
  | .loRegisterRead agent _ _ => some agent
  | .pageAccessTimeout agent _ => some agent
  | .softReset agent _ => some agent
  | .trbClr agent _ => some agent
  | .acquire agent _ => some agent
  | .release agent _ => some agent
  | .clrBroken agent _ => some agent
  | .haltCommand agent _ => some agent
  | .resume agent _ => some agent
  | .stepCmd agent _ => some agent
  | .engSrWrite agent _ _ _ => some agent
  | .sync agent _ => some agent
  | .fence agent _ _ => some agent
  | .snuff agent _ _ => some agent
  | .ifOn agent _ _ => some agent
  | .dieLost agent _ => some agent
  | .rangeCmoClean agent => some agent
  | .rangeCmoFlush agent => some agent
  | .dieCacheFlush agent _ => some agent
  | .trainStart agent _ => some agent
  | .keyLoad agent _ => some agent
  | .activate agent _ => some agent
  | .disable agent _ => some agent
  | .scrubStart agent _ _ => some agent
  | .scrubStop agent _ => some agent
  | .rawEnter agent _ => some agent
  | .rawExit agent _ => some agent
  | .rawRead agent _ => some agent
  | .rawWrite agent _ => some agent
  | .rawEncode agent _ => some agent
  | .addEntry agent => some agent
  | .commit agent => some agent
  | .listWrite agent => some agent
  | .outgoingJob agent _ _ => some agent
  | .incomingJob agent _ _ => some agent
  | .scanJob agent _ _ _ => some agent
  | .jobStop agent _ => some agent
  | .laneEnable agent _ => some agent
  | .laneDisable agent _ => some agent
  | .restart agent _ => some agent
  | .fire agent _ => some agent
  | .msixTrig agent _ => some agent
  | .linkRetrain agent => some agent
  | .retrain _ agent => agent
  | .moduleEnable agent _ => some agent
  | .moduleDisable agent _ => some agent
  | .spanEnable agent _ _ => some agent
  | .queueEnable agent _ => some agent
  | .queueDisable agent => some agent
  | .electionStart agent => some agent
  | .nodeWrite agent _ => some agent
  | .rtData agent _ => some agent
  | .perrRecordPop agent => some agent
  | .toMaster agent => some agent
  | .refPrioWrite agent _ => some agent
  | .loopOn agent _ => some agent
  | .loopOff agent _ => some agent
  | .skip agent _ _ => some agent
  | .cregGate agent _ _ => some agent
  | .fdieGate agent _ _ => some agent
  | .mx0Force agent => some agent
  | .safeRelease agent => some agent
  | .hostLoadStart agent => some agent
  | .hDoorbell agent _ => some agent
  | .hostLoadAbort agent => some agent
  | .partialLoad agent _ => some agent
  | .partialAbort agent => some agent
  | .prClear agent _ => some agent
  | .nvOpen agent _ => some agent
  | .nvClose agent => some agent
  | .nvVerify agent _ => some agent
  | .nvFlip agent _ => some agent
  | .domainPowerOff agent _ => some agent
  | .domainPowerOn agent _ => some agent
  | .sysReset agent _ => some agent
  | .cfgLock agent => some agent
  | .install agent => some agent
  | .zeroise agent => some agent
  | .alarmAck agent => some agent
  | .admitOut agent _ => some agent
  | .quarantine agent _ => some agent
  | .readmit agent _ => some agent
  | .alarmQueuePop agent => some agent
  | .channelClaim agent _ => some agent
  | .go agent _ => some agent
  | .channelRelease agent _ => some agent
  | .fieldBist agent _ => some agent
  | .atbSelect agent _ _ => some agent
  | _ => none

/-- Check 1: the agent is one of Table 19.4 (R465). -/
def Instr.agentOk (c : Instr) : Bool := c.agent.all knownAgent

/-- The transaction that a command names. -/
def Instr.txnKey : Instr → Option TxnKey
  | .programMemoryWrite t => some t
  | .lanternMemoryRingRead t => some t
  | .lanternMemoryRingWrite t => some t
  | .requestArrival t => some t
  | .parkTimeout t => some t
  | .rdata t => some t
  | .wack t => some t
  | .pack t => some t
  | .requestTimeout t => some t
  | .remoteRequest t => some t
  | .remoteTimeout t => some t
  | .nvWindowWrite t => some t
  | .blockProgramEnd t _ => some t
  | _ => none

/-- Check 2: a tag of the MGMT pool is below 16 (R147). -/
def Instr.tagOk (c : Instr) : Bool := c.txnKey.all fun t => decide (t.cls ≠ .mgmt) || decide (t.tag.val < 16)

/-- The memory port that a command names. -/
def Instr.memPort : Instr → Option MemPort
  | .blockMemoryRead p => some p
  | .blockMemoryWrite p _ _ _ => some p
  | .correctedWordWriteBack p => some p
  | _ => none

/-- Check 3: the memory exists and has the word: 3,072 block memories of 2,048 words and 256 deep memories of 16,384 words a die (Table 02.1). -/
def Instr.memOk (c : Instr) : Bool :=
  c.memPort.all fun p => if p.deep then decide (p.mem.val < 256) else decide (p.addr.val < 2048)

/-- The request that a command carries. -/
def Instr.request : Instr → Option EpReq
  | .fabricPortRequest _ _ r => some r
  | .rd _ _ r => some r
  | .wr _ _ r => some r
  | .wrp _ _ r => some r
  | .cmoClean _ _ r => some r
  | .cmoFlush _ _ r => some r
  | _ => none

/-- Check 4: bits [63:58] of a requester's address are zero (R26). -/
def Instr.addrOk (c : Instr) : Bool := c.request.all fun r => decide (r.addr.toNat < 2 ^ 58)

/-- Check 5: a command's list is no longer than what carries it: 128 bytes in a mailbox channel (R482), as many words as wLength says in a WRITE_REG (R479),
and a status that exists. -/
def Instr.sizeOk : Instr → Bool
  | .mailboxResponse _ status data => decide (status.toNat ≤ 6) && decide (data.length ≤ 128)
  | .writeReg _ _ length words => decide (4 * words.length = length.toNat)
  | _ => true

/-- The slot of a slot instruction and the slots that list it (R97, Tables 04.5 to 04.7). -/
def Instr.slots : Instr → Option (Issue × List Nat)
  | .add x _ => some (x, [0])
  | .sub x _ => some (x, [0])
  | .andR x _ => some (x, [0])
  | .orR x _ => some (x, [0])
  | .xorR x _ => some (x, [0])
  | .shl x _ => some (x, [0])
  | .shr x _ => some (x, [0])
  | .sra x _ => some (x, [0])
  | .mul x _ => some (x, [0])
  | .addi x _ => some (x, [0])
  | .movi x _ => some (x, [0])
  | .movh x _ => some (x, [0])
  | .cmp x _ => some (x, [0])
  | .pop x _ => some (x, [0])
  | .sete x _ => some (x, [0])
  | .eadd x _ => some (x, [0])
  | .emin x _ => some (x, [0])
  | .mfe x _ => some (x, [0])
  | .mte x _ => some (x, [0])
  | .mfsr x _ => some (x, [0])
  | .mtsr x _ => some (x, [0])
  | .setbx x _ => some (x, [0])
  | .br x _ => some (x, [0])
  | .call x _ => some (x, [0])
  | .ret x _ => some (x, [0])
  | .loop x _ => some (x, [0])
  | .loopr x _ => some (x, [0])
  | .clrrb x _ => some (x, [0])
  | .halt x _ => some (x, [0])
  | .vld x _ => some (x, [1, 2])
  | .vldi x _ => some (x, [1, 2])
  | .vst x _ => some (x, [1, 2])
  | .vsti x _ => some (x, [1, 2])
  | .ldw x _ => some (x, [1, 2])
  | .stw x _ => some (x, [1, 2])
  | .sin x _ => some (x, [2])
  | .sout x _ => some (x, [2])
  | .shiftin x _ => some (x, [2])
  | .vadd x _ => some (x, [3])
  | .vsub x _ => some (x, [3])
  | .vand x _ => some (x, [3])
  | .vor x _ => some (x, [3])
  | .vxor x _ => some (x, [3])
  | .vmax x _ => some (x, [3])
  | .vmin x _ => some (x, [3])
  | .vshl x _ => some (x, [3])
  | .vsra x _ => some (x, [3])
  | .vmul x _ => some (x, [3])
  | .vbcst x _ => some (x, [3])
  | .vnorm x _ => some (x, [3])
  | .vexp x _ => some (x, [3])
  | .aexp x _ => some (x, [3])
  | .vscale x _ => some (x, [3])
  | .vmac x _ => some (x, [3])
  | .vmpy x _ => some (x, [3])
  | .vmsub x _ => some (x, [3])
  | .vmacb x _ => some (x, [3])
  | .vfir x _ => some (x, [3])
  | .aset x _ => some (x, [3])
  | .accout x _ => some (x, [3])
  | _ => none

/-- Check 6: a slot instruction stands in a slot that lists it (R97); NOP stands in every slot. -/
def Instr.slotOk (c : Instr) : Bool := c.slots.all fun p => p.2.contains p.1.slot.val

/-- A command the block can meet. -/
def Instr.wellFormed (c : Instr) : Bool := c.agentOk && c.tagOk && c.memOk && c.addrOk && c.sizeOk && c.slotOk

end Sys2Proof
end

