-- ==== Sys2Proof/Certificates/Slice0/Obligations.lean ====
section
/-!
DEFINITION. Statements for the provers. Each says in its docstring which rules of spec/ it formalises, or which entry of the assumption log it rests
on. `{ t with f := s.f } = s` says that t and s agree in every field of the state but f.
-/

open Sys2Proof Sys2Proof.Machine

/-- The step of a block: the command at the front of its queue is executed on the state with the queue's rest (prompt's rule of a block; log 4 for the empty queue). -/
def Obligations.StepRunsFront : Prop :=
  ∀ (c : Instr) (s : State), step { s with pending := c :: s.pending } = exec c s

/-- R39, R42 to R45. A write at a port that may write, in a port cycle in which nothing stands from the cycles before: a word whose byte enables are all set holds the data, a word with some clear keeps its content while the merged word waits for the next cycle, in which the access of that port is refused with PWCOLL and counted; the wide form writes two words; the FIFO form appends a word, and a full FIFO takes none. No word of another memory changes.
A read of one word at a port that may read: a correct one is driven as it is; a single-bit error is corrected, SBE is driven and the counter of corrected errors counts; an uncorrectable word is driven as it stands with DBE, its counter counts and the event DBE is raised. The corrected words of a port are written back when it is idle, while write-back is enabled. A port whose clock does not run, or that may not read or write, does nothing. That port A of the modes with one write port writes and port B reads is log 130.
R35, R36, R47: in the nanosecond that passes while no command waits (log 4, 130) the registers of a site of a live slot load what its LUTs put before them at an edge of their clock under the clock enable, take their image values on a reset (synchronous: at an edge), and hold else; a crossing register, which has no clock enable and no reset, moves its stages on at each edge of its group's clock. -/
def Obligations.FabricMemories : Prop :=
  (
  ∀ (p : MemPort) (be : BitVec 16) (data : BitVec 128) (s : State),
    let mode := s.bmMode p.memNo
    let lanes := if p.deep then 8 else 4
    let wordOf (i : Nat) : EccWord := .ok (BitVec.ofNat 64 (fieldOf data (bmWidth p.deep * i) (bmWidth p.deep)))
    (s.memUp p = false ∨ p.mayWrite mode = false → ∀ o, exec (.blockMemoryWrite p be data o) s = .next s) ∧
    (s.memUp p = true → p.mayWrite mode = true → s.bmCycle p.memNo = {} →
    ∃ t, exec (.blockMemoryWrite p be data none) s = .next t ∧
      { t with fab := s.fab, regs := s.regs, out := s.out, msixPend := s.msixPend } = s ∧
      (∀ m a, m ≠ p.memNo → a < 16384 → t.bmWord m a = s.bmWord m a) ∧
      (mode ≠ .wide → mode ≠ .fifo →
        (∀ a, a < 16384 → a ≠ p.addr.val → t.bmWord p.memNo a = s.bmWord p.memNo a) ∧
        (be.toNat % 2 ^ lanes = 2 ^ lanes - 1 → { t with fab := s.fab } = s ∧ t.bmWord p.memNo p.addr.val = wordOf 0) ∧
        (be.toNat % 2 ^ lanes ≠ 2 ^ lanes - 1 →
          t.bmWord p.memNo p.addr.val = s.bmWord p.memNo p.addr.val ∧
          (t.bmCycle p.memNo).merges = [⟨p.portB, p.addr.val, .ok (mergeLanes (bmLane p.deep) lanes (be.toNat % 2 ^ lanes)
            ((bmDecode p.deep (s.bmWord p.memNo p.addr.val)).dataOr (s.bmWord p.memNo p.addr.val))
            (BitVec.ofNat 64 (fieldOf data 0 (bmWidth p.deep))))⟩] ∧
          ∀ (q : MemPort) b d, q.memNo = p.memNo → q.portB = p.portB → q.cyc = .next → t.memUp q = true → q.mayWrite mode = true →
            ∃ u, exec (.blockMemoryWrite q b d none) t = .next u ∧ (∃ o, mget u.fab.bmOut q.portNo = some o ∧ o.pwcoll = true) ∧
              (∀ m, (t.bmCycle p.memNo).merges = [m] → u.bmWord p.memNo p.addr.val = m.word) ∧
              (t.fld (Pg.fabMem q.die) (Fld.PG_TRB_CNT 4) < 0xFFFF →
                u.fld (Pg.fabMem q.die) (Fld.PG_TRB_CNT 4) = t.fld (Pg.fabMem q.die) (Fld.PG_TRB_CNT 4) + 1))) ∧
      (mode = .wide → be.toNat % 2 ^ (2 * lanes) = 2 ^ (2 * lanes) - 1 →
        t.bmWord p.memNo (2 * p.addr.val) = wordOf 0 ∧ t.bmWord p.memNo (2 * p.addr.val + 1) = wordOf 1) ∧
      (mode = .fifo →
        let q := s.bmFifo p.memNo
        if q.count = 2048 then t.fab.bm = s.fab.bm ∧ t.fab.bmFifo = s.fab.bmFifo
        else t.bmFifo p.memNo = ⟨q.rd, q.count + 1⟩ ∧ t.bmWord p.memNo ((q.rd + q.count) % 2048) = wordOf 0))) ∧
  (
  ∀ (p : MemPort) (s : State),
    let mode := s.bmMode p.memNo
    let w := s.bmWord p.memNo p.addr.val
    let pg := Pg.fabMem p.die
    let count (k : Nat) : Fld := Fld.PG_TRB_CNT ((if p.deep then 2 else 0) + k)
    (s.memUp p = false ∨ p.mayRead mode = false → exec (.blockMemoryRead p) s = .next s) ∧
    (s.memUp p = false → exec (.correctedWordWriteBack p) s = .next s) ∧
    (s.memUp p = true → s.bmCycle p.memNo = {} → s.isRaw (bmTarget p.deep) p.die p.mem = false →
    (p.mayRead mode = true → mode ≠ .wide → mode ≠ .fifo →
     ∃ t, exec (.blockMemoryRead p) s = .next t ∧ t.fab.bm = s.fab.bm ∧
      { t with fab := s.fab, regs := s.regs, out := s.out, msixPend := s.msixPend } = s ∧
      (bmDecode p.deep w = .clean →
        mget t.fab.bmOut p.portNo = some ⟨(withField (0 : BitVec 128) 0 (bmWidth p.deep) w.data.toNat), false, false, false, false⟩ ∧
        t.regs = s.regs) ∧
      (∀ d, bmDecode p.deep w = .corrected d →
        mget t.fab.bmOut p.portNo =
          some ⟨withField (0 : BitVec 128) 0 (bmWidth p.deep) (BitVec.ofNat 64 d).toNat, true, false, false, false⟩ ∧
        (s.bmWbOn p = true → (p.addr.val, EccWord.ok (BitVec.ofNat 64 d)) ∈ mgetD [] t.fab.writeBack p.portNo) ∧
        (s.fld pg (count 0) < 0xFFFF → t.fld pg (count 0) = s.fld pg (count 0) + 1)) ∧
      (bmDecode p.deep w = .uncorrectable →
        mget t.fab.bmOut p.portNo = some ⟨withField (0 : BitVec 128) 0 (bmWidth p.deep) w.data.toNat, false, true, false, false⟩ ∧
        t.fld pg Evt.FABMEM_DBE = 1 ∧
        (s.fld pg (count 1) < 0xFFFF → t.fld pg (count 1) = s.fld pg (count 1) + 1))) ∧
    (∀ l, mgetD [] s.fab.writeBack p.portNo = l → s.bmWbOn p = true → (l.map Prod.fst).Nodup → (∀ e ∈ l, e.1 < 16384) →
      ∃ t, exec (.correctedWordWriteBack p) s = .next t ∧ { t with fab := s.fab } = s ∧ (∀ e ∈ l, t.bmWord p.memNo e.1 = e.2) ∧
        (∀ a, a < 16384 → a ∉ l.map Prod.fst → t.bmWord p.memNo a = s.bmWord p.memNo a) ∧
        mget t.fab.writeBack p.portNo = none))) ∧
  (
  ∀ s : State, s.pending = [] → KMap.sorted s.design.sites → ∃ t, step s = .next t ∧ t.ns = s.ns + 1 ∧ t.design = s.design ∧
    (∀ e ∈ s.design.sites, ∀ second : Bool,
      let m := e.1 / dieSites
      let i := e.1 % dieSites
      let bank := if second then e.2.bank1 else e.2.bank0
      let edge := s.slotEdge m (siteSlot i) bank.clk
      let held (k : Nat) : Prop := (t.siteRegs m i).getLsbD k = (s.siteRegs m i).getLsbD k
      (s.slotLive m (siteSlot i) = false → t.siteRegs m i = s.siteRegs m i) ∧
      ∀ k, k / 8 = second.toNat → s.slotLive m (siteSlot i) = true →
        (s.value m bank.rst = true → bank.async = true ∨ edge = true → (t.siteRegs m i).getLsbD k = e.2.init.getLsbD k) ∧
        (edge = false → s.value m bank.rst = false ∨ bank.async = false → held k) ∧
        (edge = true → s.value m bank.rst = false → s.value m bank.ce = false → held k) ∧
        (edge = true → s.value m bank.rst = false → s.value m bank.ce = true → s.siteMemOf m i = none → ∀ l, e.2.luts[k / 2]? = some l →
          (∀ x ∈ l.ins, ∃ j b, x = .reg j b) → (t.siteRegs m i).getLsbD k = l.eval (s.value m) (k % 2 == 1))) ∧
    (∀ g ∈ s.design.groups, ∀ w ∈ g.wires, (∀ g' ∈ s.design.groups, ∀ w' ∈ g'.wires, g'.key w'.1 = g.key w.1 → g' = g ∧ w' = w) →
      let now := s.xReg (g.key w.1)
      let r := t.xReg (g.key w.1)
      (s.loopEdge g.fclk = false → r = now) ∧
      (s.loopEdge g.fclk = true → s.xClamped g.src g.dst = false →
        r.stages.getLsbD 0 = s.value g.src w.2 ∧ r.stages.getLsbD 1 = now.stages.getLsbD 0 ∧ r.stages.getLsbD 2 = now.stages.getLsbD 1)))

/-- R58, R61, Table 02.9. A non-posted request is accepted against a free response slot and its tag is outstanding; a duplicate tag is answered BUS_ERROR and
counted in TRB2; a posted write takes no slot; a fence begins. The oldest response leaves its slot when the fabric accepts it. A response of
target mode answers the transaction it was presented for; past TGT_TIMEOUT the port answers BUS_ERROR and counts in TRB1, and discards and counts the late response. -/
def Obligations.RingPorts : Prop :=
  ∀ (p : Fin 64) (s : State),
    let pg := portPg p
    let at_ := portAt p
    let key := ifKey at_.1 at_.2
    let free := s.fld pg Fld.FABPRT_RSP_SLOTS_FREE
    let open_ := s.fld pg Fld.FABPRT_OUTSTANDING_COUNT
    let tags := mgetD [] s.fab.outTags p
    let only : State → Prop := fun t => { t with regs := s.regs, fab := s.fab, rings := s.rings, out := s.out, msixPend := s.msixPend } = s
    let one (k : Nat) (t : State) : Prop := s.fld pg (Fld.PG_TRB_CNT k) < 0xFFFF → t.fld pg (Fld.PG_TRB_CNT k) = s.fld pg (Fld.PG_TRB_CNT k) + 1
    let answered (e : PortTgt) (x : Txn) (st : Status) (d : Line) (t : State) : Prop :=
      t.txn e.txn = some { x with phase := .answered st (if x.typ = .rd then placed x.len (x.addr.toNat % 64) d else 0), aseq := s.rings.seq, ringBack := s.route x.dst e.txn.src }
    (s.portActive p = true → s.portMode p % 2 = 1 → s.mayIssue at_.1 at_.2 = true →
      ∀ (typ : ReqType) (r : EpReq),
      (typ ≠ .wrp → 0 < free → r.tag ∈ tags → ∃ t, exec (.fabricPortRequest p typ r) s = .next t ∧ only t ∧ t.rings = s.rings ∧
        t.fld pg Fld.FABPRT_RSP_SLOTS_FREE = free - 1 ∧ t.fld pg Fld.FABPRT_OUTSTANDING_COUNT = open_ ∧ mgetD [] t.fab.outTags p = tags ∧
        mgetD [] t.fab.rsp p = mgetD [] s.fab.rsp p ++ [(⟨true, r.tag, .busError, 0⟩ : PortRsp)] ∧
        one 2 t) ∧
      (typ ≠ .wrp → typ ≠ .fence → 0 < free → open_ < 255 → r.tag ∉ tags → s.bit pg Fld.FABPRT_PORT_CTRL_CACHED = false →
        (s.epQ key (s.queueOf at_.1 at_.2 typ r.addr.toNat)).length < (s.queueOf at_.1 at_.2 typ r.addr.toNat).room →
        ∃ t, exec (.fabricPortRequest p typ r) s = .next t ∧ only t ∧
        t.fld pg Fld.FABPRT_RSP_SLOTS_FREE = free - 1 ∧ t.fld pg Fld.FABPRT_OUTSTANDING_COUNT = open_ + 1 ∧
        mgetD [] t.fab.outTags p = tags ++ [r.tag] ∧ t.fab.rsp = s.fab.rsp ∧
        t.rings = (s.handIn at_.1 at_.2 ⟨typ, r, s.portTid p, false⟩).rings ∧
        t.epQ key (s.queueOf at_.1 at_.2 typ r.addr.toNat) = s.epQ key (s.queueOf at_.1 at_.2 typ r.addr.toNat) ++ [(⟨typ, r, s.portTid p, false⟩ : EpEntry)]) ∧
      (typ = .wrp → s.bit pg Fld.FABPRT_PORT_CTRL_CACHED = false →
        (s.epQ key (s.queueOf at_.1 at_.2 typ r.addr.toNat)).length < (s.queueOf at_.1 at_.2 typ r.addr.toNat).room →
        exec (.fabricPortRequest p typ r) s = .next (s.handIn at_.1 at_.2 ⟨typ, r, s.portTid p, false⟩)) ∧
      (typ = .fence → 0 < free → open_ < 255 → r.tag ∉ tags → ∃ t, exec (.fabricPortRequest p typ r) s = .next t ∧ only t ∧
        t.fld pg Fld.FABPRT_RSP_SLOTS_FREE = free - 1 ∧ mgetD [] t.fab.outTags p = tags ++ [r.tag] ∧ mget t.rings.fences key = some (some r.tag) ∧
        (t.fld (Pg.stop at_.1) Fld.STOP_FENCE_BUSY).testBit at_.2 = true)) ∧
    (s.portActive p = false → ∀ typ r, exec (.fabricPortRequest p typ r) s = .next s) ∧
    (∀ r rest, mgetD [] s.fab.rsp p = r :: rest → s.portClk p = true → free < 255 → 0 < open_ →
      ∃ t, exec (.responseAccept p) s = .next t ∧
        { t with regs := s.regs, fab := s.fab, out := s.out, msixPend := s.msixPend } = s ∧ (r.status = .busError ∨ r.status = .domainOff → one 0 t) ∧ (r.status = .poison → one 3 t) ∧
        mgetD [] t.fab.rsp p = rest ∧ Emit.portRsp p r.tag r.status r.data ∈ t.out ∧ t.fld pg Fld.FABPRT_RSP_SLOTS_FREE = free + 1 ∧
        (r.dup = true → t.fld pg Fld.FABPRT_OUTSTANDING_COUNT = open_) ∧
        (r.dup = false → t.fld pg Fld.FABPRT_OUTSTANDING_COUNT = open_ - 1 ∧ mgetD [] t.fab.outTags p = tags.erase r.tag) ∧
        (r.dup = false → open_ = 1 → p.val ∈ s.fab.disabling → t.fld pg Fld.FABPRT_PORT_CTRL_ENABLE = 0 ∧ p.val ∉ t.fab.disabling)) ∧
    (∀ (g : BitVec 8) (st : Status) (d : Line) (e : BitVec 8 × PortTgt) (x : Txn),
      (mgetD [] s.fab.tgt p).find? (fun e => e.1 == g) = some e → s.txn e.2.txn = some x → x.phase = .delivered →
      s.pathOpen x.dst e.2.txn.src (s.route x.dst e.2.txn.src) = true →
      (s.portClk p = true → st ≠ .domainOff → ∃ t, exec (.targetResponse p g st d) s = .next t ∧ { t with fab := s.fab, rings := s.rings } = s ∧
        mgetD [] t.fab.tgt p = (mgetD [] s.fab.tgt p).filter (fun e => e.1 != g) ∧ answered e.2 x st (if st = .ok ∨ st = .poison then d else 0) t) ∧
      ∃ t, exec (.targetTimeout p g) s = .next t ∧ only t ∧ g ∈ mgetD [] t.fab.lateTgt p ∧ answered e.2 x .busError 0 t ∧ one 1 t) ∧
    (s.portClk p = true → ∀ (g : BitVec 8) (st : Status) (d : Line), (mgetD [] s.fab.tgt p).find? (fun e => e.1 == g) = none → g ∈ mgetD [] s.fab.lateTgt p →
      ∃ t, exec (.targetResponse p g st d) s = .next t ∧ t.rings = s.rings ∧ mgetD [] t.fab.lateTgt p = (mgetD [] s.fab.lateTgt p).erase g ∧ one 1 t)

/-- R68 to R75, R78, R82, Tables 03.3 and 03.4. With CE = 1 the pre-adder forms D + A or D - A, halved or kept (saturated where SAT_EN says so, setting OVF), the
multiplier is exact, P takes Z + W ± M modulo 2^64 and WRAP records an exact sum outside 64 bits, Q takes the floor of P by 2^s clamped or cut to w bits with OVF_NOW
and OVF, and LSC counts what Q held. PIPE says which registers separate the stages. With CE = 0 every register holds. No other slice changes. A slice whose clock does not
run does nothing. (LSC before the edge is kept for the column unit: log 12. The edge at which a pre-adder overflow sets OVF: log 131.) -/
def Obligations.SliceEdge : Prop :=
  ∀ (sl : SliceId) (n : SliceIn) (s : State),
    let k := s.sliceAttr sl.no
    let r := s.slice sl.no
    (s.sliceUp sl = false → exec (.sliceOperation sl n) s = .next s) ∧
    (s.sliceUp sl = true → ∃ t, exec (.sliceOperation sl n) s = .next t ∧ { t with fab := s.fab } = s ∧
      { t.fab with slices := s.fab.slices, cexp := s.fab.cexp } = s.fab ∧ (∀ j, j ≠ sl.no → t.slice j = s.slice j) ∧
      (n.ce = false → t.slice sl.no = { r with lscPrev := r.lsc } ∧ t.fab.cexp = s.fab.cexp) ∧
      (n.ce = true →
        let r' := t.slice sl.no
        -- what the pre-adder and the multiplier see
        let i0 : BitVec 24 × BitVec 24 × BitVec 20 × BitVec 48 × Byte :=
          if k.pipe = .minimal then (n.a, n.d, n.b, n.c, n.op) else (r.a, r.d, r.b, r.c0, r.op0)
        let sum : Int := if i0.2.2.2.2.getLsbD 6 then i0.2.1.toInt - i0.1.toInt else i0.2.1.toInt + i0.1.toInt
        let preOvf : Bool := i0.2.2.2.2.getLsbD 5 && k.preKeep && (decide (sum < -8388608) || decide (8388607 < sum))
        let i1 : BitVec 24 × BitVec 20 × BitVec 48 × Byte :=
          if k.pipe = .full then (r.x, r.b1, r.c1, r.op1) else (r'.x, i0.2.2.1, i0.2.2.2.1, i0.2.2.2.2)
        let i2 : Int × BitVec 48 × Byte := if k.pipe = .minimal then (i1.1.toInt * i1.2.1.toInt, i0.2.2.2.1, i0.2.2.2.2) else (r.m.toInt, r.c2, r.op2)
        let m : Int := if i2.2.2.getLsbD 0 then 0 else i2.1
        let w : Int := if i2.2.2.getLsbD 4 then i2.2.1.toInt else 0
        let pcin := (s.pcin sl).toInt
        let z : Int := match fieldOf i2.2.2 2 2 with
          | 0 => 0
          | 1 => r.p.toInt
          | 2 => pcin
          | _ => pcin / 2 ^ k.casShift
        let exact : Int := if i2.2.2.getLsbD 7 then z + w - m else z + w + m
        let v : Int := (if k.pipe = .full then r.p.toInt else r'.p.toInt) / 2 ^ k.outShift
        let lim : Int := 2 ^ (k.outWidth - 1)
        (i0.2.2.2.2.getLsbD 5 = false → r'.x = i0.1) ∧
        (i0.2.2.2.2.getLsbD 5 = true → k.preKeep = false → r'.x = BitVec.ofInt 24 (sum / 2)) ∧
        (i0.2.2.2.2.getLsbD 5 = true → k.preKeep = true → -8388608 ≤ sum → sum ≤ 8388607 → r'.x.toInt = sum) ∧
        (i0.2.2.2.2.getLsbD 5 = true → k.preKeep = true → k.satEn = true → 8388607 < sum → r'.x.toInt = 8388607) ∧
        (i0.2.2.2.2.getLsbD 5 = true → k.preKeep = true → k.satEn = true → sum < -8388608 → r'.x.toInt = -8388608) ∧
        (i0.2.2.2.2.getLsbD 5 = true → k.preKeep = true → k.satEn = false → r'.x = BitVec.ofInt 24 sum) ∧
        r'.m.toInt = i1.1.toInt * i1.2.1.toInt ∧
        r'.p = BitVec.ofInt 64 exact ∧
        (r'.wrap = true ↔ (r.wrap = true ∧ i2.2.2.getLsbD 1 = false) ∨ exact < -9223372036854775808 ∨ 9223372036854775807 < exact) ∧
        (-lim ≤ v → v < lim → r'.q = BitVec.ofInt 48 v ∧ r'.ovfNow = false) ∧
        (lim ≤ v → r'.ovfNow = true ∧ (k.satEn = true → r'.q = BitVec.ofInt 48 (lim - 1))) ∧
        (v < -lim → r'.ovfNow = true ∧ (k.satEn = true → r'.q = BitVec.ofInt 48 (-lim))) ∧
        (v < -lim ∨ lim ≤ v → k.satEn = false → r'.q = BitVec.ofInt 48 (BitVec.ofInt k.outWidth v).toInt) ∧
        (r'.ovf = true ↔ (r.ovf = true ∧ i2.2.2.getLsbD 1 = false) ∨ preOvf = true ∨ r'.ovfNow = true) ∧
        r'.lsc = lscOf k r.q))

/-- R79, R80, R82. An edge with RST = 1 clears A, B, D, the pre-adder, M, P and Q, OVF, WRAP and LSC whether CE is 0 or 1; C and OPMODE load where CE is 1 and hold
where it is 0; RST of slice 0 sets CEXP to 47. At an edge of slice 0 with CE = 1 an enabled unit loads the minimum of the selected LSC values, in RUN mode without CEXP_START no more than the
present CEXP. A slice whose clock does not run does nothing. (That the RST is slice 0's, and acts while CEXP_EN is 1: log 131.) -/
def Obligations.SliceResetAndColumnExponent : Prop :=
  ∀ (sl : SliceId) (n : SliceIn) (s : State),
    let r := s.slice sl.no
    let k := s.colAttr sl.colNo
    (s.sliceUp sl = false → exec (.sliceReset sl n) s = .next s) ∧
    (s.sliceUp sl = true →
    (∃ t, exec (.sliceReset sl n) s = .next t ∧ { t with fab := s.fab } = s ∧ (∀ j, j ≠ sl.no → t.slice j = s.slice j) ∧
      (let r' := t.slice sl.no
       r'.a = 0 ∧ r'.b = 0 ∧ r'.d = 0 ∧ r'.x = 0 ∧ r'.b1 = 0 ∧ r'.m = 0 ∧ r'.p = 0 ∧ r'.q = 0 ∧ r'.ovfNow = false ∧ r'.ovf = false ∧ r'.wrap = false ∧ r'.lsc = 0 ∧
       (n.ce = true → r'.c0 = n.c ∧ r'.op0 = n.op) ∧ (n.ce = false → r'.c0 = r.c0 ∧ r'.op0 = r.op0 ∧ r'.c2 = r.c2 ∧ r'.op2 = r.op2)) ∧
      (sl.j.val = 0 → k.cexpEn = true → t.cexp sl.colNo = 47) ∧
      (¬(sl.j.val = 0 ∧ k.cexpEn = true) → t.fab.cexp = s.fab.cexp)) ∧
    (sl.j.val = 0 → k.cexpEn = true → n.ce = true → ∃ t, exec (.sliceOperation sl n) s = .next t ∧
      let lsc : Nat → Nat := fun j => if j = 0 then (s.slice (sl.colNo * 16)).lsc else (s.slice (sl.colNo * 16 + j)).lscPrev
      let c := t.cexp sl.colNo
      (∀ j < 16, k.mask.getLsbD j = true → c ≤ lsc j) ∧ c ≤ 47 ∧
      (k.run = true → n.cexpStart = false → c ≤ s.cexp sl.colNo) ∧
      (c = 47 ∨ (∃ j < 16, k.mask.getLsbD j = true ∧ c = lsc j) ∨ (k.run = true ∧ n.cexpStart = false ∧ c = s.cexp sl.colNo))))

/-- R99, Table 04.5: what ADD, SUB, AND, OR, XOR, SHL, SHR, SRA, MUL, ADDI, MOVI and MOVH write: one S register; every operand is what the bundle read. -/
def Obligations.ScalarArithmetic : Prop :=
  (∀ (x : Issue) (f : FmtR),
    (SlotWrites (.add x f) x [0] 0x01 f.enc fun c n => n.setS f.d.toNat (c.sVal f.a.toNat + c.sVal f.b.toNat)) ∧
    (SlotWrites (.sub x f) x [0] 0x02 f.enc fun c n => n.setS f.d.toNat (c.sVal f.a.toNat - c.sVal f.b.toNat)) ∧
    (SlotWrites (.andR x f) x [0] 0x03 f.enc fun c n => n.setS f.d.toNat (c.sVal f.a.toNat &&& c.sVal f.b.toNat)) ∧
    (SlotWrites (.orR x f) x [0] 0x04 f.enc fun c n => n.setS f.d.toNat (c.sVal f.a.toNat ||| c.sVal f.b.toNat)) ∧
    (SlotWrites (.xorR x f) x [0] 0x05 f.enc fun c n => n.setS f.d.toNat (c.sVal f.a.toNat ^^^ c.sVal f.b.toNat)) ∧
    (SlotWrites (.shl x f) x [0] 0x06 f.enc fun c n => n.setS f.d.toNat (c.sVal f.a.toNat <<< ((c.sVal f.b.toNat).toNat % 32))) ∧
    (SlotWrites (.shr x f) x [0] 0x07 f.enc fun c n => n.setS f.d.toNat (c.sVal f.a.toNat >>> ((c.sVal f.b.toNat).toNat % 32))) ∧
    (SlotWrites (.sra x f) x [0] 0x08 f.enc fun c n => n.setS f.d.toNat ((c.sVal f.a.toNat).sshiftRight ((c.sVal f.b.toNat).toNat % 32))) ∧
    (SlotWrites (.mul x f) x [0] 0x09 f.enc fun c n => n.setS f.d.toNat (c.sVal f.a.toNat * c.sVal f.b.toNat))) ∧
  (∀ (x : Issue) (f : FmtI),
    (SlotWrites (.addi x f) x [0] 0x0A f.enc fun c n => n.setS f.d.toNat (c.sVal f.a.toNat + f.imm.signExtend 32))) ∧
  (∀ (x : Issue) (f : FmtL),
    (SlotWrites (.movi x f) x [0] 0x0B f.enc fun _ n => n.setS f.d.toNat (f.imm.signExtend 32)) ∧
    (SlotWrites (.movh x f) x [0] 0x0C f.enc fun c n => n.setS f.d.toNat (withField (c.sVal f.d.toNat) 16 16 (f.imm.toNat % 2 ^ 16))))

/-- R99 (Table 04.5), R88 to R90, R114: what CMP, POP, SETE, EADD, EMIN, MFE, MTE, SETBX and CLRRB write, and MFSR and MTSR of a special register: EADD and MTE clamp to −128..+127 and set STAT.ARG (bit 3) where they clamp; a write of a read-only or unlisted number, or of a BLK outside its set, leaves every register and sets STAT.ARG. -/
def Obligations.PredicatesAndExponents : Prop :=
  (∀ (x : Issue) (f : FmtR),
    (SlotWrites (.cmp x f) x [0] 0x0D f.enc fun c n => n.setPPhys (c.pPhys f.d.toNat) (cmpCond f.f.toNat (c.sVal f.a.toNat) (c.sVal f.b.toNat))) ∧
    (SlotWrites (.pop x f) x [0] 0x0E f.enc fun c n => n.setPPhys (c.pPhys f.d.toNat) (if f.f = 0 then c.pVal f.a.toNat && c.pVal f.b.toNat else if f.f = 1 then c.pVal f.a.toNat || c.pVal f.b.toNat else if f.f = 2 then c.pVal f.a.toNat && !c.pVal f.b.toNat else f.f == 3)) ∧
    (SlotWrites (.emin x f) x [0] 0x11 f.enc fun c n => n.setE f.d.toNat (if (c.eVal f.b.toNat).toInt < (c.eVal f.a.toNat).toInt then c.eVal f.b.toNat else c.eVal f.a.toNat)) ∧
    (SlotWrites (.mfe x f) x [0] 0x12 f.enc fun c n => n.setS f.d.toNat ((c.eVal f.a.toNat).signExtend 32)) ∧
    (SlotWrites (.mte x f) x [0] 0x13 f.enc fun c n => if -128 ≤ (c.sVal f.a.toNat).toInt ∧ (c.sVal f.a.toNat).toInt ≤ 127 then n.setE f.d.toNat ((c.sVal f.a.toNat).setWidth 8) else (n.setE f.d.toNat (if (c.sVal f.a.toNat).toInt < 0 then 0x80 else 0x7F)).flag 3 true) ∧
    (SlotWrites (.setbx x f) x [0] 0x16 f.enc fun c n => n.setSr (0x0B + f.d.toNat % 2) (withField (n.srVal (0x0B + f.d.toNat % 2)) 8 8 (c.eVal f.a.toNat).toNat)) ∧
    (SlotWrites (.clrrb x f) x [0] 0x1E f.enc fun _ n => n.setSr 0x02 0)) ∧
  (∀ (x : Issue) (f : FmtI),
    (SlotWrites (.sete x f) x [0] 0x0F f.enc fun _ n => n.setE f.d.toNat (BitVec.ofInt 8 f.imm.toInt)) ∧
    (SlotWrites (.eadd x f) x [0] 0x10 f.enc fun c n => if -128 ≤ (c.eVal f.a.toNat).toInt + f.imm.toInt ∧ (c.eVal f.a.toNat).toInt + f.imm.toInt ≤ 127 then n.setE f.d.toNat (BitVec.ofInt 8 ((c.eVal f.a.toNat).toInt + f.imm.toInt)) else (n.setE f.d.toNat (if (c.eVal f.a.toNat).toInt + f.imm.toInt < 0 then 0x80 else 0x7F)).flag 3 true)) ∧
  (∀ (x : Issue) (f : FmtI),
    SlotDoes (.mfsr x f) x [0] 0x14 f.enc fun s =>
      let v := if f.imm = 0x08 then (s.eng x.eng).core.predView else if f.imm = 0x13 then BitVec.ofNat 32 (x.eng.val / 4 * 256 + x.eng.val)
        else if f.imm.toNat ≤ 0x12 then (s.eng x.eng).core.srVal f.imm.toNat else 0
      s.setEng x.eng { s.eng x.eng with next := (s.eng x.eng).next.setS f.d.toNat v }) ∧
  (∀ (x : Issue) (f : FmtI),
    SlotDoes (.mtsr x f) x [0] 0x15 f.enc fun s =>
      let g := s.eng x.eng
      let v := g.core.sVal f.a.toNat
      if f.imm.toNat ∈ [0x00, 0x01, 0x02, 0x08, 0x0B, 0x0C, 0x0F, 0x10, 0x11] ∨ (f.imm.toNat ∈ [0x09, 0x0A] ∧ blkOk v = true) then
        s.setEng x.eng { g with next := g.next.srWrite f.imm.toNat v, srW := f.imm.toNat :: g.srW }
      else s.setEng x.eng { g with next := g.next.flag 3 true })

/-- R96, R99 (Table 04.5), R115 to R117. NOP has no effect; BR, CALL and RET note the branch that the end of the bundle takes, CALL with S31 = the next bundle; LOOP and LOOPR with a count of 0 go on after the body, else write LC and, for LOOPR, SG and the stage predicates; a loop inside two levels or inside a rotating one stops the engine with LOOPNEST; HALT halts after the bundle. -/
def Obligations.ControlFlow : Prop :=
  (∀ (x : Issue) (s : State) (body : BitVec 22), SlotReady s x [0, 1, 2, 3] 0 body → SlotOpen s x → exec (.nop x) s = .next ((fetched s x).slotDone x.eng x.slot)) ∧
  (∀ (x : Issue) (f : FmtB),
    SlotDoes (.br x f) x [0] 0x18 f.enc (fun s => s.setEng x.eng { s.eng x.eng with branch := some f.target.toNat }) ∧
    SlotDoes (.call x f) x [0] 0x19 f.enc fun s =>
      let t := s.setEng x.eng { s.eng x.eng with next := (s.eng x.eng).next.setS 31 (BitVec.ofNat 32 (s.engPc x.eng + 1)) }
      t.setEng x.eng { t.eng x.eng with branch := some f.target.toNat }) ∧
  (∀ (x : Issue) (f : FmtR),
    SlotDoes (.ret x f) x [0] 0x1A f.enc (fun s => s.setEng x.eng { s.eng x.eng with branch := some (((s.eng x.eng).core.sVal 31).toNat % 4096) }) ∧
    SlotDoes (.halt x f) x [0] 0x1F f.enc fun s => s.setEng x.eng { s.eng x.eng with haltAfter := true }) ∧
  (∀ (x : Issue) (f : FmtP) (s : State),
    let g := (fetched s x).eng x.eng
    let pc := (fetched s x).engPc x.eng
    let level := if g.core.lv0 = none then 0x03 else 0x04
    let scount := (g.core.sVal (fieldOf f.count 7 5)).toNat
    let count := if f.i = 1 then f.count.toNat else scount
    let free := (g.core.lv0 = none ∨ (g.core.lv0 = some false ∧ g.core.lv1 = none)) ∧ g.core.lv1 ≠ some true
    (SlotReady s x [0] 0x1C f.enc → SlotOpen s x →
      exec (.loop x f) s = .next (
        if ¬ free then (fetched s x).engStop x.eng 6
        else if count = 0 then ((fetched s x).setEng x.eng { g with skip := some (pc + 1 + (f.len.toNat + 1)) }).slotDone x.eng x.slot
        else ((fetched s x).setEng x.eng { g with
          next := g.next.setSr level (BitVec.ofNat 32 (count - 1)), loopStart := some (false, pc + 1, pc + (f.len.toNat + 1)) }).slotDone x.eng x.slot)) ∧
    (SlotReady s x [0] 0x1D f.enc → SlotOpen s x →
      exec (.loopr x f) s = .next (
        if ¬ free then (fetched s x).engStop x.eng 6
        else if scount = 0 then ((fetched s x).setEng x.eng { g with skip := some (pc + 1 + (f.len.toNat + 1)) }).slotDone x.eng x.slot
        else ((fetched s x).setEng x.eng { g with
          next := (List.range 8).foldl (fun n p => n.setPPhys (g.core.pPhys p) (p == 0))
            ((g.next.setSr level (BitVec.ofNat 32 (scount - 1))).setSr 0x05 (BitVec.ofNat 32 (fieldOf f.count 4 3))),
          loopStart := some (true, pc + 1, pc + (f.len.toNat + 1)) }).slotDone x.eng x.slot)))

/-- R91, R93, R95, R100 (Table 04.6). The address is Sa + off × 64 (VLD, VST), Sa (VLDI, VSTI, which also write Sa + off × 64 to the base) or Sa + off × 4 (LDW, STW), modulo 2^32. A misaligned access stops the engine with ALIGN (3), an unmapped address with ADDR (2), and nothing of the instruction happens. A load takes what the memory reads, and a word that cannot be corrected leaves the destination and marks the bundle for MEMERR; a store is noted and performed when the bundle ends. -/
def Obligations.LoadsAndStores : Prop :=
  ∀ (x : Issue) (f : FmtM) (s : State), SlotOpen s x →
    let u := fetched s x
    let g := u.eng x.eng
    let addr : Int → Nat := fun unit => (g.core.sVal f.base.toNat + BitVec.ofInt 32 (f.off.toInt * unit)).toNat
    let base : Nat := (g.core.sVal f.base.toNat).toNat
    (SlotReady s x [1, 2] 0x01 f.enc →
      (addr 64 % 64 ≠ 0 → exec (.vld x f) s = .next (u.engStop x.eng 3)) ∧
      (addr 64 % 64 = 0 → engMem x.eng (addr 64) = none → exec (.vld x f) s = .next (u.engStop x.eng 2)) ∧
      (addr 64 % 64 = 0 → engMem x.eng (addr 64) ≠ none → exec (.vld x f) s = .next ((loadVector x.eng f.v.toNat (addr 64) u).slotDone x.eng x.slot))) ∧
    (SlotReady s x [1, 2] 0x02 f.enc →
      (base % 64 ≠ 0 → exec (.vldi x f) s = .next (u.engStop x.eng 3)) ∧
      (base % 64 = 0 → engMem x.eng (base) = none → exec (.vldi x f) s = .next (u.engStop x.eng 2)) ∧
      (base % 64 = 0 → engMem x.eng (base) ≠ none → exec (.vldi x f) s = .next ((let t := loadVector x.eng f.v.toNat base u; t.setEng x.eng { t.eng x.eng with next := (t.eng x.eng).next.setS f.base.toNat (BitVec.ofNat 32 (addr 64)) }).slotDone x.eng x.slot))) ∧
    (SlotReady s x [1, 2] 0x03 f.enc →
      (addr 64 % 64 ≠ 0 → exec (.vst x f) s = .next (u.engStop x.eng 3)) ∧
      (addr 64 % 64 = 0 → engMem x.eng (addr 64) = none → exec (.vst x f) s = .next (u.engStop x.eng 2)) ∧
      (addr 64 % 64 = 0 → engMem x.eng (addr 64) ≠ none → exec (.vst x f) s = .next ((u.setEng x.eng { g with stores := g.stores ++ [⟨addr 64, true, g.core.vVal f.v.toNat⟩] }).slotDone x.eng x.slot))) ∧
    (SlotReady s x [1, 2] 0x04 f.enc →
      (base % 64 ≠ 0 → exec (.vsti x f) s = .next (u.engStop x.eng 3)) ∧
      (base % 64 = 0 → engMem x.eng (base) = none → exec (.vsti x f) s = .next (u.engStop x.eng 2)) ∧
      (base % 64 = 0 → engMem x.eng (base) ≠ none → exec (.vsti x f) s = .next ((let t := u.setEng x.eng { g with stores := g.stores ++ [⟨base, true, g.core.vVal f.v.toNat⟩] }; t.setEng x.eng { t.eng x.eng with next := (t.eng x.eng).next.setS f.base.toNat (BitVec.ofNat 32 (addr 64)) }).slotDone x.eng x.slot))) ∧
    (SlotReady s x [1, 2] 0x06 f.enc →
      (addr 4 % 4 ≠ 0 → exec (.stw x f) s = .next (u.engStop x.eng 3)) ∧
      (addr 4 % 4 = 0 → engMem x.eng (addr 4) = none → exec (.stw x f) s = .next (u.engStop x.eng 2)) ∧
      (addr 4 % 4 = 0 → engMem x.eng (addr 4) ≠ none → exec (.stw x f) s = .next ((u.setEng x.eng { g with stores := g.stores ++ [⟨addr 4, false, (g.core.sVal f.v.toNat).setWidth 512⟩] }).slotDone x.eng x.slot))) ∧
    (SlotReady s x [1, 2] 0x05 f.enc →
      (addr 4 % 4 ≠ 0 → exec (.ldw x f) s = .next (u.engStop x.eng 3)) ∧
      (addr 4 % 4 = 0 → engMem x.eng (addr 4) = none → exec (.ldw x f) s = .next (u.engStop x.eng 2)) ∧
      (∀ m off, addr 4 % 4 = 0 → engMem x.eng (addr 4) = some (m, off) →
        let r := u.memRead m (off / 8)
        (∀ d, r.1 = some d → exec (.ldw x f) s = .next ((r.2.setEng x.eng { r.2.eng x.eng with
          next := (r.2.eng x.eng).next.setS f.v.toNat (BitVec.ofNat 32 (fieldOf d (32 * (off / 4 % 2)) 32)) }).slotDone x.eng x.slot)) ∧
        (r.1 = none → exec (.ldw x f) s = .next ((r.2.setEng x.eng { r.2.eng x.eng with memErr := true }).slotDone x.eng x.slot))))

/-- R91, R524. The map of engine addresses; a correct word is read as it is and nothing changes; a word with a correctable error reads corrected and its write-back is noted, outside raw mode; a word that cannot be corrected gives none; a whole word is stored with valid check bits whatever it held, a part is merged into the corrected word, and a part of a word that cannot be corrected is not stored; no other word of any memory of an engine or lantern changes. -/
def Obligations.EngineMemoryAccess : Prop :=
  (∀ (e : Fin 96) (a : Nat),
    engMem e a = (if a < 0x40000 then some (.data e, a) else if 0x100000 ≤ a ∧ a < 0x200000 then some (.lan ⟨e.val / 4, by omega⟩, a - 0x100000) else none)) ∧
  (∀ (s : State) (m : LanMem) (i : Nat) (d : DWord) (be : Nat),
    let w := s.memWord m i
    let words : LanMem → Nat := fun m => match m with | .lan _ => 131072 | _ => 32768
    (w.decode = .clean → s.memRead m i = (some w.data, s)) ∧
    (∀ c, w.decode = .corrected c → (s.memRead m i).1 = some (BitVec.ofNat 64 c) ∧
      (∀ m' i', (s.memRead m i).2.memWord m' i' = s.memWord m' i')) ∧
    (w.decode = .uncorrectable → s.memRead m i = (none, s)) ∧
    ((∀ e, m ≠ .prog e) → i < words m → 0 < be → be < 256 →
      (be = 255 → s.memWrite m i be d = (true, s.setMemWord m i (.ok d))) ∧
      (be ≠ 255 → w.decode = .uncorrectable → s.memWrite m i be d = (false, s)) ∧
      (be ≠ 255 → w.decode = .clean → s.memWrite m i be d = (true, s.setMemWord m i (.ok (mergeLanes 8 8 be w.data d)))) ∧
      ((s.memWrite m i be d).1 = true → ((s.memWrite m i be d).2.memWord m i).syn = 0) ∧
      (∀ m' i', i' < words m' → (∀ e, m' ≠ .prog e) → (m' ≠ m ∨ i' ≠ i) → (s.memWrite m i be d).2.memWord m' i' = s.memWord m' i')))

/-- R106, R108, R109. SIN takes the beat at the head of INk (return slots first) and its sideband; SOUT sends Vv; SHIFTIN issues without waiting; when its last beat has arrived the window moves by b and SBIk takes the last sideband in one step; a beat of the fabric enters a FIFO of 64; the fabric takes the oldest beat of OUTk. -/
def Obligations.StreamInstructions : Prop :=
  (∀ (x : Issue) (f : FmtT) (s : State), SlotOpen s x →
    let u := fetched s x
    let g := u.eng x.eng
    let k := f.k.toNat
    (SlotReady s x [2] 0x10 f.enc →
      ∀ bt, g.inHead k = some bt → exec (.sin x f) s = .next ((u.setEng x.eng { g with
        next := (g.next.setVPhys (g.core.vPhys f.v.toNat) bt.data).setSr (0x0D + k) (bt.sb.setWidth 32), pops := g.pops ++ [k] }).slotDone x.eng x.slot)) ∧
    (SlotReady s x [2] 0x11 f.enc →
      exec (.sout x f) s = .next ((sendBeat x.eng k (g.core.vVal f.v.toNat) u).slotDone x.eng x.slot)) ∧
    (SlotReady s x [2] 0x12 f.enc →
      exec (.shiftin x f) s = .next ((u.setEng x.eng { g with shiftStart := some ⟨f.v.toNat, k, f.n1.toNat + 1, f.b1.toNat + 1,
        (List.range (f.n1.toNat + 1)).map (fun j => g.core.vPhys (f.v.toNat + j)), []⟩ }).slotDone x.eng x.slot))) ∧
  (∀ (e : Fin 96) (s : State) (sh : Shift), (s.eng e).shift = some sh → sh.beats.length = sh.b → s.engState e ≠ 0 →
    sh.window.length = sh.n → sh.b ≤ sh.n → sh.window.Nodup →
    ∃ t, exec (.shiftinWindowUpdate e) s = .next t ∧ { t with engs := s.engs } = s ∧ (t.eng e).shift = none ∧
      (∀ j < sh.n - sh.b, ∀ r q, sh.window[j]? = some r → sh.window[j + sh.b]? = some q → mgetD 0 (t.eng e).core.v r = mgetD 0 (s.eng e).core.v q) ∧
      (∀ i < sh.b, ∀ r bt, sh.window[sh.n - sh.b + i]? = some r → sh.beats[i]? = some bt → mgetD 0 (t.eng e).core.v r = bt.data) ∧
      (∀ bt, sh.beats.getLast? = some bt → (t.eng e).core.srVal (0x0D + sh.k) = bt.sb.setWidth 32) ∧
      (∀ r, r ∉ sh.window → mgetD 0 (t.eng e).core.v r = mgetD 0 (s.eng e).core.v r) ∧
      (∀ e' : Fin 96, e' ≠ e → t.eng e' = s.eng e')) ∧
  (∀ (e : Fin 96) (k : Fin 2) (data : Line) (sb : BitVec 24) (s : State), s.engState e ≠ 0 → s.dieUp (e.val / 12) = true →
    let g := s.eng e
    (64 ≤ (if k = 0 then g.in0 else g.in1).length → exec (.inputBeat e k data sb) s = .next s) ∧
    ((if k = 0 then g.in0 else g.in1).length < 64 → exec (.inputBeat e k data sb) s =
      .next (s.setEng e ((if k = 0 then { g with in0 := g.in0 ++ [(⟨data, sb⟩ : Beat)] } else { g with in1 := g.in1 ++ [(⟨data, sb⟩ : Beat)] }).shiftTake 8)))) ∧
  (∀ (e : Fin 96) (k : Fin 2) (s : State), s.engState e ≠ 0 → s.dieUp (e.val / 12) = true →
    let g := s.eng e
    ((if k = 0 then g.out0 else g.out1) = [] → exec (.outputBeat e k) s = .next s) ∧
    (∀ b rest, (if k = 0 then g.out0 else g.out1) = b :: rest → exec (.outputBeat e k) s =
      .next ((s.setEng e (if k = 0 then { g with out0 := rest } else { g with out1 := rest })).emit (.beat e k b))))

/-- R90, R107, R108, R111, R112, R114, R134 (Table 04.8). USER and LAST come from SBOk as the bundle read it; outside block-floating-point mode EXP0, EXP1, BS0 and BS1 are 0; in it, at a block start (SCNT 0) BXC takes BXN as the bundle read it, SCNT counts the samples and returns to 0 at BLK, and the exponents of both halves are carried. Stated for the first beat of a bundle to a port whose special registers the bundle does not write. -/
def Obligations.BeatSideband : Prop :=
  ∀ (e : Fin 96) (k : Fin 2) (data : Line) (s : State),
    let g := s.eng e
    let c := g.core
    let cfg := c.srVal (0x09 + k.val)
    let bx := c.srVal (0x0B + k.val)
    let sbo := c.srVal (0x0F + k.val)
    let blk := fieldOf cfg 0 13
    let scnt := fieldOf bx 16 13
    let step : Nat → Nat := fun n => if n + 16 = blk then 0 else n + 16
    let exp0 := if scnt = 0 then fieldOf bx 8 8 else fieldOf bx 0 8
    let exp1 := if step scnt = 0 then fieldOf bx 8 8 else exp0
    let warm := if k = 0 then g.warm0 else g.warm1
    g.next = c → g.beats = [] → g.srW = [] →
    ∃ bt : Beat, ((sendBeat e k data s).eng e).beats = [(k.val, bt)] ∧ { sendBeat e k data s with engs := s.engs } = s ∧ bt.data = data ∧
      fieldOf bt.sb 0 4 = fieldOf sbo 0 4 ∧ bt.sb.getLsbD 4 = sbo.getLsbD 4 ∧
      bt.sb.getLsbD 7 = decide (warm < s.warmLen e k) ∧
      (cfg.getLsbD 31 = false → fieldOf bt.sb 8 16 = 0 ∧ fieldOf bt.sb 5 2 = 0 ∧
        ((sendBeat e k data s).eng e).next.srVal (0x0B + k.val) = bx) ∧
      (cfg.getLsbD 31 = true → scnt < blk → blk ≤ 4096 →
        fieldOf bt.sb 8 8 = exp0 ∧ fieldOf bt.sb 16 8 = exp1 ∧ bt.sb.getLsbD 5 = (scnt == 0) ∧ bt.sb.getLsbD 6 = (step scnt == 0) ∧
        fieldOf (((sendBeat e k data s).eng e).next.srVal (0x0B + k.val)) 16 13 = step (step scnt) ∧
        fieldOf (((sendBeat e k data s).eng e).next.srVal (0x0B + k.val)) 0 8 = exp1) ∧
      (((sendBeat e k data s).eng e).next.srVal (0x0F + k.val)).getLsbD 4 = false

/-- R101, R102 (Table 04.7): VADD, VSUB, VAND, VOR, VXOR, VMAX, VMIN, VSHL, VSRA, VMUL and VBCST write Vd element by element; VADD, VSUB, VSHL and VMUL narrow with OVF, SAT and SATCNT. Elements are those of VectorElements. -/
def Obligations.VectorArithmetic : Prop :=
  (∀ (x : Issue) (f : FmtV),
    (SlotWrites (.vadd x f) x [3] 0x01 f.enc fun c n => (fun r => (n.setVPhys (c.vPhys f.d.toNat) (vPack f.t r.elems)).narrowFlags r) (narrow (elemW f.t) (f.s == 1) (List.zipWith (· + ·) (vElems f.t (c.vVal f.a.toNat)) (vElems f.t (c.vVal f.b.toNat))))) ∧
    (SlotWrites (.vsub x f) x [3] 0x02 f.enc fun c n => (fun r => (n.setVPhys (c.vPhys f.d.toNat) (vPack f.t r.elems)).narrowFlags r) (narrow (elemW f.t) (f.s == 1) (List.zipWith (· - ·) (vElems f.t (c.vVal f.a.toNat)) (vElems f.t (c.vVal f.b.toNat))))) ∧
    (SlotWrites (.vand x f) x [3] 0x03 f.enc fun c n => n.setVPhys (c.vPhys f.d.toNat) (c.vVal f.a.toNat &&& c.vVal f.b.toNat)) ∧
    (SlotWrites (.vor x f) x [3] 0x04 f.enc fun c n => n.setVPhys (c.vPhys f.d.toNat) (c.vVal f.a.toNat ||| c.vVal f.b.toNat)) ∧
    (SlotWrites (.vxor x f) x [3] 0x05 f.enc fun c n => n.setVPhys (c.vPhys f.d.toNat) (c.vVal f.a.toNat ^^^ c.vVal f.b.toNat)) ∧
    (SlotWrites (.vmax x f) x [3] 0x06 f.enc fun c n => n.setVPhys (c.vPhys f.d.toNat) (vPack f.t (List.zipWith max (vElems f.t (c.vVal f.a.toNat)) (vElems f.t (c.vVal f.b.toNat))))) ∧
    (SlotWrites (.vmin x f) x [3] 0x07 f.enc fun c n => n.setVPhys (c.vPhys f.d.toNat) (vPack f.t (List.zipWith min (vElems f.t (c.vVal f.a.toNat)) (vElems f.t (c.vVal f.b.toNat))))) ∧
    (SlotWrites (.vshl x f) x [3] 0x08 f.enc fun c n => (fun r => (n.setVPhys (c.vPhys f.d.toNat) (vPack f.t r.elems)).narrowFlags r) (narrow (elemW f.t) (f.s == 1) ((vElems f.t (c.vVal f.a.toNat)).map fun y => y * 2 ^ f.b.toNat))) ∧
    (SlotWrites (.vsra x f) x [3] 0x09 f.enc fun c n => n.setVPhys (c.vPhys f.d.toNat) (vPack f.t ((vElems f.t (c.vVal f.a.toNat)).map fun y => y / 2 ^ f.b.toNat))) ∧
    (SlotWrites (.vmul x f) x [3] 0x0A f.enc fun c n => (fun r => (n.setVPhys (c.vPhys f.d.toNat) (vPack f.t r.elems)).narrowFlags r) (narrow (elemW f.t) (f.s == 1) (List.zipWith (fun a b => a * b / 2 ^ 15) (vElems 0 (c.vVal f.a.toNat)) (vElems 0 (c.vVal f.b.toNat))))) ∧
    (SlotWrites (.vbcst x f) x [3] 0x0B f.enc fun c n => n.setVPhys (c.vPhys f.d.toNat) (vPack f.t (List.replicate (512 / elemW f.t) (c.sVal f.a.toNat).toInt))))

/-- R101 to R105 (Table 04.7), R112, R113: VEXP, AEXP, VSCALE, VMAC, VMPY, VMSUB, VMACB, VFIR, ASET, VNORM and ACCOUT. Sums are exact and taken modulo 2^48, AWRAP (bit 2) where one leaves the range. VNORM with d = b writes a free value (log 14). In block-floating-point mode each half is shifted by sh − BXC clamped to 0 to 47 (ARG where clamped) and saturates. -/
def Obligations.ExponentsAndMac : Prop :=
  (∀ (x : Issue) (f : FmtV),
    (SlotWrites (.vexp x f) x [3] 0x0D f.enc fun c n => n.setE f.d.toNat (BitVec.ofInt 8 (if f.s = 1 then min (minLsCount (elemW f.t) (vElems f.t (c.vVal f.a.toNat)) : Int) (c.eVal f.d.toNat).toInt else (minLsCount (elemW f.t) (vElems f.t (c.vVal f.a.toNat)) : Int)))) ∧
    (SlotWrites (.aexp x f) x [3] 0x0E f.enc fun c n => n.setE f.d.toNat (BitVec.ofInt 8 (if f.s = 1 then min (minLsCount 48 (aElems (c.aVal f.a.toNat)) : Int) (c.eVal f.d.toNat).toInt else (minLsCount 48 (aElems (c.aVal f.a.toNat)) : Int)))) ∧
    (SlotWrites (.vscale x f) x [3] 0x0F f.enc fun c n => (fun r => (n.setVPhys (c.vPhys f.d.toNat) (vPack f.t r.elems)).narrowFlags r) (narrow (elemW f.t) (f.s == 1) ((vElems f.t (c.vVal f.a.toNat)).map fun y => if 0 ≤ (c.eVal f.b.toNat).toInt then y * 2 ^ (c.eVal f.b.toNat).toInt.toNat else y / 2 ^ (-(c.eVal f.b.toNat).toInt).toNat))) ∧
    (SlotWrites (.aset x f) x [3] 0x15 f.enc fun c n => n.setA f.d.toNat (aPack (List.replicate 32 (c.sVal f.a.toNat).toInt)))) ∧
  (∀ (x : Issue) (f : FmtK),
    (SlotWrites (.vmac x f) x [3] 0x10 f.enc fun c n => (fun r => (n.setA f.ad.toNat (aPack (r.map fun y => (BitVec.ofInt 48 y).toInt))).flag 2 (r.any fun y => !fitsInt 48 y)) (List.zipWith (· + ·) (aElems (c.aVal f.ad.toNat)) (List.zipWith (· * ·) (vElems 0 (c.vVal f.a.toNat)) (vElems 0 (c.vVal f.b.toNat))))) ∧
    (SlotWrites (.vmpy x f) x [3] 0x11 f.enc fun c n => (fun r => (n.setA f.ad.toNat (aPack (r.map fun y => (BitVec.ofInt 48 y).toInt))).flag 2 (r.any fun y => !fitsInt 48 y)) (List.zipWith (· * ·) (vElems 0 (c.vVal f.a.toNat)) (vElems 0 (c.vVal f.b.toNat)))) ∧
    (SlotWrites (.vmsub x f) x [3] 0x12 f.enc fun c n => (fun r => (n.setA f.ad.toNat (aPack (r.map fun y => (BitVec.ofInt 48 y).toInt))).flag 2 (r.any fun y => !fitsInt 48 y)) (List.zipWith (· - ·) (aElems (c.aVal f.ad.toNat)) (List.zipWith (· * ·) (vElems 0 (c.vVal f.a.toNat)) (vElems 0 (c.vVal f.b.toNat))))) ∧
    (SlotWrites (.vmacb x f) x [3] 0x13 f.enc fun c n => (fun r => (n.setA f.ad.toNat (aPack (r.map fun y => (BitVec.ofInt 48 y).toInt))).flag 2 (r.any fun y => !fitsInt 48 y)) (List.zipWith (fun a v => a + v * ((vElems 0 (c.vVal f.b.toNat)).getD f.k.toNat 0)) (aElems (c.aVal f.ad.toNat)) (vElems 0 (c.vVal f.a.toNat)))) ∧
    (SlotWrites (.vfir x f) x [3] 0x14 f.enc fun c n => (fun r => (n.setA f.ad.toNat (aPack (r.map fun y => (BitVec.ofInt 48 y).toInt))).flag 2 (r.any fun y => !fitsInt 48 y)) (List.zipWith (fun a i => a + ((vElems 0 (c.vVal f.b.toNat)).getD f.k.toNat 0) * (vElems 0 (c.vVal f.a.toNat) ++ vElems 0 (c.vVal (f.a.toNat + 1))).getD (32 + i - f.k.toNat) 0) (aElems (c.aVal f.ad.toNat)) (List.range 32)))) ∧
  (∀ (x : Issue) (f : FmtV),
    SlotDoes (.vnorm x f) x [3] 0x0C f.enc fun s =>
      let g := s.eng x.eng
      let l := vElems f.t (g.core.vVal f.a.toNat)
      if f.d = f.b then (s.setEng x.eng { g with next := g.next.setVPhys (g.core.vPhys f.d.toNat) s.freeLine }).useFree
      else s.setEng x.eng { g with next := (g.next.setVPhys (g.core.vPhys f.b.toNat) (vPack f.t (l.map fun y => (lsCount (elemW f.t) y : Int)))).setVPhys (g.core.vPhys f.d.toNat) (vPack f.t (l.map fun y => y * 2 ^ lsCount (elemW f.t) y)) }) ∧
  (∀ (x : Issue) (f : FmtN) (s : State), SlotReady s x [3] 0x16 f.enc → SlotOpen s x →
    let u := fetched s x
    let g := u.eng x.eng
    let l := aElems (g.core.aVal f.aa.toNat)
    let k := f.d.toNat % 2
    let cut : List Int → Nat → Bool → Narrowed := fun l t sat => narrow 16 sat (l.map fun y => y / 2 ^ t)
    let clamp : Byte → Nat := fun e => if (f.sh.toNat : Int) - e.toInt < 0 then 0 else if 47 < (f.sh.toNat : Int) - e.toInt then 47 else ((f.sh.toNat : Int) - e.toInt).toNat
    let clamped : Byte → Bool := fun e => decide ((f.sh.toNat : Int) - e.toInt < 0 ∨ 47 < (f.sh.toNat : Int) - e.toInt)
    let b := portBlock g k
    (f.o = 0 → exec (.accout x f) s = .next ((u.setEng x.eng { g with next := (g.next.setVPhys (g.core.vPhys f.d.toNat) (pack 512 16 (cut l f.sh.toNat (f.s == 1)).elems)).narrowFlags (cut l f.sh.toNat (f.s == 1)) }).slotDone x.eng x.slot)) ∧
    (f.o = 1 → b.en = false →
      exec (.accout x f) s = .next ((sendBeat x.eng k (pack 512 16 (cut l f.sh.toNat (f.s == 1)).elems)
        (u.setEng x.eng { g with next := g.next.narrowFlags (cut l f.sh.toNat (f.s == 1)) })).slotDone x.eng x.slot)) ∧
    (f.o = 1 → b.en = true →
      let e0 := if b.scnt = 0 then b.bxn else b.bxc
      let e1 := if b.scnt + 16 = b.blk then b.bxn else e0
      let r0 := cut (l.take 16) (clamp e0) true
      let r1 := cut (l.drop 16) (clamp e1) true
      exec (.accout x f) s = .next ((sendBeat x.eng k (pack 512 16 (r0.elems ++ r1.elems))
        (u.setEng x.eng { g with next := ((g.next.narrowFlags r0).narrowFlags r1).flag 3 (clamped e0 || clamped e1) })).slotDone x.eng x.slot)))

/-- R86, R102, R105. A register put together from elements has those elements in their places, each taken modulo 2^w; narrowing keeps what fits, takes the nearer limit or the low bits, and counts; the leading-sign count of a value is the largest shift that keeps it in its width. -/
def Obligations.VectorElements : Prop :=
  (∀ (t : BitVec 1) (l : List Int), l.length = 512 / elemW t → vElems t (vPack t l) = l.map fun y => (BitVec.ofInt (elemW t) y).toInt) ∧
  (∀ l : List Int, l.length = 32 → aElems (aPack l) = l.map fun y => (BitVec.ofInt 48 y).toInt) ∧
  (∀ (t : BitVec 1) (v : Line) (i : Nat), i < 512 / elemW t →
    (vElems t v)[i]? = some (BitVec.ofNat (elemW t) (v.toNat / 2 ^ (elemW t * i))).toInt) ∧
  (∀ (w : Nat) (sat : Bool) (l : List Int) (i : Nat) (y : Int), 0 < w → l[i]? = some y →
    let r := narrow w sat l
    r.elems[i]? = some (if -(2 : Int) ^ (w - 1) ≤ y ∧ y < (2 : Int) ^ (w - 1) then y
      else if sat then (if y < 0 then -(2 : Int) ^ (w - 1) else (2 : Int) ^ (w - 1) - 1) else (BitVec.ofInt w y).toInt) ∧
    r.ovf = (l.filter fun z => decide (z < -(2 : Int) ^ (w - 1) ∨ (2 : Int) ^ (w - 1) ≤ z)).length ∧ r.sat = (if sat then r.ovf else 0)) ∧
  (∀ (w : Nat) (y : Int), 0 < w → -(2 : Int) ^ (w - 1) ≤ y → y < (2 : Int) ^ (w - 1) →
    lsCount w y ≤ w - 1 ∧ -(2 : Int) ^ (w - 1) ≤ y * 2 ^ lsCount w y ∧ y * 2 ^ lsCount w y < (2 : Int) ^ (w - 1) ∧
      ((y = 0 ∨ y = -1) → lsCount w y = w - 1) ∧
      (y ≠ 0 → y ≠ -1 → ¬ (-(2 : Int) ^ (w - 1) ≤ y * 2 ^ (lsCount w y + 1) ∧ y * 2 ^ (lsCount w y + 1) < (2 : Int) ^ (w - 1))))

/-- R92, R94 to R97, R108, R131. For every slot instruction: nothing happens while its engine does not issue, another slot is due, or the slot is none of the instruction's own; a bundle that is held for a ring access begins a cycle later; one that stalls waits with nothing read; with G = 1 and its predicate 0 the slot is done without any effect of the instruction; a bundle that fails the checks of R95 stops the engine with ILLEGAL, an uncorrectable fetch with FETCHERR, and no slot takes effect. -/
def Obligations.SlotSkippedAndRefused : Prop :=
  ∀ (i : Instr) (x : Issue) (slots : List Nat) (op : BitVec 6) (body : BitVec 22) (s : State), slotOf i = some (x, slots, op, body) →
    (s.engIssues x.eng = false ∨ (s.eng x.eng).slot ≠ x.slot.val ∨ x.slot.val ∉ slots → exec i s = .next s) ∧
    (SlotReady s x slots op body → x.guard = true → (s.eng x.eng).core.pVal x.pg.toNat = false → exec i s = .next ((fetched s x).slotDone x.eng x.slot)) ∧
    (s.engIssues x.eng = true → (s.eng x.eng).slot = x.slot.val → s.progSlot x.eng x.slot = slotWord op x.guard x.pg body → x.slot.val = 0 → x.slot.val ∈ slots →
      ((s.eng x.eng).hold = true → exec i s = .next (s.setEng x.eng { s.eng x.eng with hold := false })) ∧
      ((s.eng x.eng).hold = false → (s.fetchBundle x.eng).1 = none → s.bundleStalls x.eng = true → exec i s = .next s) ∧
      ((s.eng x.eng).hold = false → (s.eng x.eng).past = false →
      ((s.progWord x.eng (s.engPc x.eng)).decode = .uncorrectable → exec i s = .next (s.engFault x.eng 7 (s.engPc x.eng))) ∧
      ((s.progWord x.eng (s.engPc x.eng)).decode = .clean → legalBundle (s.progWord x.eng (s.engPc x.eng)).data = false →
        exec i s = .next (s.engFault x.eng 1 (s.engPc x.eng)))))

/-- R131, Table 05.3. A fault drops what the slots of the bundle have written, sets STATUS.FAULT and FAULT_PC, takes the engine to STOPPED unless a sync has reached it, raises PG_EVT.FAULT, counts in TRB0, and leaves the registers, streams and PC of the engine and every other engine. -/
def Obligations.EngineFault : Prop :=
  ∀ (e : Fin 96) (code pc : Nat) (s : State), code < 16 → pc < 4096 → s.lanOn (e.val / 4) = true →
    let t := s.engFault e code pc
    let pg := Pg.engCtl e
    t.engState e = (if s.engState e = 4 then 4 else 3) ∧ t.fld pg Fld.ENG_STATUS_FAULT = code ∧ t.fld pg Fld.ENG_FAULT_PC_FAULT_PC = pc ∧ t.engPc e = s.engPc e ∧
      t.fld pg Evt.ENG_FAULT = 1 ∧ (s.fld pg (Fld.PG_TRB_CNT 0) < 0xFFFF → t.fld pg (Fld.PG_TRB_CNT 0) = s.fld pg (Fld.PG_TRB_CNT 0) + 1) ∧
      (t.eng e).core = (s.eng e).core ∧ (t.eng e).next = (s.eng e).core ∧ (t.eng e).in0 = (s.eng e).in0 ∧ (t.eng e).out0 = (s.eng e).out0 ∧
      (∀ e' : Fin 96, e' ≠ e → t.eng e' = s.eng e') ∧ { t with regs := s.regs, engs := s.engs, out := s.out, msixPend := s.msixPend } = s

/-- R93, R96, R99. When slot 3 is done, what the slots wrote is taken over, PC moves to the next bundle, or to the target of a taken branch, or past a skipped loop body; past bundle 4,095 the engine is marked so that the next bundle stops with PCRANGE; a HALT instruction halts the engine. Stated for a bundle without stores, beats, stream pops, a starting loop or SHIFTIN, outside a loop level. -/
def Obligations.BundleEnd : Prop :=
  ∀ (x : Issue) (body : BitVec 22) (s : State), SlotReady s x [0, 1, 2, 3] 0 body → SlotOpen s x → x.slot.val = 3 → s.lanOn (x.eng.val / 4) = true →
    let g := s.eng x.eng
    g.stores = [] → g.beats = [] → g.pops = [] → g.loopStart = none → g.shiftStart = none → g.shift = none → g.memErr = false →
    g.next.lv0 = none → g.next.lv1 = none →
    ∃ t, exec (.nop x) s = .next t ∧ { t with regs := s.regs, engs := s.engs } = s ∧
      t.engPc x.eng = (match g.branch, g.skip with | some b, _ => b | none, some b => b | none, none => s.engPc x.eng + 1) % 4096 ∧
      (t.eng x.eng).core = g.next ∧ (t.eng x.eng).next = g.next ∧ (t.eng x.eng).slot = 0 ∧ (t.eng x.eng).branch = none ∧
      (g.branch = none → g.skip = none → (t.eng x.eng).past = decide (s.engPc x.eng = 4095)) ∧
      t.engState x.eng = (if g.haltAfter = true ∧ s.engState x.eng ≠ 4 then 1 else s.engState x.eng) ∧
      (∀ e' : Fin 96, e' ≠ x.eng → t.eng e' = s.eng e')

/-- R115, R116, R118. At the last bundle of a hardware level's body LC > 0 begins another pass and LC = 0 ends the level; level 1 is evaluated first. At the last bundle of a rotating body ROTB advances, then P0 is 1 and LC falls while LC > 0, else P0 is 0; the level ends with SG = 0 once P0 to P(SG) are all 0, else the body repeats. -/
def Obligations.LoopEnds : Prop :=
  (∀ (e : Fin 96) (s : State) (a : Nat),
    let g := s.eng e
    let c := g.core
    g.atEnd = some a →
    (c.lv1 = none → c.lv0 = some false → fieldOf (c.srVal 0x06) 16 12 = a →
      ∃ t, exec (.loopBodyEnd e) s = .next t ∧ { t with regs := s.regs, engs := s.engs } = s ∧ (t.eng e).atEnd = none ∧
        (c.srVal 0x03 ≠ 0 → t.engPc e = fieldOf (c.srVal 0x06) 0 12 ∧ (t.eng e).core = c.setSr 0x03 (c.srVal 0x03 - 1)) ∧
        (c.srVal 0x03 = 0 → t.engPc e = s.engPc e ∧ (t.eng e).core = { c with lv0 := none })) ∧
    (c.lv1 = some false → fieldOf (c.srVal 0x07) 16 12 = a →
      (c.srVal 0x04 ≠ 0 → ∃ t, exec (.loopBodyEnd e) s = .next t ∧ t.engPc e = fieldOf (c.srVal 0x07) 0 12 ∧
        (t.eng e).core = c.setSr 0x04 (c.srVal 0x04 - 1)) ∧
      (c.srVal 0x04 = 0 → c.lv0 = some false → fieldOf (c.srVal 0x06) 16 12 ≠ a → ∃ t, exec (.loopBodyEnd e) s = .next t ∧ t.engPc e = s.engPc e ∧
        (t.eng e).core = { c with lv1 := none }) ∧
      (c.srVal 0x04 = 0 → c.lv0 = some false → fieldOf (c.srVal 0x06) 16 12 = a → c.srVal 0x03 ≠ 0 →
        ∃ t, exec (.loopBodyEnd e) s = .next t ∧ t.engPc e = fieldOf (c.srVal 0x06) 0 12 ∧
          (t.eng e).core = ({ c with lv1 := none } : EngCore).setSr 0x03 (c.srVal 0x03 - 1)))) ∧
  (∀ (e : Fin 96) (s : State) (a : Nat),
    let g := s.eng e
    let c := g.core
    let turned := c.setSr 0x02 (BitVec.ofNat 32 (((c.srVal 0x02).toNat + 1) % 32))
    let fed := if c.srVal 0x03 ≠ 0 then (turned.setPPhys (turned.pPhys 0) true).setSr 0x03 (c.srVal 0x03 - 1) else turned.setPPhys (turned.pPhys 0) false
    g.atEnd = some a → c.lv1 = none → c.lv0 = some true → fieldOf (c.srVal 0x06) 16 12 = a → (c.srVal 0x02).toNat < 32 →
    ∃ t, exec (.rotatingPassEnd e) s = .next t ∧ { t with regs := s.regs, engs := s.engs } = s ∧ (t.eng e).atEnd = none ∧
      ((∀ p ≤ (c.srVal 0x05).toNat % 8, fed.pVal p = false) → t.engPc e = s.engPc e ∧ (t.eng e).core = { fed.setSr 0x05 0 with lv0 := none }) ∧
      ((∃ p ≤ (c.srVal 0x05).toNat % 8, fed.pVal p = true) → t.engPc e = fieldOf (c.srVal 0x06) 0 12 ∧ (t.eng e).core = fed))

/-- R122 (Table 05.2), R124 to R128. HALT takes a running engine to HALTING and is held in SYNCING; the halt is taken at a bundle boundary, with the end of a loop's body evaluated, and completes once no SHIFTIN waits; RESUME and STEP clear FAULT and run the engine, and a saved SHIFTIN is issued first; a step is complete with its bundle; a SHIFTIN whose last beat does not come is abandoned with its beats returned and its fields saved. None of these changes a register a program sees. -/
def Obligations.HaltResumeStep : Prop :=
  ∀ (a : Agent) (e : Fin 96) (s : State),
    let pg := Pg.engCtl e
    let g := s.eng e
    let only : State → Prop := fun t => { t with regs := s.regs, engs := s.engs } = s ∧ (∀ e' : Fin 96, e' ≠ e → t.eng e' = s.eng e') ∧
      (t.eng e).core = g.core ∧ t.engPc e = s.engPc e
    (Accepts s a.toNat pg Reg.ENG_CMD 1 →
      (s.engState e = 2 → ∃ t, exec (.haltCommand a e) s = .next t ∧ only t ∧ t.engState e = 5 ∧ t.eng e = g) ∧
      (s.engState e = 4 → ∃ t, exec (.haltCommand a e) s = .next t ∧ only t ∧ t.engState e = 4 ∧ (t.eng e).haltHeld = true)) ∧
    (s.engState e = 5 → g.slot = 0 → g.atEnd = none → ∃ t, exec (.haltTaken e) s = .next t ∧ only t ∧ (t.eng e).taken = true ∧ (t.eng e).next = g.next ∧ t.engState e = 5) ∧
    (∀ at_, s.engState e = 5 → g.slot = 0 → g.atEnd = some at_ → g.core.lv1 = none → g.core.lv0 = some false → fieldOf (g.core.srVal 0x06) 16 12 = at_ →
      g.core.srVal 0x03 ≠ 0 → ∃ t, exec (.haltTaken e) s = .next t ∧ (t.eng e).taken = true ∧ t.engState e = 5 ∧
        t.engPc e = fieldOf (g.core.srVal 0x06) 0 12 ∧ (t.eng e).core.srVal 0x03 = g.core.srVal 0x03 - 1) ∧
    (s.engState e = 5 → g.taken = true → g.shift = none → ∃ t, exec (.haltComplete e) s = .next t ∧ only t ∧ t.engState e = 1) ∧
    (∀ sh, g.shift = some sh → sh.beats.length < sh.b → sh.k < 2 → sh.v < 64 → sh.n ≤ 16 → sh.b ≤ 8 → s.engState e = 5 → g.taken = true →
      ∃ t, exec (.haltTimeout e) s = .next t ∧ { t with regs := s.regs, engs := s.engs, out := s.out, msixPend := s.msixPend } = s ∧
        (t.eng e).shift = none ∧ (t.eng e).core = g.core ∧
        (if sh.k = 0 then (t.eng e).ret0 = sh.beats ++ g.ret0 else (t.eng e).ret1 = sh.beats ++ g.ret1) ∧
        t.fld pg Fld.ENG_STATUS_SHIFT_ABORTED = 1 ∧ t.fld pg Fld.ENG_STATUS_REPLAY = 1 ∧ t.fld pg Fld.ENG_SHIFT_SAVED_V = sh.v ∧
        t.fld pg Fld.ENG_SHIFT_SAVED_K = sh.k ∧ t.fld pg Fld.ENG_SHIFT_SAVED_N_M1 = sh.n - 1 ∧ t.fld pg Fld.ENG_SHIFT_SAVED_B_M1 = sh.b - 1) ∧
    (Accepts s a.toNat pg Reg.ENG_CMD 2 → s.fld pg Fld.ENG_STATUS_REPLAY = 0 →
      ∃ t, exec (.resume a e) s = .next t ∧ only t ∧ t.engState e = 2 ∧ t.fld pg Fld.ENG_STATUS_FAULT = 0 ∧ (t.eng e).step = false ∧ (t.eng e).shift = g.shift) ∧
    (Accepts s a.toNat pg Reg.ENG_CMD 4 → s.fld pg Fld.ENG_STATUS_REPLAY = 0 →
      ∃ t, exec (.stepCmd a e) s = .next t ∧ only t ∧ t.engState e = 2 ∧ t.fld pg Fld.ENG_STATUS_FAULT = 0 ∧ (t.eng e).step = true ∧ (t.eng e).stepDone = false) ∧
    (Accepts s a.toNat pg Reg.ENG_CMD 4 → s.fld pg Fld.ENG_STATUS_REPLAY = 1 →
      ∃ t, exec (.stepCmd a e) s = .next t ∧ only t ∧ t.fld pg Fld.ENG_STATUS_REPLAY = 0 ∧ (t.eng e).stepDone = true ∧
        ∀ sh, (t.eng e).shift = some sh → sh.v = s.fld pg Fld.ENG_SHIFT_SAVED_V ∧ sh.n = s.fld pg Fld.ENG_SHIFT_SAVED_N_M1 + 1 ∧ sh.b = s.fld pg Fld.ENG_SHIFT_SAVED_B_M1 + 1) ∧
    (s.engState e = 2 → g.step = true → g.stepDone = true → g.shift = none → g.atEnd = none →
      ∃ t, exec (.stepComplete e) s = .next t ∧ only t ∧ t.engState e = 1 ∧ (t.eng e).step = false)

/-- R132 to R134, Table 05.4. SYNC, or a pulse of LSYNC while it is enabled, sets BUSY and takes the four engines to SYNCING; a pulse while BUSY, or while LSYNC is not enabled, only counts in TRB0; an engine of the sync clears V, P, A, E, the loop registers, BX0 and BX1, its delay range, FAULT, REPLAY and SHIFT_SAVED, keeps S and the other special registers, and sets its bit of DONE; with the four bits set the sync is released: the engines of RUN_MASK without a held HALT run, the others halt. -/
def Obligations.LanternSync : Prop :=
  ∀ (a : Agent) (k : Fin 24) (s : State), s.lanOn k = true →
    let lp := Pg.lan k
    let synced : State → Prop := fun t => { t with regs := s.regs, engs := s.engs } = s ∧ t.fld lp Fld.LAN_SYNC_STAT_BUSY = 1 ∧ t.fld lp Fld.LAN_SYNC_STAT_DONE = 0 ∧
      ∀ i : Fin 4, t.engState (4 * k.val + i.val) = 4 ∧ (t.eng (4 * k.val + i.val)).core = (s.eng (4 * k.val + i.val)).core
    (Accepts s a.toNat lp Reg.LAN_SYNC_CMD 1 → ∃ t, exec (.sync a k) s = .next t ∧ synced t) ∧
    (s.dieUp (k.val / 3) = true →
      (s.bit lp Fld.LAN_SYNC_CTRL_FAB_SYNC_EN = true → s.bit lp Fld.LAN_SYNC_STAT_BUSY = false → ∃ t, exec (.lsync k) s = .next t ∧ synced t) ∧
      (s.bit lp Fld.LAN_SYNC_CTRL_FAB_SYNC_EN = false ∨ s.bit lp Fld.LAN_SYNC_STAT_BUSY = true → exec (.lsync k) s = .next (s.trb lp 0))) ∧
    (∀ i : Fin 4,
      let e := 4 * k.val + i.val
      let pg := Pg.engCtl e
      let c := (s.eng e).core
      s.engState e = 4 → (s.eng e).slot = 0 → (s.eng e).shift = none → (s.fld lp Fld.LAN_SYNC_STAT_DONE).testBit i = false →
      ∃ t, exec (.syncEngineDone ⟨e, by omega⟩) s = .next t ∧ { t with regs := s.regs, engs := s.engs } = s ∧
        t.fld lp Fld.LAN_SYNC_STAT_DONE = s.fld lp Fld.LAN_SYNC_STAT_DONE ||| 2 ^ i.val ∧
        t.engPc e = s.fld pg Fld.ENG_ENTRY_ENTRY ∧ t.fld pg Fld.ENG_STATUS_FAULT = 0 ∧ t.fld pg Fld.ENG_STATUS_REPLAY = 0 ∧ t.reg pg Reg.ENG_SHIFT_SAVED = 0 ∧
        (t.eng e).core.sReg = c.sReg ∧ (∀ n, (t.eng e).core.vVal n = 0) ∧ (∀ p, (t.eng e).core.pVal p = false) ∧ (∀ j, (t.eng e).core.aVal j = 0) ∧
        (∀ j, (t.eng e).core.eVal j = 0) ∧ (t.eng e).core.lv0 = none ∧ (t.eng e).core.lv1 = none ∧
        (∀ r ∈ [0x02, 0x03, 0x04, 0x05, 0x06, 0x07, 0x0B, 0x0C], (t.eng e).core.srVal r = 0) ∧
        (∀ r ∈ [0x00, 0x01, 0x09, 0x0A, 0x0F, 0x10, 0x11, 0x12], (t.eng e).core.srVal r = c.srVal r) ∧
        (s.bit lp Fld.LAN_SYNC_CTRL_FLUSH_IN = true → (t.eng e).in0 = [] ∧ (t.eng e).in1 = []) ∧ (t.eng e).ret0 = (s.eng e).ret0 ∧
        (∀ j, j < 32768 → t.dataWord e j =
          (if 8 * s.fld pg Fld.ENG_DLY_RANGE_BASE ≤ j ∧ j < 8 * s.fld pg Fld.ENG_DLY_RANGE_BASE + 8 * s.fld pg Fld.ENG_DLY_RANGE_LEN then .ok 0 else s.dataWord e j))) ∧
    (s.bit lp Fld.LAN_SYNC_STAT_BUSY = true → s.fld lp Fld.LAN_SYNC_STAT_DONE = 15 → (∀ i : Fin 4, (s.eng (4 * k.val + i.val)).resetHeld = false) →
      ∃ t, exec (.syncRelease k) s = .next t ∧ { t with regs := s.regs, engs := s.engs } = s ∧ t.fld lp Fld.LAN_SYNC_STAT_BUSY = 0 ∧
        ∀ i : Fin 4, t.engState (4 * k.val + i.val) =
          (if (s.fld lp Fld.LAN_SYNC_CTRL_RUN_MASK).testBit i = true ∧ (s.eng (4 * k.val + i.val)).haltHeld = false then 2 else 1) ∧
          (t.eng (4 * k.val + i.val)).core = (s.eng (4 * k.val + i.val)).core)

/-- R92, R110, R130, R524. A stall longer than STALL_LIMIT sets STAT.STALLTO and counts in TRB3; a starved ring access holds a running engine's next bundle; a write of the ENGn_SR page changes the register of a halted engine; a corrected word is written back unless a write reached it first. -/
def Obligations.EngineMaintenance : Prop :=
  (∀ (e : Fin 96) (s : State),
    let g := s.eng e
    (s.engState e = 2 → g.slot = 0 → g.core.srVal 0x11 ≠ 0 →
      ∃ t, exec (.stallLimitExpiry e) s = .next t ∧ ((t.eng e).core.srVal 0).getLsbD 4 = true ∧ ((t.eng e).next.srVal 0).getLsbD 4 = true ∧
        (s.fld (Pg.engCtl e) (Fld.PG_TRB_CNT 3) < 0xFFFF → t.fld (Pg.engCtl e) (Fld.PG_TRB_CNT 3) = s.fld (Pg.engCtl e) (Fld.PG_TRB_CNT 3) + 1) ∧
        { t with regs := s.regs, engs := s.engs, out := s.out, msixPend := s.msixPend } = s) ∧
    (s.engState e = 2 → g.slot = 0 → exec (.ringAccessStarvation e) s = .next (s.setEng e { g with hold := true }))) ∧
  (∀ (a : Agent) (e : Fin 96) (j : Fin 32) (v : BitVec 32) (s : State),
    Accepts s a.toNat (Pg.engSr e) (0x100 + 4 * j.val) v →
    ∃ t, exec (.engSrWrite a e (BitVec.ofNat 12 (0x100 + 4 * j.val)) v) s = .next t ∧ (t.eng e).core.sVal j = v ∧ (t.eng e).next.sVal j = v ∧
      (∀ i : Fin 32, i ≠ j → (t.eng e).core.sVal i = (s.eng e).core.sVal i) ∧ (∀ e' : Fin 96, e' ≠ e → t.eng e' = s.eng e') ∧
      { t with regs := s.regs, engs := s.engs } = s) ∧
  (∀ (m : LanMem) (idx : Fin 131072) (s : State) (d : DWord), s.lanRaw m = false →
    ((∃ k, m = .lan k ∧ mget s.engs.wbLan (lanKey k idx) = some d) ∨ (∃ e, m = .data e ∧ idx.val < 32768 ∧ mget s.engs.wbData (dataKey e idx) = some d)) →
    ∃ t, exec (.lanternWordWriteBack m idx) s = .next t ∧ t.memWord m idx = .ok d ∧ { t with engs := s.engs } = s ∧
      (∀ i : Fin 131072, i ≠ idx → (∀ e, m = .data e → i.val < 32768) → t.memWord m i = s.memWord m i))

/-- R151. A flit from a to b travels on ring pair p = a[5:3] XOR a[2:0] XOR b[5:3] XOR b[2:0], clockwise (an even ring) when h = (b - a) mod 64 is below 32, or 32 with a < b, and counter-clockwise otherwise; it crosses min(h, 64 - h) segments; the flit from b to a takes the same pair in the opposite direction. The route depends on a and b alone unless the source knows of a failed segment on that way. -/
def Obligations.RouteRule : Prop :=
  ∀ (s : State) (a b : Fin 64), a ≠ b →
    let h := (b.val + 64 - a.val) % 64
    let p := (a.val / 8) ^^^ (a.val % 8) ^^^ (b.val / 8) ^^^ (b.val % 8)
    let back := if h < 32 ∨ (h = 32 ∧ a.val < b.val) then 0 else 1
    let r := 2 * p + back
    let clear (x y ring : Nat) : Prop := ∀ k ∈ s.rings.known, k.1 = x → k.2.2 = ring → crosses x y ring k.2.1 = false
    p < 8 ∧ ((List.range 64).filter fun x => crosses a b r x).length = min h (64 - h) ∧
      (clear a b r → s.route a b = r) ∧ (clear b a (2 * p + (1 - back)) → s.route b a = 2 * p + (1 - back))

/-- R142 to R149, R154, R155, R192, R452. RD, WR, WRP and the CMOs take the request at the head of their interface's queue. One that passes the checks, has a free tag and its turn, and whose
flow is not held, whose way is open and for which the ring has room and pacing no bar, leaves the queue and is on the ring under a tag of its class, its flits with the fields that the attachment point writes. One that fails a check is refused: counted in TRB0, REFUSED raised; a
ring port receives BUS_ERROR, or its error queue the address of a posted write (TRB3). A CMO outside the cacheable ranges is answered OK at once. -/
def Obligations.RequestsInjected : Prop :=
  ∀ (stop : Fin 64) (ifc : Fin 4) (q : TxnClass) (e : EpEntry) (rest : List EpEntry) (s : State) (cmd : Instr),
    (cmd, e.typ) ∈ requestCmds stop ifc e.r → AtHead s (ifKey stop ifc) q e rest → s.mayInject stop ifc = true →
    mget s.rings.fences (ifKey stop ifc) = none →
    let a := fieldOf e.r.addr 0 48
    let pg := Pg.stop stop
    (∀ (d : Nat × Nat × Bool) (g : Nat), s.headDest stop ifc e = some d → (e.typ = .clean ∨ e.typ = .flush → cacheable a = true) →
      let c := s.classOf stop ifc e.typ d
      let ring := s.route stop d.1
      let k : TxnKey := ⟨stop, c, Fin.ofNat 256 g⟩
      let x : Txn := {
        ifc := ifc, epTag := e.r.tag, who := e.r.who.toNat, typ := e.typ, addr := BitVec.ofNat 48 a,
        kid := if cacheable a then BitVec.ofNat 10 (fieldOf e.r.addr 48 10) else 0, tid := e.tid, len := e.r.len, data := placed e.r.len (a % 64) e.r.data, be := e.r.be,
        poison := e.poison, dst := d.1, dstIf := d.2.1, ring := ring, ringBack := s.route d.1 stop, phase := .flying, seq := s.rings.seq,
        aseq := 0, live := true }
      s.flowHeld stop d.1 = false → s.turnOk stop ifc c = true → s.freeTag stop c = some g → s.pathOpen stop d.1 ring = true →
      s.injWaits stop ifc c.vc = false → s.mayPace stop ifc c.vc true = true → s.mayEnter stop ring c.vc (x.requestWords k).length = true →
      ∃ t, exec cmd s = .next t ∧ { t with regs := s.regs, rings := s.rings } = s ∧ t.epQ (ifKey stop ifc) q = rest ∧ t.rings.seq = s.rings.seq + 1 ∧
        t.txn k = some x ∧ (∀ j : TxnKey, j.no ≠ k.no → t.txn j = s.txn j) ∧
        t.rings.flits = s.rings.flits ++ [⟨.req k.no, ring, c.vc, stop, ifc, d.1, d.2.1, x.requestWords k, some stop.val, false⟩]) ∧
    (∀ p, epKind stop ifc = .port p → s.headDest stop ifc e = none →
      ∃ t, exec cmd s = .next t ∧ t.epQ (ifKey stop ifc) q = rest ∧ t.rings.txns = s.rings.txns ∧ t.fld pg Evt.STOP_REFUSED = 1 ∧
        (s.fld pg (Fld.PG_TRB_CNT 0) < 0xFFFF → t.fld pg (Fld.PG_TRB_CNT 0) = s.fld pg (Fld.PG_TRB_CNT 0) + 1) ∧
        (e.typ ≠ .wrp → mgetD [] t.fab.rsp p = mgetD [] s.fab.rsp p ++ [(⟨false, e.r.tag, .busError, 0⟩ : PortRsp)]) ∧
        (e.typ = .wrp → mgetD [] t.rings.errq (ifKey stop ifc) =
          mgetD [] s.rings.errq (ifKey stop ifc) ++ [((BitVec.ofNat 48 a : PhysAddr), (BitVec.ofNat 10 (fieldOf e.r.addr 48 10), Status.busError))])) ∧
    (∀ p d, epKind stop ifc = .port p → s.headDest stop ifc e = some d → e.typ = .clean ∨ e.typ = .flush → cacheable a = false →
      ∃ t, exec cmd s = .next t ∧ { t with fab := s.fab, rings := s.rings } = s ∧ t.epQ (ifKey stop ifc) q = rest ∧
        mgetD [] t.fab.rsp p = mgetD [] s.fab.rsp p ++ [(⟨false, e.r.tag, .ok, 0⟩ : PortRsp)])

/-- R154, R159, R161, R165, R169, Tables 06.8 and 06.11. A request that arrives in order, with room in its ejection queue, is delivered to a lantern whose interface is ON, a posted one with its PACK at once; answered DOMAIN_OFF, counted in TRB2, by a SNUFFING interface and by one that is OFF
without WAKE_EN; parked, raising a WICK, by an OFF interface with WAKE_EN while fewer than 8 flits are parked; answered BUS_ERROR by an UNUSED or ABSENT one; a parked flit whose 50 µs are over is answered DOMAIN_OFF,
counted in TRB6, with PARK_TO. -/
def Obligations.RequestArrivals : Prop :=
  ∀ (k : TxnKey) (x : Txn) (s : State), s.txn k = some x →
    let pg := Pg.stop x.dst
    let st := s.ifState x.dst x.dstIf
    let wake := (s.fld pg Fld.STOP_IF_CTRL_WAKE_EN).testBit x.dstIf
    let answered : Status → State → Prop := fun z t =>
      t.txn k = some { x with phase := .answered z 0, aseq := s.rings.seq, ringBack := s.route x.dst k.src } ∧
      { t with regs := s.regs, rings := s.rings, out := s.out, msixPend := s.msixPend } = s ∧ t.rings.parked = s.rings.parked ∧
      (z = .domainOff → s.fld pg (Fld.PG_TRB_CNT 2) < 0xFFFF → t.fld pg (Fld.PG_TRB_CNT 2) = s.fld pg (Fld.PG_TRB_CNT 2) + 1)
    (x.phase = .flying → s.clk.failed = false → s.mayLand (.req k.no) = true → s.ejected x.dst k.cls < k.cls.vc.eject →
      (s.flit (.req k.no)).any Flit.badType = false → s.pathOpen x.dst k.src (s.route x.dst k.src) = true →
      (∀ l, st = 1 ∨ st = 2 → epKind x.dst x.dstIf = .lantern l → s.parkedAt x.dst x.dstIf = [] →
        ∃ t, exec (.requestArrival k) s = .next t ∧ t.regs = s.regs ∧
          (x.typ ≠ .wrp → t.txn k = some { x with phase := .delivered }) ∧
          (x.typ = .wrp → (k.no, x) ∈ t.rings.posted ∧ t.txn k = some { x with phase := .answered .ok 0, aseq := s.rings.seq, ringBack := s.route x.dst k.src })) ∧
      (st = 3 ∨ (st = 4 ∧ wake = false) ∨ (st = 6 ∧ k.cls ≠ .mgmt) → ∃ t, exec (.requestArrival k) s = .next t ∧ answered .domainOff t) ∧
      (st = 0 ∨ st = 5 → ∃ t, exec (.requestArrival k) s = .next t ∧ answered .busError t) ∧
      (st = 4 → wake = true → (s.rings.parked.filter fun j => (s.txn j).any fun y => y.dst == x.dst).length < 8 →
        ∃ t, exec (.requestArrival k) s = .next t ∧ { t with rings := s.rings, wicks := s.wicks } = s ∧ t.txn k = some { x with phase := .parked } ∧
          t.rings.parked = s.rings.parked ++ [k] ∧ .iface (Fin.ofNat 64 x.dst) (Fin.ofNat 4 x.dstIf) ∈ t.wicks)) ∧
    (k ∈ s.rings.parked → st = 4 → x.phase = .parked → x.dst < 64 → s.pathOpen x.dst k.src (s.route x.dst k.src) = true → ∃ t, exec (.parkTimeout k) s = .next t ∧
      t.txn k = some { x with phase := .answered .domainOff 0, aseq := s.rings.seq, ringBack := s.route x.dst k.src } ∧ k ∉ t.rings.parked ∧
      (s.fld pg (Fld.PG_TRB_CNT 6) < 0xFFFF → t.fld pg (Fld.PG_TRB_CNT 6) = s.fld pg (Fld.PG_TRB_CNT 6) + 1) ∧ t.fld pg Evt.STOP_PARK_TO = 1)

/-- R147, R158, R161. RDATA, WACK and PACK of a transaction of a ring port that still waits free its tag and hand the status and data to the port under its own tag; a PACK other than OK goes to the error queue with address and key ID;
an answer that nobody waits for is discarded and counted in TRB4. At REQ_TIMEOUT the port receives BUS_ERROR, or its error queue an entry, and the tag no longer waits. -/
def Obligations.AnswersAndTimeouts : Prop :=
  ∀ (k : TxnKey) (x : Txn) (p : Nat) (s : State), s.txn k = some x → epKind k.src x.ifc = .port p →
    let pg := Pg.stop k.src
    let key := ifKey k.src x.ifc
    let rsp : Status → Line → State → Prop := fun st d t => mgetD [] t.fab.rsp p = mgetD [] s.fab.rsp p ++ [(⟨false, x.epTag, st, d⟩ : PortRsp)]
    let err : Status → State → Prop := fun st t => mgetD [] t.rings.errq key = mgetD [] s.rings.errq key ++ [(x.addr, (x.kid, st))]
    (∀ st d cmd, x.phase = .answered st d → s.clk.failed = false → s.mayLand (.ans k.no) = true →
      (cmd = .rdata k ∧ x.typ = .rd) ∨ (cmd = .wack k ∧ x.typ ≠ .rd ∧ k.cls ≠ .post) ∨ (cmd = .pack k ∧ k.cls = .post) →
      ∃ t, exec cmd s = .next t ∧ t.txn k = none ∧ (∀ j : TxnKey, j.no ≠ k.no → t.txn j = s.txn j) ∧
        (x.live = true → x.typ ≠ .wrp → rsp st d t) ∧
        (x.live = true → x.typ = .wrp → t.fab = s.fab ∧ (st ≠ .ok → err st t) ∧ (st = .ok → t.rings.errq = s.rings.errq)) ∧
        (x.live = false → t.fab = s.fab ∧ t.rings.errq = s.rings.errq ∧
          (s.fld pg (Fld.PG_TRB_CNT 4) < 0xFFFF → t.fld pg (Fld.PG_TRB_CNT 4) = s.fld pg (Fld.PG_TRB_CNT 4) + 1))) ∧
    (x.live = true → ∃ t, exec (.requestTimeout k) s = .next t ∧ (x.phase ≠ .lost → t.txn k = some { x with live := false }) ∧ (x.phase = .lost → t.txn k = none) ∧
      (x.typ ≠ .wrp → rsp .busError 0 t) ∧ (x.typ = .wrp → t.fab = s.fab ∧ err .busError t))

/-- R156, R160, R166 to R168. FENCE.START begins a fence on each named interface, which takes no further request until FENCE_COMPLETE, due once every earlier request has ended, clears BUSY. SNUFF makes each named
interface SNUFFING; when nothing is open it is OFF with SNUFF_DONE; at SNUFF_TIMEOUT it is OFF at once, with TO and SNUFF_TO. ON returns an OFF interface to ON. A flit that has waited 7 cycles has the right of way. Stated for lanterns' interfaces
where an end point matters. -/
def Obligations.FencesAndSnuffs : Prop :=
  ∀ (a : Agent) (stop : Fin 64) (ifc : Fin 4) (s : State),
    let pg := Pg.stop stop
    let key := ifKey stop ifc
    let one : BitVec 4 := BitVec.ofNat 4 (2 ^ ifc.val)
    let word (lo : Nat) : Word := BitVec.ofNat 32 (2 ^ (lo + ifc.val))
    let busy := s.fld pg Fld.STOP_FENCE_BUSY
    (Accepts s a.toNat pg Reg.STOP_FENCE (word 0) → mget s.rings.fences key = none →
      ∃ t, exec (.fence a stop one) s = .next t ∧ t.fld pg Fld.STOP_FENCE_BUSY = busy ||| 2 ^ ifc.val ∧ mget t.rings.fences key = some none ∧ t.mayIssue stop ifc = false ∧
        t.rings.txns = s.rings.txns) ∧
    (∀ l, epKind stop ifc = .lantern l → mget s.rings.fences key = some none → s.ifOpen stop ifc = false → (∀ c, s.beforeFence key c = 0) → busy.testBit ifc = true →
      ∃ t, exec (.fenceComplete stop ifc) s = .next t ∧ { t with regs := s.regs, rings := s.rings } = s ∧ mget t.rings.fences key = none ∧
        t.fld pg Fld.STOP_FENCE_BUSY = busy - 2 ^ ifc.val) ∧
    (∀ l, epKind stop ifc = .lantern l → s.parkedAt stop ifc = [] →
      (Accepts s a.toNat pg Reg.STOP_SNUFF_CTRL (word 0) → ∃ t, exec (.snuff a stop one) s = .next t ∧ t.ifState stop ifc = 3 ∧ t.rings.txns = s.rings.txns) ∧
      (Accepts s a.toNat pg Reg.STOP_SNUFF_CTRL (word 4) → ∃ t, exec (.ifOn a stop one) s = .next t ∧ t.ifState stop ifc = 1 ∧ t.rings.txns = s.rings.txns ∧
        .iface stop ifc ∉ t.wicks) ∧
      (s.ifState stop ifc = 3 → s.pwr.cmd = none → s.pairs.cmd = none →
        (s.snuffReady stop ifc = true → s.ifOpen stop ifc = false → s.ifUnanswered stop ifc = false → (∀ c, s.epQ key c = []) →
          ∃ t, exec (.snuffDone stop ifc) s = .next t ∧ t.ifState stop ifc = 4 ∧ t.fld pg Fld.STOP_SNUFF_STAT_DONE = s.fld pg Fld.STOP_SNUFF_STAT_DONE ||| 2 ^ ifc.val ∧
            (t.fld pg Fld.STOP_SNUFF_STAT_TO).testBit ifc = false ∧ t.fld pg Evt.STOP_SNUFF_DONE = 1) ∧
        ∃ t, exec (.snuffTimeout stop ifc) s = .next t ∧ t.ifState stop ifc = 4 ∧ (t.fld pg Fld.STOP_SNUFF_STAT_DONE).testBit ifc = true ∧
          (t.fld pg Fld.STOP_SNUFF_STAT_TO).testBit ifc = true ∧ t.fld pg Evt.STOP_SNUFF_TO = 1 ∧ (∀ c, t.epQ key c = []) ∧ mget t.rings.fences key = none ∧
          t.ifOpen stop ifc = false)) ∧
    (∀ ring : Fin 16, (stop.val, ring.val) ∉ s.rings.starved →
      exec (.injectionStarvation stop ring) s = .next { s with rings.starved := (stop.val, ring.val) :: s.rings.starved })

/-- R162, R163, R442, R443. A CRC mismatch counts in TRB1 and raises REPLAY; after three in a row the segment is declared failed: SEG_FAIL, TRB7, FAILOVER, alarm 3 and ALM.TRB1; an attachment point that learns of it routes
its flows that crossed it on another ring and starts its drain; when the drain ends no transaction that could have crossed it before still waits. -/
def Obligations.SegmentFailover : Prop :=
  ∀ (at_ stop : Fin 64) (ring : Fin 16) (s : State),
    let pg := Pg.stop stop
    let counted : Nat → Nat → State → Prop := fun q j t => s.fld q (Fld.PG_TRB_CNT j) < 0xFFFF → t.fld q (Fld.PG_TRB_CNT j) = s.fld q (Fld.PG_TRB_CNT j) + 1
    let fails := mgetD 0 s.rings.crcFails (16 * stop.val + ring.val)
    (s.pairs.cmd = none → ∃ t, exec (.flitCrcMismatch stop ring) s = .next t ∧ { t with regs := s.regs, rings := s.rings, out := s.out, msixPend := s.msixPend } = s ∧
      mgetD 0 t.rings.crcFails (16 * stop.val + ring.val) = fails + 1 ∧ { t.rings with crcFails := s.rings.crcFails, flits := s.rings.flits } = s.rings ∧
      (∀ (i : Nat) (f : Flit), s.rings.flits[i]? = some f → ∃ again : Bool, t.rings.flits[i]? = some ({ f with again := again } : Flit)) ∧ t.fld pg Evt.STOP_REPLAY = 1 ∧ counted pg 1 t) ∧
    (s.segFailed stop ring = false → 3 ≤ mgetD 0 s.rings.crcFails (16 * segAfter stop ring + ring.val) → ∃ t, exec (.segmentFailed stop ring) s = .next t ∧
      t.segFailed stop ring = true ∧ t.fld pg Evt.STOP_FAILOVER = 1 ∧ counted pg 7 t ∧ (t.reg Pg.alm Reg.ALM_ALM_SUM).getLsbD 3 = true ∧
      (stop.val, stop.val, ring.val) ∈ t.rings.known ∧ t.rings.known.length ≤ s.rings.known.length + 1) ∧
    (s.segFailed stop ring = true → (at_.val, stop.val, ring.val) ∉ s.rings.known → ∃ t, exec (.failoverNotice at_ stop ring) s = .next t ∧
      { t with rings := s.rings } = s ∧ mget t.rings.drain (at_.val * 1024 + stop.val * 16 + ring.val) = some s.rings.seq ∧
      (∀ b : Fin 64, s.rings.known = [] → b ≠ at_ → crosses at_ b ring stop = true → t.route at_ b ≠ ring.val) ∧
      (∀ b : Fin 64, crosses at_ b ring stop = false → s.rings.known = [] → t.route at_ b = s.route at_ b)) ∧
    (∀ before, mget s.rings.drain (at_.val * 1024 + stop.val * 16 + ring.val) = some before →
      (∃ t, exec (.foDrain at_ stop ring) s = .next t ∧ mget t.rings.drain (at_.val * 1024 + stop.val * 16 + ring.val) = none ∧
        (s.uncertain at_ stop ring before = [] → (∀ f ∈ s.rings.flits, f.again = false) → t = { s with rings := { s.rings with drain := t.rings.drain } }) ∧
        ∀ (k : TxnKey) (x : Txn), s.uncertain at_ stop ring before = [(k.no, x)] → x.phase = .flying → x.typ = .rd → (∃ p, epKind k.src x.ifc = .port p) →
          t.txn k = some { x with live := false } ∧ counted Pg.alm 5 t))

/-- R28, R59, R129, R161, R524. Of what a lantern whose clock runs has been given: a read of an 8-byte word that is correct answers OK with the word in its place of the line; one that cannot be corrected answers POISON with the word as it stands and counts, outside raw mode;
a write of a whole word stores it with valid check bits, other words stay; a bundle is written while its engine is HALTED or STOPPED, else the write is refused and counts in TRB2. A write answers OK or BUS_ERROR; a posted one, which has had its PACK,
answers nothing more. -/
def Obligations.LanternMemoriesOverRings : Prop :=
  ∀ (k : TxnKey) (x : Txn) (l : Nat) (s : State), epKind x.dst x.dstIf = .lantern l → s.lanClk l = true →
    let m := (lanternPlace x.addr.toNat).1
    let b := (lanternPlace x.addr.toNat).2
    let o := x.addr.toNat % 64
    let wordAt := (∀ e, m ≠ .prog e) ∧ x.len = 4 ∧ x.addr.toNat % 8 = 0
    let bundleAt : Fin 96 → Prop := fun e => m = .prog e ∧ b < 0x10000 ∧ x.len = 5 ∧ x.addr.toNat % 16 = 0
    let w := s.memWord m (b / 8)
    let ans : Status → Line → State → Prop := fun st d t =>
      t.txn k = some { x with phase := .answered st d, aseq := s.rings.seq, ringBack := s.route x.dst k.src }
    let posted : State → Prop := fun t => t.rings = { s.rings with posted := s.rings.posted.erase (k.no, x) }
    let wordStored : State → Prop := fun t => { t with rings := s.rings, engs := s.engs } = s ∧ t.memWord m (b / 8) = .ok (BitVec.ofNat 64 (fieldOf x.data (8 * o) 64)) ∧
      ∀ m' i', i' < (match m' with | .lan _ => 131072 | _ => 32768) → (∀ e, m' ≠ .prog e) → (m' ≠ m ∨ i' ≠ b / 8) → t.memWord m' i' = s.memWord m' i'
    let bundleStored : Fin 96 → State → Prop := fun e t => { t with rings := s.rings, engs := s.engs } = s ∧
      t.progWord e (b / 16) = ⟨BitVec.ofNat 128 (fieldOf x.data (8 * o) 128), 0⟩ ∧
      ∀ (e' : Fin 96) (i : Nat), i < 4096 → (e' ≠ e ∨ i ≠ b / 16) → t.progWord e' i = s.progWord e' i
    let refused : Fin 96 → State → Prop := fun e t => t.engs = s.engs ∧
      (s.fld (Pg.engCtl e) (Fld.PG_TRB_CNT 2) < 0xFFFF → t.fld (Pg.engCtl e) (Fld.PG_TRB_CNT 2) = s.fld (Pg.engCtl e) (Fld.PG_TRB_CNT 2) + 1)
    (s.txn k = some x → x.phase = .delivered → s.rings.posted.find? (fun e => e.1 == k.no) = none → s.pathOpen x.dst k.src (s.route x.dst k.src) = true →
      (wordAt → x.typ = .rd →
        (w.decode = .clean → ∃ t d, exec (.lanternMemoryRingRead k) s = .next t ∧ { t with rings := s.rings } = s ∧ ans .ok d t ∧ fieldOf d (8 * o) 64 = w.data.toNat) ∧
        (w.decode = .uncorrectable → s.lanRaw m = false → ∃ t d, exec (.lanternMemoryRingRead k) s = .next t ∧ ans .poison d t ∧ fieldOf d (8 * o) 64 = w.data.toNat ∧
          t.engs = s.engs ∧
          let c : Nat × Nat := match m with | .lan i => (Pg.lan i, 2) | .data e => (Pg.engCtl e, 5) | .prog e => (Pg.engCtl e, 5)
          (s.fld c.1 (Fld.PG_TRB_CNT c.2) < 0xFFFF → t.fld c.1 (Fld.PG_TRB_CNT c.2) = s.fld c.1 (Fld.PG_TRB_CNT c.2) + 1))) ∧
      (x.typ = .wr → x.poison = false →
        (wordAt → ∃ t, exec (.lanternMemoryRingWrite k) s = .next t ∧ ans .ok 0 t ∧ wordStored t) ∧
        (∀ e, bundleAt e → s.engState e = 1 ∨ s.engState e = 3 → ∃ t, exec (.programMemoryWrite k) s = .next t ∧ ans .ok 0 t ∧ bundleStored e t)) ∧
      (∀ e, x.typ = .wr → bundleAt e → s.engState e ≠ 1 → s.engState e ≠ 3 → ∃ t, exec (.programMemoryWrite k) s = .next t ∧ ans .busError 0 t ∧ refused e t)) ∧
    (s.rings.posted.find? (fun e => e.1 == k.no) = some (k.no, x) → x.typ = .wrp →
      (x.poison = false →
        (wordAt → ∃ t, exec (.lanternMemoryRingWrite k) s = .next t ∧ posted t ∧ wordStored t) ∧
        (∀ e, bundleAt e → s.engState e = 1 ∨ s.engState e = 3 → ∃ t, exec (.programMemoryWrite k) s = .next t ∧ posted t ∧ bundleStored e t)) ∧
      (∀ e, bundleAt e → s.engState e ≠ 1 → s.engState e ≠ 3 → ∃ t, exec (.programMemoryWrite k) s = .next t ∧ posted t ∧ refused e t))

/-- R176, R185 to R187, Table 07.4. Stated for a home that serves nothing else, whose message has come, for a line held correct by the system cache under the request's key ID, whose slot check passes: with no entry the asker is granted E and recorded DX; a DS entry
grants S to RDS and adds the asker; an entry of the asker alone grants E, without data to a UPG of its S copy; else the other holders are snooped, SNPI for RDX and UPG, SNPS for RDS, with AG where a grant to them is on its way, and the transaction waits for their answers. A line of a FAILED or ABSENT controller, or of none, is answered BUS_ERROR (R202). -/
def Obligations.RequestsAtTheHome : Prop :=
  ∀ (m : Fin 8) (line : LineAddr) (s : State) (x : CrdMsg) (rest : List CrdMsg) (l : ScLine) (cmd : Instr),
    let L := line.toNat
    let sl := homeSlice L
    let ch := chKey m sl
    (cmd, x.kind) ∈ [(Instr.rds m line, CrdKind.rds), (.rdx m line, .rdx), (.upg m line, .upg)] →
    mgetD [] s.coh.crdCh ch = x :: rest → x.line = L → s.cohWaits (.crd ch) = false → s.trkFree sl = true →
    (s.fld (Pg.sc sl) Fld.SC_SC_STAT_WALK).testBit m = false → s.coh.trk = [] → s.coh.rangeLeft = [] →
    s.slotCheck true x.kid.toNat x.tid.toNat = none → mget s.coh.sc L = some l → l.syn = 0 → l.tagSyn = 0 → l.poison = false → l.kid = x.kid →
    let me : Byte := (1 : Byte) <<< m.val
    let granted : Bool → Option Line → Bool → Byte → State → Prop := fun excl d dx pres t =>
      mgetD [] t.coh.homeCh ch = mgetD [] s.coh.homeCh ch ++ [HomeMsg.cgnt L excl d .ok] ∧ t.trk L = [] ∧
      (∃ e, mget t.coh.dir L = some e ∧ e.dx = dx ∧ e.pres = pres) ∧ mgetD [] t.coh.crdCh ch = rest ∧
      { t with regs := s.regs, coh := s.coh, rings := s.rings } = s ∧ t.coh.sc.map Prod.fst = s.coh.sc.map Prod.fst ∧ t.coh.dc = s.coh.dc
    let waits : SnpKind → Byte → State → Prop := fun kind dies t =>
      (∃ k, t.trk L = [k] ∧ k.phase = .snoop ∧ k.need = dies ∧ k.asker = .die m) ∧ mget t.coh.dir L = mget s.coh.dir L ∧ t.coh.homeCh = s.coh.homeCh ∧
      (∀ d : Fin 8, dies.getLsbD d = true →
        mgetD [] t.coh.snpCh (chKey d sl) = mgetD [] s.coh.snpCh (chKey d sl) ++ [(⟨L, kind, s.grantSent d L⟩ : SnpMsg)]) ∧
      (∀ d : Fin 8, dies.getLsbD d = false → mgetD [] t.coh.snpCh (chKey d sl) = mgetD [] s.coh.snpCh (chKey d sl))
    (mget s.coh.dir L = none → (s.dirWays L).length < 16 → s.dramRefuses L = false →
      ∃ t, exec cmd s = .next t ∧ granted true (some l.data) true me t) ∧
    (∀ e, mget s.coh.dir L = some e → e.syn = 0 → e.pres ≠ 0 → s.dramRefuses L = false →
      (e.dx = false → x.kind = .rds → ∃ t, exec cmd s = .next t ∧ granted false (some l.data) false (e.pres ||| me) t) ∧
      (e.dx = true → e.pres = me → ∃ t, exec cmd s = .next t ∧ granted true (some l.data) true me t) ∧
      (e.dx = false → e.pres = me → x.kind = .upg → ∃ t, exec cmd s = .next t ∧ granted true none true me t) ∧
      (e.dx = false → e.pres = me → x.kind = .rdx → ∃ t, exec cmd s = .next t ∧ granted true (some l.data) true me t) ∧
      (e.pres &&& ~~~me ≠ 0 → x.kind ≠ .rds → ∃ t, exec cmd s = .next t ∧ waits .snpi (e.pres &&& ~~~me) t) ∧
      (e.dx = true → e.pres &&& ~~~me ≠ 0 → x.kind = .rds → ∃ t, exec cmd s = .next t ∧ waits .snps (e.pres &&& ~~~me) t)) ∧
    (s.dramRefuses L = true → ∃ t, exec cmd s = .next t ∧ mgetD [] t.coh.homeCh ch = mgetD [] s.coh.homeCh ch ++ [HomeMsg.cgnt L false none .busError] ∧
      t.trk L = [] ∧ t.coh.dir = s.coh.dir ∧ t.coh.sc = s.coh.sc ∧ { t with regs := s.regs, coh := s.coh, rings := s.rings } = s)

/-- R183, R184, R186, R187, R190, Table 07.3. A die cache without the line answers NONE; a clean copy is answered CLEAN and becomes S, goes, or stays; an M copy returns its data DIRTY, counted in TRB3, and becomes S, goes, or becomes E. A snoop with AG waits
while a CRD of the line is outstanding. At the home an answer that is not the last is taken from the awaited ones, DIRTY data enters the system cache marked dirty, and the entry follows the snoop. -/
def Obligations.Snoops : Prop :=
  (∀ (m : Fin 8) (line : LineAddr) (s : State) (x : SnpMsg) (rest : List SnpMsg) (cmd : Instr),
    let L := line.toNat
    let sl := homeSlice L
    let ch := chKey m sl
    let st := s.ifState (dcacheAt m).1 (dcacheAt m).2
    (cmd, x.kind) ∈ [(Instr.snps m line, SnpKind.snps), (.snpi m line, .snpi), (.snpc m line, .snpc)] →
    mgetD [] s.coh.snpCh ch = x :: rest → x.line = L → s.cohWaits (.snp ch) = false → st ≠ 3 → st ≠ 4 →
    let answered : SnpAns → Option DcLine → State → Prop := fun a l t =>
      mgetD [] t.coh.dcCh ch = mgetD [] s.coh.dcCh ch ++ [DcMsg.srsp L a] ∧ t.dcLine m L = l ∧ mgetD [] t.coh.snpCh ch = rest ∧ t.coh.held = s.coh.held
    ((x.ag = false ∨ mget s.coh.crd (dcKey m L) = none) →
      (s.dcLine m L = none → ∃ t, exec cmd s = .next t ∧ answered .none none t) ∧
      (∀ l, s.dcLine m L = some l → l.st ≠ .m → ∃ t, exec cmd s = .next t ∧
        answered .clean (match x.kind with | .snps => some { l with st := .s } | .snpi => none | .snpc => some l) t) ∧
      (∀ l, s.dcLine m L = some l → l.st = .m → l.syn = 0 → l.tagSyn = 0 → ∃ t, exec cmd s = .next t ∧
        answered (.dirty l.data) (match x.kind with | .snps => some { l with st := .s } | .snpi => none | .snpc => some { l with st := .e }) t ∧
        (s.fld (Pg.dc m) (Fld.PG_TRB_CNT 3) < 0xFFFF → t.fld (Pg.dc m) (Fld.PG_TRB_CNT 3) = s.fld (Pg.dc m) (Fld.PG_TRB_CNT 3) + 1))) ∧
    (x.ag = true → mget s.coh.crd (dcKey m L) ≠ none → ∃ t, exec cmd s = .next t ∧ mget t.coh.held (dcKey m L) = some x ∧ t.coh.dcCh = s.coh.dcCh ∧
      t.coh.dc = s.coh.dc)) ∧
  (∀ (m : Fin 8) (line : LineAddr) (s : State) (a : SnpAns) (rest : List DcMsg) (k : Tracker) (more : List Tracker),
    let L := line.toNat
    let sl := homeSlice L
    let ch := chKey m sl
    let me : Byte := (1 : Byte) <<< m.val
    mgetD [] s.coh.dcCh ch = DcMsg.srsp L a :: rest → s.cohWaits (.dc ch) = false → s.coh.trk = [(L, k :: more)] → s.coh.rangeLeft = [] → k.need.getLsbD m = true → k.need &&& ~~~me ≠ 0 → k.phase = .snoop →
    ∃ t, exec (.srsp m line) s = .next t ∧ mgetD [] t.coh.dcCh ch = rest ∧
      t.trk L = { k with need := k.need &&& ~~~me, domOff := k.domOff &&& ~~~me, sawNone := k.sawNone || decide (a = .none) } :: more ∧
      (∀ d l, a = .dirty d → mget s.coh.sc L = some l →
        ∃ c, mget t.coh.sc L = some c ∧ c.data = d ∧ c.dirty = true ∧ c.poison = false ∧ c.syn = 0) ∧
      (∀ e, mget s.coh.dir L = some e → e.pres &&& ~~~me ≠ 0 →
        (k.op = .rdx ∨ k.op = .upg ∨ k.op = .wr ∨ k.op = .flush → mget t.coh.dir L = some { e with pres := e.pres &&& ~~~me }) ∧
        (k.op = .rds ∨ k.op = .rd → a ≠ .none → mget t.coh.dir L = some { e with dx := false })))

/-- R181, R184, R187, R189, R525, Table 07.4. A grant with data fills the line, E or S, for the request that waits, and serves it: a read receives its bytes, a write leaves the line M with its bytes merged. A grant with BUS_ERROR or POISON fills nothing: a
read receives the status with what data came, a write goes to the home as a write that does not cache. A write-back of the recorded holder enters the system cache marked dirty and the entry becomes DI; any other is discarded and counted in TRB4; each is answered by a CACK, which ends it at the die cache. -/
def Obligations.GrantsAndWriteBacks : Prop :=
  ∀ (m : Fin 8) (line : LineAddr) (s : State),
    let L := line.toNat
    let sl := homeSlice L
    let ch := chKey m sl
    let key := dcKey m L
    let me : Byte := (1 : Byte) <<< m.val
    (∀ (excl : Bool) (d : Line) (rest : List HomeMsg) (q : DcReq), mgetD [] s.coh.homeCh ch = HomeMsg.cgnt L excl (some d) .ok :: rest →
      s.cohWaits (.home ch) = false → s.coh.wait = [(key, [q])] → s.dcLine m L = none → mget s.coh.held key = none →
      (q.typ = .rd ∨ (q.typ = .wr ∧ excl = true)) →
      ∃ t, exec (.cgnt m line) s = .next t ∧ mgetD [] t.coh.homeCh ch = rest ∧ mget t.coh.crd key = none ∧ t.dcWait m L = [] ∧
        (∀ kind w, mget s.coh.crd key = some (kind, w) → t.dcLine m L = some (if q.typ = .rd then ⟨if excl then .e else .s, d, 0, 0, q.kid, q.tid, w⟩
          else ⟨.m, mergeLanes 8 64 q.bytes d q.r.data, 0, 0, q.kid, q.tid, w⟩)) ∧
        mgetD [] t.fab.rsp (8 * m.val + q.port) = mgetD [] s.fab.rsp (8 * m.val + q.port) ++
          [(⟨false, q.r.tag, .ok, if q.typ = .rd then mergeLanes 8 64 q.bytes 0 d else 0⟩ : PortRsp)]) ∧
    (∀ (d : Option Line) (st : Status) (rest : List HomeMsg) (q : DcReq), mgetD [] s.coh.homeCh ch = HomeMsg.cgnt L false d st :: rest → st ≠ .ok →
      s.cohWaits (.home ch) = false → s.coh.wait = [(key, [q])] → mget s.coh.held key = none →
      (q.typ = .rd → ∃ t, exec (.cgnt m line) s = .next t ∧ t.dcLine m L = none ∧ t.dcWait m L = [] ∧
        mgetD [] t.fab.rsp (8 * m.val + q.port) = mgetD [] s.fab.rsp (8 * m.val + q.port) ++
          [(⟨false, q.r.tag, st, mergeLanes 8 64 q.bytes 0 (d.getD 0)⟩ : PortRsp)]) ∧
      (q.typ = .wr → ∃ t, exec (.cgnt m line) s = .next t ∧ t.dcLine m L = none ∧ t.dcWait m L = [] ∧ t.fab.rsp = s.fab.rsp ∧
        t.coh.passed = s.coh.passed ++ [(dcKey m q.line, q.port, false)])) ∧
    (∀ (d : Line) (poison : Bool) (kid : BitVec 10) (tid : BitVec 9) (rest : List DcMsg),
      mgetD [] s.coh.dcCh ch = DcMsg.cwb L d poison kid tid :: rest → s.cohWaits (.dc ch) = false → s.trk L = [] →
      (∀ e l, mget s.coh.dir L = some e → e.dx = true → e.pres = me → mget s.coh.sc L = some l → ∃ t, exec (.cwb m line) s = .next t ∧
        mget t.coh.dir L = none ∧ mget t.coh.sc L = some { l with data := d, syn := 0, tagSyn := 0, kid := kid, dirty := true, poison := poison } ∧
        mgetD [] t.coh.homeCh ch = mgetD [] s.coh.homeCh ch ++ [HomeMsg.cack L] ∧ { t with coh := s.coh, rings := s.rings } = s) ∧
      ((∀ e, mget s.coh.dir L = some e → e.dx = false ∨ e.pres ≠ me) → ∃ t, exec (.cwb m line) s = .next t ∧
        t.coh.dir = s.coh.dir ∧ t.coh.sc = s.coh.sc ∧ mgetD [] t.coh.homeCh ch = mgetD [] s.coh.homeCh ch ++ [HomeMsg.cack L] ∧
        (s.fld (Pg.sc sl) (Fld.PG_TRB_CNT 4) < 0xFFFF → t.fld (Pg.sc sl) (Fld.PG_TRB_CNT 4) = s.fld (Pg.sc sl) (Fld.PG_TRB_CNT 4) + 1))) ∧
    (∀ rest, mgetD [] s.coh.homeCh ch = HomeMsg.cack L :: rest → s.cohWaits (.home ch) = false → s.coh.wait = [] → s.dcState m ≠ 2 →
      ∃ t, exec (.cack m line) s = .next t ∧ { t with regs := s.regs, coh := s.coh, rings := s.rings } = s ∧ mgetD [] t.coh.homeCh ch = rest ∧ key ∉ t.coh.cwbOut ∧ t.coh.dc = s.coh.dc)

/-- R189 to R193, Table 07.5. DC_CTRL.FLUSH starts a write-back; its walk sends a CWB for each M line, drops every line and sends DCLR to each slice; a slice on DCLR shows its walk and clears the die's presence bits, until the walk ends. DIE_LOST poisons a line
recorded DX for the die and clears its entry, counted in TRB5. A range operation whose lines no cache holds and no request names sets BUSY with STATUS 0; BUSY clears when no line is open. -/
def Obligations.WalksAndMaintenance : Prop :=
  ∀ (a : Agent) (m : Fin 8) (sl : Fin 32) (s : State),
    let me : Byte := (1 : Byte) <<< m.val
    let word (pg off : Nat) (l : List (Fld × Nat)) : Word := withFlds (s.rwWord pg off) l
    let walk := s.fld (Pg.sc sl) Fld.SC_SC_STAT_WALK
    (Accepts s a.toNat (Pg.dc m) Reg.DC_DC_CTRL (word (Pg.dc m) Reg.DC_DC_CTRL [(Fld.DC_DC_CTRL_FLUSH, 1)]) →
      ∃ t, exec (.dieCacheFlush a m) s = .next t ∧ t.dcState m = 2 ∧ t.coh = s.coh) ∧
    (s.dcState m = 2 → m.val ∉ s.coh.dclrSent → (∀ e ∈ s.coh.crd, e.1 / 2 ^ 42 ≠ m.val) → (∀ e ∈ s.coh.passed, e.2.2 = false) → ∃ t, exec (.writeBackWalkEnd m) s = .next t ∧
      (∀ e ∈ t.coh.dc, e.1 / 2 ^ 42 ≠ m.val) ∧ m.val ∈ t.coh.dclrSent ∧ (∀ n : Fin 32, (mgetD [] t.coh.dcCh (chKey m n)).getLast? = some .dclr) ∧
      (∀ L l, KMap.sorted s.coh.dc → L < 2 ^ 42 → s.dcLine m L = some l → l.st = .m → l.syn = 0 → l.tagSyn = 0 →
        DcMsg.cwb L l.data false l.kid l.tid ∈ mgetD [] t.coh.dcCh (chKey m (homeSlice L)))) ∧
    (∀ rest, mgetD [] s.coh.dcCh (chKey m sl) = DcMsg.dclr :: rest → s.cohWaits (.dc (chKey m sl)) = false → s.coh.trk = [] → ∃ t, exec (.dclr m sl) s = .next t ∧
      t.fld (Pg.sc sl) Fld.SC_SC_STAT_WALK = walk ||| 2 ^ m.val ∧ mgetD [] t.coh.dcCh (chKey m sl) = rest ∧
      (∀ L e, KMap.sorted s.coh.dir → homeSlice L = sl.val → mget s.coh.dir L = some e → e.pres.getLsbD m = true →
        mget t.coh.dir L = if e.pres &&& ~~~me = 0 then none else some { e with pres := e.pres &&& ~~~me })) ∧
    (walk.testBit m = true → s.dcState m ≠ 2 → (∀ e ∈ s.coh.heldCrd, e.1 ≠ m.val) → ∃ t, exec (.clearingWalkEnd m sl) s = .next t ∧
      { t with regs := s.regs } = s ∧ t.fld (Pg.sc sl) Fld.SC_SC_STAT_WALK = walk - 2 ^ m.val) ∧
    (∀ L e l, Accepts s a.toNat Pg.dir Reg.DIR_DIE_LOST (word Pg.dir Reg.DIR_DIE_LOST [(Fld.DIR_DIE_LOST_LOST, 2 ^ m.val)]) → s.coh.trk = [] →
      s.coh.dir = [(L, e)] → e.dx = true → e.pres = me → mget s.coh.sc L = some l → ∃ t, exec (.dieLost a (BitVec.ofNat 8 (2 ^ m.val))) s = .next t ∧
        t.coh.dir = [] ∧ mget t.coh.sc L = some { l with dirty := true, poison := true } ∧
        (s.fld (Pg.sc (homeSlice L)) (Fld.PG_TRB_CNT 5) < 0xFFFF →
          t.fld (Pg.sc (homeSlice L)) (Fld.PG_TRB_CNT 5) = s.fld (Pg.sc (homeSlice L)) (Fld.PG_TRB_CNT 5) + 1)) ∧
    (∀ (flush : Bool), Accepts s a.toNat Pg.dir Reg.DIR_CMO_CTRL
        (word Pg.dir Reg.DIR_CMO_CTRL [(Fld.DIR_CMO_CTRL_OP, flush.toNat), (Fld.DIR_CMO_CTRL_START, 1)]) →
      s.slotCheck true (s.fld Pg.dir Fld.DIR_CMO_BASE_HI_KID) 0 = none → s.cmoRange.1 + s.cmoRange.2 ≤ hbmLines →
      (∀ L, s.cmoRange.1 ≤ L → L < s.cmoRange.1 + s.cmoRange.2 → (∀ e ∈ s.coh.sc, e.1 ≠ L) ∧ (∀ e ∈ s.coh.dir, e.1 ≠ L) ∧ ∀ e ∈ s.coh.trk, e.1 ≠ L) → s.coh.rangeLeft = [] →
      ∃ t, exec (if flush then .rangeCmoFlush a else .rangeCmoClean a) s = .next t ∧ { t with regs := s.regs } = s ∧
        t.fld Pg.dir Fld.DIR_CMO_CTRL_BUSY = 1 ∧ t.fld Pg.dir Fld.DIR_CMO_CTRL_STATUS = 0) ∧
    (s.fld Pg.dir Fld.DIR_CMO_CTRL_BUSY = 1 → s.coh.rangeLeft = [] → (∀ e ∈ s.coh.trk, ∀ k ∈ e.2, k.asker ≠ .dirUnit) → ∃ t, exec .rangeCmoEnd s = .next t ∧
      { t with regs := s.regs } = s ∧ t.fld Pg.dir Fld.DIR_CMO_CTRL_BUSY = 0)

/-- R202 to R206, R214, R215. A line of the read queue takes its queued codeword, is decoded and decrypted and answers the request; while its controller does not serve, nothing happens. A line that leaves its home is encrypted under its key ID, encoded, and is
what the controller then holds for the line, queued or stored; a full queue takes none. A noted correction is written back while CORR_WB is 1, not in raw mode. A bank that idles is closed, and the neighbours of a marked aggressor are refreshed and counted in TRB4, each an ACT that may mark it while NREF.EN is 1. -/
def Obligations.DramLines : Prop :=
  ∀ (line : LineAddr) (c j : Nat) (s : State),
    let L := line.toNat
    let st := s.cb c Fld.CB_CB_STAT_STATE
    let held : State → Option DramLine := fun t => match (mgetD [] t.dram.wq c).find? fun e => e.1 == j with
      | some e => some e.2
      | none => mget t.dram.line (dramKey c j)
    s.dramPlace L = some (c, j) →
    (s.cbServes c = false → exec (.dramRead line) s = .next s) ∧
    (∀ (k : Tracker) (key : TxnKey) (x : Txn) (d : Line), s.coh.trk = [(L, [k])] → s.coh.rangeLeft = [] → k.phase = .dram → k.op = .rd → k.asker = .txn key →
      s.txn key = some x → x.phase = .delivered → s.pathOpen x.dst key.src (s.route x.dst key.src) = true → s.wbPending L = false → L ∈ s.reads c → s.cbServes c = true →
      (mgetD [] s.dram.wq c).find? (fun e => e.1 == j) = some (j, ⟨d, 0, false⟩) → ∃ t, exec (.dramRead line) s = .next t ∧ t.trk L = [] ∧
        (let data := mergeLanes 8 64 (accBytes k.len k.ofs k.be) 0 (s.lineDec k.kid.toNat L d)
         t.txn key = some { x with phase := .answered .ok (if x.typ = .rd then placed x.len (x.addr.toNat % 64) data else 0), aseq := s.rings.seq, ringBack := s.route x.dst key.src })) ∧
    (∀ w, s.coh.wb.find? (fun w => w.line == L) = some w → s.coh.trk = [] → s.coh.rangeLeft = [] → st ≠ 5 → st ≠ 6 →
      ((mgetD [] s.dram.wq c).length < 64 → (w.kid = 0 ∨ s.slotState w.kid.toNat ≠ 0) → ∃ t, exec (.dramWrite line) s = .next t ∧
        held t = some ⟨s.lineEnc w.kid.toNat L w.data, 0, w.poison⟩ ∧ t.coh.wb = s.coh.wb.erase w) ∧
      (64 ≤ (mgetD [] s.dram.wq c).length → (∀ e ∈ mgetD [] s.dram.wq c, e.1 ≠ j) → exec (.dramWrite line) s = .next s)) ∧
    (∀ l, mget s.dram.corr (dramKey c j) = some l → s.cbServes c = true → s.cb c Fld.CB_ECC_CTRL_CORR_WB = 1 →
      s.isRaw (if c < 128 then 0xB else 0xC) (if c < 128 then c else c - 128) 0 = false →
      ∃ t, exec (.dramCorrectedWriteBack line) s = .next t ∧ mget t.dram.line (dramKey c j) = some l ∧ mget t.dram.corr (dramKey c j) = none) ∧
    (∀ (ct : Fin 136) (b : Fin 96), mget s.dram.openRow (bankKey ct b) = none → exec (.rowIdleTimeout ct b) s = .next s) ∧
    (∀ (ct : Fin 136) (b : Fin 96) (row : Nat), mget s.dram.openRow (bankKey ct b) = some row →
      (mget s.dram.aggr (bankKey ct b) = none → ∃ t, exec (.rowIdleTimeout ct b) s = .next t ∧ { t with dram := s.dram } = s ∧
        mget t.dram.openRow (bankKey ct b) = none) ∧
      (∀ r, mget s.dram.aggr (bankKey ct b) = some r → ct.val < 128 → s.cb ct Fld.CB_NREF_DIST = 0 →
        let p := s.physRow ct r
        let n := (if 1 ≤ p ∧ p - 1 < 16384 then 1 else 0) + (if p + 1 < 16384 then 1 else 0)
        let before := s.fld (cbPage ct) (Fld.PG_TRB_CNT 4)
        before + 32 < 0xFFFF → ∃ t, exec (.rowIdleTimeout ct b) s = .next t ∧
          mget t.dram.openRow (bankKey ct b) = none ∧ mget t.dram.aggr (bankKey ct b) = none ∧ before + n ≤ t.fld (cbPage ct) (Fld.PG_TRB_CNT 4) ∧
          (s.cb ct Fld.CB_NREF_EN = 0 → t.fld (cbPage ct) (Fld.PG_TRB_CNT 4) = before + n)))

/-- R198, R201, R207 to R211, R527. A tREFI in an all-bank mode adds one to what each rank owes, up to POSTPONE_MAX + 1, but for one in self-refresh, and PENDING shows the most that a rank owes (log 138); a refresh takes one of a rank that owes more than POSTPONE_MAX (forced, TRB3) or that owes any and has no queued request, and closes its banks; one of the
per-bank mode closes the next bank. MR4 sets TEMP_2X of a DDR5 controller; a rank without work enters power-down, then self-refresh with nothing owed; a controller that the loading image declares trains, the first DDR5 one taking CH_CFG and ILV into force, and becomes ready, or FAILED with FAIL_STEP and TRAIN_FAIL; a retraining records its RESULT, a failed one counts in TRB5. -/
def Obligations.DramUpkeep : Prop :=
  ∀ (a : Agent) (c : Fin 136) (s : State),
    let st := s.cb c Fld.CB_CB_STAT_STATE
    let top := s.cb c Fld.CB_REF_POSTPONE_MAX
    let pg := cbPage c
    let n := mgetD 0 s.dram.refBank c
    let counted : Nat → State → Prop := fun k t => s.fld pg (Fld.PG_TRB_CNT k) < 0xFFFF → t.fld pg (Fld.PG_TRB_CNT k) = s.fld pg (Fld.PG_TRB_CNT k) + 1
    let closed : State → Prop := fun t => ∀ e ∈ t.dram.openRow, e.1 / 128 ≠ c.val
    let noted : State → Prop := fun t => { t with regs := s.regs, dram := s.dram, out := s.out, msixPend := s.msixPend, free := s.free } = s
    (s.cbRuns c = false → exec (.refreshTick c) s = .next s ∧ exec (.refresh c) s = .next s) ∧
    (s.cbRuns c = true → s.cb c Fld.CB_REF_MODE ≠ 2 → s.owes c 0 ≤ 9 → s.owes c 1 ≤ 9 → top ≤ 8 → ∃ t, exec (.refreshTick c) s = .next t ∧
      { t with regs := s.regs, dram := s.dram } = s ∧ (∀ r < s.rankCount c,
        t.owes c r = if mget s.dram.rankPd (2 * c.val + r) = some 2 then s.owes c r else min (s.owes c r + 1) (top + 1)) ∧
      (mget s.dram.rankPd (2 * c.val) ≠ some 2 → t.cb c Fld.CB_REF_PENDING = max (t.owes c 0) (t.owes c 1))) ∧
    (s.cbRuns c = true → s.cb c Fld.CB_REF_MODE ≠ 2 → ∃ t, exec (.refresh c) s = .next t ∧ noted t ∧ (∀ r < s.rankCount c,
        t.owes c r = if top < s.owes c r ∨ s.rankBusy c r = false then s.owes c r - 1 else s.owes c r) ∧
      (c.val < 128 → s.owes c 0 ≠ 0 → (top < s.owes c 0 → closed t ∧ counted 3 t) ∧
        (s.owes c 0 ≤ top → s.rankBusy c 0 = false → closed t ∧ t.fld pg (Fld.PG_TRB_CNT 3) = s.fld pg (Fld.PG_TRB_CNT 3)))) ∧
    (c.val < 128 → s.cbRuns c = true → st ≠ 4 → s.cb c Fld.CB_REF_MODE = 2 → ∃ t, exec (.refresh c) s = .next t ∧ noted t ∧
      mget t.dram.openRow (bankKey c (n % 48)) = none ∧ mgetD 0 t.dram.refBank c = (n + 1) % 48) ∧
    (∀ d : Bool, 128 ≤ c.val → s.cbServes c = true → ∃ t, exec (.mr4Poll c d) s = .next t ∧ { t with regs := s.regs } = s ∧
      t.cb c Fld.CB_REF_TEMP_2X = d.toNat) ∧
    (c.val < 128 → mget s.dram.rankPd (2 * c.val) = none → s.cbServes c = true → s.cb c Fld.CB_PWR_POL_PD_NS ≠ 0 → s.rankBusy c 0 = false → s.owes c 0 = 0 →
      ∃ t, exec (.powerDownEntry c 0) s = .next t ∧ mget t.dram.rankPd (2 * c.val) = some 1 ∧ t.cb c Fld.CB_CB_STAT_STATE = 3 ∧ closed t ∧ noted t) ∧
    (c.val < 128 → mget s.dram.rankPd (2 * c.val) = some 1 → s.cb c Fld.CB_PWR_POL_SR_US ≠ 0 → s.owes c 1 = 0 → ∃ t, exec (.selfRefreshEntry c 0) s = .next t ∧
      mget t.dram.rankPd (2 * c.val) = some 2 ∧ t.cb c Fld.CB_CB_STAT_STATE = 4 ∧ t.cb c Fld.CB_REF_PENDING = 0 ∧ t.owes c 0 = 0 ∧ noted t) ∧
    (st ≠ 0 ∨ s.boot.loading = none → exec (.initialTraining c) s = .next s) ∧
    (c.val < 128 → st = 0 → s.boot.loading ≠ none → s.unitUsed (88 + c.val / 32) = true → ∃ t, exec (.initialTraining c) s = .next t ∧ { t with regs := s.regs } = s ∧
      t.cb c Fld.CB_CB_STAT_STATE = 1 ∧ t.fld (Pg.hbmStk (c.val / 32)) Fld.STK_STK_STAT_STATE = 1 ∧
      t.fld (Pg.hbmStk (c.val / 32)) Fld.STK_STK_STAT_RATE_ACT = s.fld (Pg.hbmStk (c.val / 32)) Fld.STK_SPEED_RATE) ∧
    (128 ≤ c.val → s.boot.loading ≠ none → s.unitUsed (92 + (c.val - 128) / 2) = true → s.fld (Pg.ddrCtl ((c.val - 128) / 2)) Fld.DDR_CH_CFG_POP ≠ 0 →
      (∀ i < 8, s.cb (128 + i) Fld.CB_CB_STAT_STATE = 0) → ∃ t, exec (.initialTraining c) s = .next t ∧ { t with regs := s.regs, dram := s.dram } = s ∧
        t.cb c Fld.CB_CB_STAT_STATE = 1 ∧ t.dram.ilv = s.fld (Pg.ddrCtl 0) Fld.DDR_ILV_SET ∧ ∀ ch < 4, t.chCfg ch = s.reg (Pg.ddrCtl ch) Reg.DDR_CH_CFG) ∧
    (∀ (f : Fin 9) (sp rep : BitVec 8), st = 1 →
      let step := if 128 ≤ c.val ∧ Config.ddrFittedRanks ((c.val - 128) / 2) < s.rankCount c then 3 else f.val
      ∃ t, exec (.dramTrainingEnd c f sp rep) s = .next t ∧
      (step = 0 → t.cb c Fld.CB_CB_STAT_STATE = 2) ∧
      (step ≠ 0 → t.cb c Fld.CB_CB_STAT_STATE = 5 ∧ t.fld pg Evt.DDR_TRAIN_FAIL = 1 ∧
        (c.val < 128 → t.fld (Pg.hbmStk (c.val / 32)) Fld.STK_STK_STAT_FAIL_STEP = step) ∧
        (128 ≤ c.val → t.fld (Pg.ddrCtl ((c.val - 128) / 2)) Fld.DDR_CH_STAT_FAIL_STEP = step))) ∧
    (∀ (ok : Bool) (n : Fin 8), st = 2 ∨ st = 3 → s.cb c Fld.CB_TRAIN_BUSY = 1 → ∃ t, exec (.periodicTraining c ok n) s = .next t ∧
      t.cb c Fld.CB_TRAIN_BUSY = 0 ∧ t.cb c Fld.CB_TRAIN_RESULT = (if ok then 1 else 2) ∧ closed t ∧ (ok = false → counted 5 t ∧ t.fld pg Evt.DDR_TRAIN_FAIL = 1) ∧
      (ok = true → t.fld pg (Fld.PG_TRB_CNT 5) = s.fld pg (Fld.PG_TRB_CNT 5))) ∧
    (Accepts s a.toNat pg (cbBase c + Reg.CB_TRAIN) (withFlds (s.rwWord pg (cbBase c + Reg.CB_TRAIN)) [(Fld.CB_TRAIN_START, 1)]) →
      ∃ t, exec (.trainStart a c) s = .next t ∧ { t with regs := s.regs } = s ∧ t.cb c Fld.CB_TRAIN_BUSY = if s.cbRuns c then 1 else s.cb c Fld.CB_TRAIN_BUSY)

/-- R229 to R235, Tables 09.4 and 09.5. A load gives its RESULT, clears the WRAP registers, and takes the slot to LOADED with its class and key pair, or counts in IME.TRB4. ACTIVATE and DISABLE are accepted at once and take effect at the next edge: ACTIVE, ROTATING; DISABLE starts
the purge. The purge waits, then walks die caches and slices, drops every line of the key ID, and ends with the keys zeroised and the slot EMPTY; the purge of a slot that was LOADED ends after its wait. -/
def Obligations.KeyStore : Prop :=
  ∀ (a : Agent) (k : Fin 1024) (m : Fin 8) (s : State),
    let cfg := Reg.SLT_CFG (k.val % 256)
    let word (pg off : Nat) (l : List (Fld × Nat)) : Word := withFlds (s.rwWord pg off) l
    let phase := s.fld Pg.ime Fld.IME_PURGE_STAT_PHASE
    let slot := s.fld Pg.key Fld.KEY_LOAD_CTRL_SLOT
    let ended : State → Prop := fun t => t.slotState k = 0 ∧ mget t.keys.pair k = none ∧ t.keys.purge = none ∧
      t.fld Pg.ime Fld.IME_PURGE_STAT_BUSY = 0 ∧ t.fld Pg.ime Fld.IME_PURGE_STAT_PHASE = 0 ∧ t.fld Pg.ime Evt.IME_PURGED = 1
    (Accepts s a.toNat Pg.key Reg.KEY_LOAD_CTRL (word Pg.key Reg.KEY_LOAD_CTRL [(Fld.KEY_LOAD_CTRL_SLOT, k), (Fld.KEY_LOAD_CTRL_START, 1)]) →
      ∃ t, exec (.keyLoad a k) s = .next t ∧ { t with regs := s.regs } = s ∧ t.fld Pg.key Fld.KEY_LOAD_STAT_BUSY = 1 ∧ t.fld Pg.key Fld.KEY_LOAD_CTRL_SLOT = k) ∧
    (s.fld Pg.key Fld.KEY_LOAD_STAT_BUSY = 1 → ∃ t, exec .keyLoadComplete s = .next t ∧ t.fld Pg.key Fld.KEY_LOAD_STAT_BUSY = 0 ∧
      t.fld Pg.key Fld.KEY_LOAD_STAT_RESULT = (s.loadResult slot).1 % 8 ∧ (∀ w < 20, t.reg Pg.key (Reg.KEY_WRAP w) = 0) ∧
      (s.keys.kek = none → (s.loadResult slot).1 = 2) ∧ (s.keys.kek ≠ none → s.slotState slot ≠ 0 ∨ slot = 0 → (s.loadResult slot).1 = 3) ∧
      (∀ cls pair, (s.loadResult slot).2 = some (cls, pair) → t.slotState slot = 1 ∧ t.slotClass slot = cls % 4 ∧ mget t.keys.pair slot = some pair) ∧
      ((s.loadResult slot).2 = none → t.keys = s.keys ∧ t.slotState slot = s.slotState slot ∧
        (s.fld Pg.ime (Fld.PG_TRB_CNT 4) < 0xFFFF → t.fld Pg.ime (Fld.PG_TRB_CNT 4) = s.fld Pg.ime (Fld.PG_TRB_CNT 4) + 1))) ∧
    (Accepts s a.toNat (slotPg k) cfg (word (slotPg k) cfg [(Fld.SLT_CFG_CMD 0, 1)]) → ∃ t, exec (.activate a k) s = .next t ∧
      { t with regs := s.regs, keys := s.keys } = s ∧ t.keys = { s.keys with edge := s.keys.edge ++ [(k.val, false)] } ∧ t.slotState k = s.slotState k) ∧
    (Accepts s a.toNat (slotPg k) cfg (word (slotPg k) cfg [(Fld.SLT_CFG_CMD 0, 2)]) → ∃ t, exec (.disable a k) s = .next t ∧
      { t with regs := s.regs, keys := s.keys } = s ∧ t.keys.edge = s.keys.edge ++ [(k.val, true)] ∧ (∃ p, t.keys.purge = some p ∧ p.slot = k.val ∧ p.dies = []) ∧
      t.fld Pg.ime Fld.IME_PURGE_STAT_BUSY = 1 ∧ t.fld Pg.ime Fld.IME_PURGE_STAT_PHASE = 1 ∧ t.fld Pg.ime Fld.IME_PURGE_STAT_SLOT = k ∧ t.slotState k = s.slotState k) ∧
    (∀ off : Bool, s.keys.edge = [(k.val, off)] → (off = false → s.mayActivate k = true) → (off = true → s.slotState k = 1 ∨ s.slotState k = 2) →
      ∃ t, exec .slotStateEdge s = .next t ∧ { t with regs := s.regs, keys := s.keys } = s ∧ t.keys = { s.keys with edge := [] } ∧
        t.slotState k = if off then 3 else 2) ∧
    (∀ p, s.keys.purge = some p → p.slot = k.val →
      (phase = 1 → s.slotState k = 3 → s.trkUnder k = false → s.framesUnder k = false →
        (p.was = 1 ∨ p.mem = false → ∃ t, exec .purgeWaitEnd s = .next t ∧ ended t) ∧
        (p.was ≠ 1 → p.mem = true → ∃ t, exec .purgeWaitEnd s = .next t ∧ { t with regs := s.regs } = s ∧ t.fld Pg.ime Fld.IME_PURGE_STAT_PHASE = 2)) ∧
      (phase = 2 → m.val ∉ p.dies → ∃ t, exec (.purgeDieCacheWalkEnd m) s = .next t ∧ (∀ e ∈ t.coh.dc, e.1 / 2 ^ 42 = m.val → e.2.kid.toNat ≠ k.val) ∧
        (∃ q, t.keys.purge = some q ∧ q.slot = k.val ∧ m.val ∈ q.dies) ∧
        ((∀ n : Fin 8, n = m ∨ n.val ∈ p.dies) → t.fld Pg.ime Fld.IME_PURGE_STAT_PHASE = 3)) ∧
      (phase = 3 → s.coh.trk = [] → s.coh.rangeLeft = [] → s.coh.dcCh = [] → ∃ t, exec .purgeSliceWalkEnd s = .next t ∧ ended t ∧ ∀ e ∈ t.coh.sc, e.2.kid.toNat ≠ k.val))

/-- R38, R244 to R246. An upset of a powered die changes its frame; with PT_EN 1, outside loads and raw mode, an unflagged frame that holds no site memory contents is flagged, counted in TRB1 and in FRM_STAT.PENDING. The lowest flagged frame of the die whose turn it is leaves the flags, and FRM_LAST records it: corrected
(TRB2), reloaded from the active bank (TRB3; a die without a section holds zeros), unrecoverable where the host loaded the image (TRB4), or a false flag. -/
def Obligations.FrameUpsets : Prop :=
  ∀ (m : Fin 8) (f : Fin 131072) (s : State),
    let pg := Pg.eccF m
    let key := frameKey m f
    let pend := s.fld pg Fld.ECC_FRM_STAT_PENDING
    let counted : Nat → State → Prop := fun k t => s.fld pg (Fld.PG_TRB_CNT k) < 0xFFFF → t.fld pg (Fld.PG_TRB_CNT k) = s.fld pg (Fld.PG_TRB_CNT k) + 1
    (∀ (b : Fin 1920) (n : Fin 5), s.diePowered m = true →
      let hit : State → Prop := fun t => ∀ i < 1920, (t.frameFlips m f).getLsbD i = (s.frameFlips m f).getLsbD i ^^ (decide (b.val ≤ i) && decide (i < b.val + n.val))
      (s.fld pg Fld.ECC_FRM_CTRL_PT_EN = 0 → ∃ t, exec (.parityTreeFlag m f b n) s = .next t ∧ { t with integ := s.integ } = s ∧ t.integ.flags = s.integ.flags ∧ hit t) ∧
      (s.fld pg Fld.ECC_FRM_CTRL_PT_EN = 1 → s.unitLoading 9 m f = false → s.isRaw 9 m 0 = false → key ∉ s.integ.flags → key ∉ s.design.memFrames → pend < 131072 →
        ∃ t, exec (.parityTreeFlag m f b n) s = .next t ∧ hit t ∧ t.integ.flags = key :: s.integ.flags ∧ counted 1 t ∧
          t.fld pg Fld.ECC_FRM_STAT_PENDING = pend + 1) ∧
      (key ∈ s.design.memFrames → ∃ t, exec (.parityTreeFlag m f b n) s = .next t ∧ hit t ∧ { t with integ := s.integ } = s ∧ t.integ.flags = s.integ.flags)) ∧
    (s.frameTurn = some m.val → key ∈ s.integ.flags → (∀ k ∈ s.integ.flags, k / 131072 = m.val → key ≤ k) → 0 < pend →
      ∃ t, exec (.frameCorrection m) s = .next t ∧ t.integ.flags = s.integ.flags.filter (fun k => k ≠ key) ∧ t.fld pg Fld.ECC_FRM_STAT_PENDING = pend - 1 ∧
        t.fld pg Evt.ECC_FRAME = 1 ∧ t.fld pg Fld.ECC_FRM_LAST_VALID = 1 ∧ t.fld pg Fld.ECC_FRM_LAST_FRAME = f ∧
        (∀ left, (s.frameDecode m f).1 = .corrected left → t.fld pg Fld.ECC_FRM_LAST_OUTCOME = 1 ∧ t.frameFlips m f = left ∧
          t.frameLoaded m f = s.frameLoaded m f ∧ counted 2 t) ∧
        ((s.frameDecode m f).1 = .clean → t.fld pg Fld.ECC_FRM_LAST_OUTCOME = 4 ∧ t.frameFlips m f = s.frameFlips m f ∧ t.frameLoaded m f = s.frameLoaded m f) ∧
        (∀ img, (s.frameDecode m f).1 = .uncorrectable → s.boot.running = some img →
          (img.src ≠ 1 → img.src ≠ 2 → t.fld pg Fld.ECC_FRM_LAST_OUTCOME = 3 ∧ counted 4 t ∧ t.frameFlips m f = s.frameFlips m f ∧
            (s.alarms.length < 64 → ∃ r ∈ t.alarms, r.code = 4 ∧ r.page = pg)) ∧
          (img.src = 1 ∨ img.src = 2 → (∀ x ∈ img.sections, x.typ = 4 → x.target ≠ m.val) → t.fld pg Fld.ECC_FRM_LAST_OUTCOME = 2 ∧ counted 3 t ∧
            t.frameFlips m f = 0 ∧ t.frameLoaded m f = 0)))

/-- R248 to R253. An accepted START clears the summary and runs the pass over LENGTH units from START_IDX. A unit of lantern memory that decodes clean changes nothing but NEXT; one with a correction counts in CORR_CNT, and with WB = 1 is noted to be written back, which the engine's next turn does (log 139), unless the unit has been written since: then the correction is dropped and counted in TRB1 (R243); an uncorrectable one counts in UE_CNT and
is never written; FIRST_FAIL, LAST_FAIL and the lantern's TRB1 or TRB2 follow. The last unit ends the pass: DONE, or WAITING with REPEAT = 1. STOP and a timeout end it ENDED with their reason, counted in TRB0. A waiting pass starts again from START_IDX. -/
def Obligations.ScrubPasses : Prop :=
  ∀ (a : Agent) (k : Fin 8) (s : State),
    let pg := Pg.scrub k
    let ended : Nat → State → Prop := fun reason t => t.passState k = 3 ∧ t.fld pg Fld.SCR_PASS_STAT_REASON = reason ∧
      t.fld pg Fld.SCR_NEXT_INDEX = s.fld pg Fld.SCR_NEXT_INDEX ∧ t.fld pg Evt.SCR_PASS_END = 1 ∧ t.integ = s.integ ∧
      (s.fld pg (Fld.PG_TRB_CNT 0) < 0xFFFF → t.fld pg (Fld.PG_TRB_CNT 0) = s.fld pg (Fld.PG_TRB_CNT 0) + 1)
    (∀ v : Word, let w := withFlds v [(Fld.SCR_SCR_CTRL_START, 1), (Fld.SCR_SCR_CTRL_STOP, 0)]
      Accepts s a.toNat pg Reg.SCR_SCR_CTRL w →
      ∃ t, exec (.scrubStart a k v) s = .next t ∧ { t with regs := s.regs, integ := s.integ } = s ∧ t.passState k = 1 ∧ t.fld pg Fld.SCR_PASS_STAT_REASON = 0 ∧
        mget t.integ.passes k = some ⟨wf v Fld.SCR_SCR_CTRL_TARGET, wf v Fld.SCR_SCR_CTRL_INSTANCE, s.fld pg Fld.SCR_START_IDX_INDEX, s.fld pg Fld.SCR_LENGTH_UNITS⟩ ∧
        t.fld pg Fld.SCR_NEXT_INDEX = s.fld pg Fld.SCR_START_IDX_INDEX ∧
        ∀ r ∈ [Reg.SCR_CORR_CNT, Reg.SCR_UE_CNT, Reg.SCR_FIRST_FAIL, Reg.SCR_LAST_FAIL, Reg.SCR_WORST], t.reg pg r = 0) ∧
    (s.passState k = 1 → Accepts s a.toNat pg Reg.SCR_SCR_CTRL (withFlds (s.rwWord pg Reg.SCR_SCR_CTRL) [(Fld.SCR_SCR_CTRL_STOP, 1)]) →
      ∃ t, exec (.scrubStop a k) s = .next t ∧ ended 1 t) ∧
    (s.passState k = 1 → ∃ t, exec (.scrubTimeout k) s = .next t ∧ ended 3 t) ∧
    (∀ p, mget s.integ.passes k = some p → s.passState k = 4 → ∃ t, exec (.scrubRepeat k) s = .next t ∧ { t with regs := s.regs } = s ∧
      (s.fld pg Fld.SCR_SCR_CTRL_REPEAT = 0 → t.passState k = 2) ∧
      (s.fld pg Fld.SCR_SCR_CTRL_REPEAT = 1 → t.passState k = 1 ∧ t.fld pg Fld.SCR_NEXT_INDEX = p.start % 2 ^ 32 ∧
        t.reg pg Reg.SCR_CORR_CNT = s.reg pg Reg.SCR_CORR_CNT ∧ t.reg pg Reg.SCR_UE_CNT = s.reg pg Reg.SCR_UE_CNT)) ∧
    (∀ (l : Fin 24) (start len : Nat), mget s.integ.passes k = some ⟨3, l, start, len⟩ → s.passState k = 1 → s.targetOff 3 l = false → mget s.integ.scrubFix k = none →
      let idx := s.fld pg Fld.SCR_NEXT_INDEX
      let w := s.lanWord l idx
      let bump : Nat → State → Prop := fun c t => s.fld (Pg.lan l) (Fld.PG_TRB_CNT c) < 0xFFFF →
        t.fld (Pg.lan l) (Fld.PG_TRB_CNT c) = s.fld (Pg.lan l) (Fld.PG_TRB_CNT c) + 1
      ∃ t, exec (.scrubUnit k) s = .next t ∧ t.fld pg Fld.SCR_NEXT_INDEX = (idx + 1) % 2 ^ 32 ∧ { t with regs := s.regs, integ := s.integ, out := s.out, msixPend := s.msixPend } = s ∧
        { t.integ with scrubFix := s.integ.scrubFix } = s.integ ∧
        (w.decode = .clean → t.integ = s.integ ∧ t.reg pg Reg.SCR_CORR_CNT = s.reg pg Reg.SCR_CORR_CNT ∧ t.reg pg Reg.SCR_UE_CNT = s.reg pg Reg.SCR_UE_CNT) ∧
        (∀ d, w.decode = .corrected d → (s.reg pg Reg.SCR_CORR_CNT).toNat < 2 ^ 32 - 1 →
          t.reg pg Reg.SCR_CORR_CNT = s.reg pg Reg.SCR_CORR_CNT + 1 ∧ t.reg pg Reg.SCR_UE_CNT = s.reg pg Reg.SCR_UE_CNT ∧ bump 1 t ∧
          t.fld pg Fld.SCR_LAST_FAIL_INDEX = idx ∧
          mget t.integ.scrubFix k = if s.fld pg Fld.SCR_SCR_CTRL_WB = 1 then some ⟨3, l.val, idx, [(w.data.toNat, w.syn.toNat)], [(d, 0)]⟩ else none) ∧
        (w.decode = .uncorrectable → (s.reg pg Reg.SCR_UE_CNT).toNat < 2 ^ 32 - 1 →
          t.reg pg Reg.SCR_UE_CNT = s.reg pg Reg.SCR_UE_CNT + 1 ∧ t.reg pg Reg.SCR_CORR_CNT = s.reg pg Reg.SCR_CORR_CNT ∧ bump 2 t ∧
          (s.reg pg Reg.SCR_CORR_CNT = 0 → s.reg pg Reg.SCR_UE_CNT = 0 → t.fld pg Fld.SCR_FIRST_FAIL_INDEX = idx) ∧
          t.fld pg Fld.SCR_WORST_UE = 1 ∧ t.integ = s.integ) ∧
        (idx + 1 < start + len → t.passState k = 1) ∧
        (start + len ≤ idx + 1 → t.fld pg Evt.SCR_PASS_END = 1 ∧ t.passState k = if s.fld pg Fld.SCR_SCR_CTRL_REPEAT = 1 then 4 else 2)) ∧
    (∀ (l : Fin 24) (idx d : Nat) (w : EccWord) (p : ScrubPass), mget s.integ.passes k = some p → s.passState k ≠ 1 → s.targetOff 3 l = false →
      mget s.integ.scrubFix k = some ⟨3, l.val, idx, [(w.data.toNat, w.syn.toNat)], [(d, 0)]⟩ → ∃ t, exec (.scrubUnit k) s = .next t ∧ mget t.integ.scrubFix k = none ∧
        (s.lanWord l idx = w → t.lanWord l idx = ⟨BitVec.ofNat 64 d, 0⟩ ∧ t.regs = s.regs) ∧
        (s.lanWord l idx ≠ w → t.engs = s.engs ∧
          (s.fld pg (Fld.PG_TRB_CNT 1) < 0xFFFF → t.fld pg (Fld.PG_TRB_CNT 1) = s.fld pg (Fld.PG_TRB_CNT 1) + 1)))

/-- R254 to R258, R261, R262. An accepted raw operation that can start is done at once, RESULT done: ENTER and EXIT put the memory into raw mode and take it out; READ, WRITE and ENCODE are stated for a word of lantern memory: its data and stored check bits; a raw operation that could not start ends with
TIMEOUT, without effect, counted in TRB0. ADD appends the entry; COMMIT appends the runtime repairs that the list does not hold; WRITE replaces the older copy, which is valid once verified; a failed verify counts in TRB2. -/
def Obligations.RawAccessAndRepair : Prop :=
  ∀ (a : Agent) (p : Fin 10) (s : State),
    let pg := eccPage p
    let tgt := s.rawTarget pg
    let inst := s.rawInst pg
    let idx := s.rawIdx pg
    let mem := (tgt, inst, rawMem tgt idx)
    let may (op : Nat) : Prop := Accepts s a.toNat pg Reg.ECC_RAW_CTRL (withFlds (s.rwWord pg Reg.ECC_RAW_CTRL) [(Fld.ECC_RAW_CTRL_OP, op)]) ∧ s.rawReady pg op = true
    let done : State → Prop := fun t => t.fld pg Fld.ECC_RAW_CTRL_BUSY = 0 ∧ t.fld pg Fld.ECC_RAW_CTRL_RESULT = 1 ∧ { t with regs := s.regs, integ := s.integ, engs := s.engs, fab := s.fab, dram := s.dram, free := s.free } = s
    let w := s.lanWord inst idx
    let data := (s.reg pg (Reg.ECC_RAW_DATA 1)).toNat * 2 ^ 32 + (s.reg pg (Reg.ECC_RAW_DATA 0)).toNat
    let list (op : Nat) : Prop := Accepts s a.toNat Pg.repair Reg.REP_LIST_CTRL (withFlds (s.rwWord Pg.repair Reg.REP_LIST_CTRL) [(Fld.REP_LIST_CTRL_OP, op)])
    (may 1 → ∃ t, exec (.rawEnter a p) s = .next t ∧ done t ∧ t.engs = s.engs ∧ mem ∈ t.integ.rawMode ∧ ∀ e, e ≠ mem → (e ∈ t.integ.rawMode ↔ e ∈ s.integ.rawMode)) ∧
    (may 2 → ∃ t, exec (.rawExit a p) s = .next t ∧ done t ∧ t.engs = s.engs ∧ mem ∉ t.integ.rawMode ∧ ∀ e, e ≠ mem → (e ∈ t.integ.rawMode ↔ e ∈ s.integ.rawMode)) ∧
    (may 3 → tgt = 3 → ∃ t, exec (.rawRead a p) s = .next t ∧ done t ∧ t.engs = s.engs ∧
      t.reg pg (Reg.ECC_RAW_DATA 0) = w.data.setWidth 32 ∧ t.reg pg (Reg.ECC_RAW_DATA 1) = (w.data >>> 32).setWidth 32 ∧
      fieldOf (t.reg pg (Reg.ECC_RAW_CHK 0)) 0 8 = (w.syn.toNat ^^^ eccCheck 64 8 w.data.toNat) % 256) ∧
    (may 4 → tgt = 3 → ∃ t, exec (.rawWrite a p) s = .next t ∧ done t ∧ t.integ.rawMode = s.integ.rawMode ∧
      t.lanWord inst idx = ⟨BitVec.ofNat 64 data, BitVec.ofNat 8 (fieldOf (s.reg pg (Reg.ECC_RAW_CHK 0)) 0 8 ^^^ eccCheck 64 8 data)⟩) ∧
    (may 5 → tgt = 3 → ∃ t, exec (.rawEncode a p) s = .next t ∧ done t ∧ t.engs = s.engs ∧ t.integ.rawMode = s.integ.rawMode ∧
      fieldOf (t.reg pg (Reg.ECC_RAW_CHK 0)) 0 8 = eccCheck 64 8 data % 256) ∧
    (∀ j, mget s.integ.rawOp pg = some j → s.rawReadyAt j = false → ∃ t, exec (.rawTimeout p) s = .next t ∧ mget t.integ.rawOp pg = none ∧
      t.integ.rawMode = s.integ.rawMode ∧ t.fld pg Fld.ECC_RAW_CTRL_BUSY = 0 ∧ t.fld pg Fld.ECC_RAW_CTRL_RESULT = 2 ∧
      (s.fld pg (Fld.PG_TRB_CNT 0) < 0xFFFF → t.fld pg (Fld.PG_TRB_CNT 0) = s.fld pg (Fld.PG_TRB_CNT 0) + 1)) ∧
    (list 1 → ∃ t, exec (.addEntry a) s = .next t ∧ t.fld Pg.repair Fld.REP_LIST_CTRL_RESULT = 1 ∧
      t.integ.staged = s.integ.staged ++ [s.reg Pg.repair Reg.REP_ENTRY_HI ++ s.reg Pg.repair Reg.REP_ENTRY_LO] ∧ { t with regs := s.regs, integ := s.integ } = s) ∧
    (list 2 → ∃ t, exec (.commit a) s = .next t ∧ t.fld Pg.repair Fld.REP_LIST_CTRL_RESULT = 1 ∧ { t with regs := s.regs, integ := s.integ } = s ∧
      s.integ.staged <+: t.integ.staged ∧ (∀ e ∈ t.integ.staged, e ∈ s.integ.staged ∨ e ∈ s.integ.runtime) ∧
      (s.integ.staged.length + s.integ.runtime.length ≤ 512 → ∀ e ∈ s.integ.runtime, e ∈ t.integ.staged)) ∧
    (list 4 → ∃ t, exec (.listWrite a) s = .next t ∧ t.fld Pg.repair Fld.REP_LIST_CTRL_BUSY = 1 ∧ t.fld Pg.repair Fld.REP_LIST_CTRL_RESULT = 0 ∧
      t.integ.writing = some s.listTarget.1 ∧ mget t.integ.copies s.listTarget.1 = some ⟨s.listTarget.2, s.integ.staged, false⟩ ∧
      ∀ i, i ≠ s.listTarget.1 → mget t.integ.copies i = mget s.integ.copies i) ∧
    (∀ (ok : Bool) (i : Nat) (c : RepCopy), s.integ.writing = some i → mget s.integ.copies i = some c → ∃ t, exec (.listWriteEnd ok) s = .next t ∧
      t.integ.writing = none ∧ t.fld Pg.repair Fld.REP_LIST_CTRL_BUSY = 0 ∧ t.fld Pg.repair Fld.REP_LIST_CTRL_RESULT = (if ok then 1 else 2) ∧
      (ok = true → mget t.integ.copies i = some { c with crcOk := true }) ∧
      (ok = false → t.integ.copies = s.integ.copies ∧ (s.fld Pg.repair (Fld.PG_TRB_CNT 2) < 0xFFFF →
        t.fld Pg.repair (Fld.PG_TRB_CNT 2) = s.fld Pg.repair (Fld.PG_TRB_CNT 2) + 1)))

/-- R267 to R276, Table 11.3. An accepted START of each mode begins the job with BUSY 1 and its first line reads, up to 32, in increasing address order. STOP ends a job in progress STOPPED and withdraws the accesses not issued. At its end OUTCOME, FLAG, RX, RX_VALID and TX become what R270 to R273
give, TRB0 to TRB5 and the events count it, and BUSY falls when no access is open; ERROR and STOPPED leave RX and RX_VALID. A message is classed by its check value, then by its counter. -/
def Obligations.CheckJobs : Prop :=
  ∀ (a : Agent) (k : Fin 16) (poly : BitVec 2) (s : State),
    let pg := Pg.chk k
    let counted : Nat → State → Prop := fun c t => s.fld pg (Fld.PG_TRB_CNT c) < 0xFFFF → t.fld pg (Fld.PG_TRB_CNT c) = s.fld pg (Fld.PG_TRB_CNT c) + 1
    let ctl (l : List (Fld × Nat)) : Prop := Accepts s a.toNat pg Reg.CHK_JOB_CTRL (withFlds (s.rwWord pg Reg.CHK_JOB_CTRL) l)
    (∀ (cmd : Instr) (mode : Nat), (cmd, mode) ∈ [(.outgoingJob a k poly, 0), (.incomingJob a k poly, 1), (.scanJob a k poly false, 2), (.scanJob a k poly true, 3)] →
      ctl [(Fld.CHK_JOB_CTRL_MODE, mode), (Fld.CHK_JOB_CTRL_POLY, poly.toNat), (Fld.CHK_JOB_CTRL_START, 1)] →
      ∃ t j, exec cmd s = .next t ∧ mget t.chk k = some j ∧ t.fld pg Fld.CHK_JOB_STAT_BUSY = 1 ∧ t.fld pg Fld.CHK_JOB_STAT_OUTCOME = 0 ∧
        j.mode = mode ∧ j.poly = poly.toNat ∧ j.src = s.chkAddr k Fld.CHK_SRC_LO_BITS Fld.CHK_SRC_HI_BITS ∧ j.rdLen = s.chkRead k mode poly.toNat ∧ j.outcome = 0 ∧
        j.nextRd = min 32 (linesOf j.src j.rdLen) ∧ j.flight = j.nextRd ∧
        ∀ q, (∀ i < j.nextRd, s.queueOf 59 1 .rd (j.readReq k i).r.addr.toNat = q) → t.epQ chkIf q = s.epQ chkIf q ++ (List.range j.nextRd).map (j.readReq k)) ∧
    (∀ j, mget s.chk k = some j → j.outcome = 0 → ctl [(Fld.CHK_JOB_CTRL_STOP, 1)] →
      ∃ t j', exec (.jobStop a k) s = .next t ∧ mget t.chk k = some j' ∧ j'.outcome = 5 ∧ t.fld pg Fld.CHK_JOB_STAT_BUSY = s.fld pg Fld.CHK_JOB_STAT_BUSY ∧
        (∀ e, ∀ q ∈ [TxnClass.req, .mgmt], e ∈ t.epQ chkIf q ↔ e ∈ s.epQ chkIf q ∧ e.r.who.toNat ≠ k.val) ∧
        j'.flight = j.flight - ((s.epQ chkIf .req ++ s.epQ chkIf .mgmt).filter fun e => e.r.who.toNat == k.val).length) ∧
    (∀ j, mget s.chk k = some j → 0 < j.outcome → j.outcome < 6 → j.flag < 5 → s.fld pg Fld.CHK_JOB_STAT_OUTCOME = 0 →
      ∃ t, exec (.jobEnd k) s = .next t ∧ t.fld pg Fld.CHK_JOB_STAT_OUTCOME = j.outcome ∧ t.fld pg Evt.CHK_JOB_END = 1 ∧
        (j.flight = 0 → t.fld pg Fld.CHK_JOB_STAT_BUSY = 0 ∧ mget t.chk k = none) ∧
        (j.flight ≠ 0 → t.fld pg Fld.CHK_JOB_STAT_BUSY = s.fld pg Fld.CHK_JOB_STAT_BUSY ∧ t.chk = s.chk) ∧
        (j.outcome = 1 ∨ j.outcome = 3 → t.fld pg Fld.CHK_JOB_STAT_FLAG = j.flag ∧
          (∀ c, j.rx = some c → t.fld pg Fld.CHK_ALIVE_CNT_RX = c % 65536 ∧ t.fld pg Fld.CHK_ALIVE_CFG_RX_VALID = 1) ∧
          (1 ≤ j.flag → j.flag ≤ 3 → counted j.flag t) ∧ (j.flag = 4 → counted 0 t)) ∧
        (j.outcome = 3 → t.fld pg Evt.CHK_REJECT = 1) ∧
        (j.mode = 0 → j.outcome = 1 → t.fld pg Fld.CHK_ALIVE_CNT_TX = (s.fld pg Fld.CHK_ALIVE_CNT_TX + 1) %
          (if s.fld pg Fld.CHK_ALIVE_CFG_WIDTH = 1 then 65536 else 256)) ∧
        (j.mode ≠ 0 ∨ j.outcome ≠ 1 → t.fld pg Fld.CHK_ALIVE_CNT_TX = s.fld pg Fld.CHK_ALIVE_CNT_TX) ∧
        (j.outcome = 2 → counted 5 t ∧ t.fld pg Evt.CHK_REJECT = 1) ∧
        (j.outcome = 4 → counted 4 t ∧ t.fld pg Evt.CHK_ERROR = 1) ∧
        (j.outcome = 4 ∨ j.outcome = 5 → t.fld pg Fld.CHK_ALIVE_CNT_RX = s.fld pg Fld.CHK_ALIVE_CNT_RX ∧
          t.fld pg Fld.CHK_ALIVE_CFG_RX_VALID = s.fld pg Fld.CHK_ALIVE_CFG_RX_VALID)) ∧
    (∀ stored computed counter : Nat,
      (computed ≠ stored → s.chkClass k stored computed counter = (4, none)) ∧
      (computed = stored → s.fld pg Fld.CHK_ALIVE_CFG_EN = 0 → s.chkClass k stored computed counter = (0, none)) ∧
      (computed = stored → s.fld pg Fld.CHK_ALIVE_CFG_EN = 1 → s.fld pg Fld.CHK_ALIVE_CFG_RX_VALID = 0 → s.chkClass k stored computed counter = (0, some counter)) ∧
      (∀ m d : Nat, computed = stored → s.fld pg Fld.CHK_ALIVE_CFG_EN = 1 → s.fld pg Fld.CHK_ALIVE_CFG_RX_VALID = 1 →
        m = (if s.fld pg Fld.CHK_ALIVE_CFG_WIDTH = 1 then 65536 else 256) → d < m → counter = (s.fld pg Fld.CHK_ALIVE_CNT_RX + d) % m →
        s.chkClass k stored computed counter = if d = 0 then (1, none) else if d = 1 then (0, some counter)
          else if d ≤ s.fld pg Fld.CHK_ALIVE_CFG_SKIP_WIN then (3, some counter) else (2, none)))

/-- R283, R287, R289 to R293, R331, Table 12.3. ENABLE starts TEST or TRAINING, ENABLE 0 gives DISABLED, RESTART trains anew; a group start starts its enabled lanes. A training that ends well gives UP with its locks, at the negotiated mode with AN_EN; one that fails counts in TRB2 and starts again. Probes conclude at the highest
common rate. A coefficient step is applied where R286 allows it. Codewords count in TRB4 and TRB5, eight uncorrectable ones in succession retrain; losses of lock and of signal are recorded. -/
def Obligations.LaneStates : Prop :=
  ∀ (a : Agent) (l : Fin 192) (s : State),
    let pg := Pg.lane l
    let st := s.laneState l
    let x := s.lane l
    let on (f : Fld) : Prop := s.fld pg f = 1
    let off (f : Fld) : Prop := s.fld pg f = 0
    let ctl (g : Fld) (n : Nat) : Prop := Accepts s a.toNat pg Reg.LN_CTRL (withFlds (s.rwWord pg Reg.LN_CTRL) [(g, n)])
    let counted : Nat → State → Prop := fun c t => s.fld pg (Fld.PG_TRB_CNT c) < 0xFFFF → t.fld pg (Fld.PG_TRB_CNT c) = s.fld pg (Fld.PG_TRB_CNT c) + 1
    let trains : State → Prop := fun t => t.laneState l = 2 ∧ t.fld pg Fld.LN_AN_DONE = 0 ∧ t.fld pg Fld.LN_AN_RESULT = 0
    let mode : Nat × Bool × Nat × Nat → State → Prop := fun m t => t.fld pg Fld.LN_RATE_KBPS = m.1 ∧ t.fld pg Fld.LN_CTRL_LINE = m.2.1.toNat ∧
      t.fld pg Fld.LN_CTRL_PCS = m.2.2.1 ∧ t.fld pg Fld.LN_CTRL_FEC = m.2.2.2
    (ctl Fld.LN_CTRL_ENABLE 1 → off Fld.LN_CTRL_ENABLE → st = 1 → s.laneGroups.getLsbD (l.val / 16) = true → s.fld Pg.clkRef Fld.REF_LOSS_STAT_SAFE = 0 →
      ∃ t, exec (.laneEnable a l) s = .next t ∧ t.fld pg Fld.LN_CTRL_ENABLE = 1 ∧ (s.laneOwner l = 0 → t.laneState l = 6) ∧ (s.laneOwner l ≠ 0 → trains t)) ∧
    (ctl Fld.LN_CTRL_ENABLE 0 → on Fld.LN_CTRL_ENABLE → st ≠ 0 → ∃ t, exec (.laneDisable a l) s = .next t ∧ t.laneState l = 1 ∧
      t.fld pg Fld.LN_PAT_GEN_EN = 0 ∧ t.fld pg Fld.LN_PAT_CHK_EN = 0 ∧ t.fld pg Fld.LN_PAT_CHK_LOCK = 0) ∧
    (ctl Fld.LN_CTRL_RESTART 1 → on Fld.LN_CTRL_ENABLE → ∃ t, exec (.restart a l) s = .next t ∧ trains t) ∧
    (∀ g : Fin 12, s.fld Pg.cfg Fld.CFG_CFG_STAT_STATE = 6 → s.laneGroups.getLsbD g = false → s.fld Pg.clkRef Fld.REF_LOSS_STAT_SAFE = 0 →
      ∃ t, exec (.laneGroupStart g) s = .next t ∧ t.laneGroups = s.laneGroups ||| ((1 : BitVec 12) <<< g.val) ∧
        (l.val / 16 = g.val → on Fld.LN_CTRL_ENABLE → st = 1 → t.laneState l = if s.laneOwner l = 0 then 6 else 2) ∧
        (l.val / 16 ≠ g.val → t.laneState l = st)) ∧
    (∀ an : BitVec 4, st = 2 ∨ st = 4 →
      let ended : State → Prop := fun t => t.laneState l = 3 ∧ t.fld pg Fld.LN_STAT_SIG_DET = 1 ∧ t.fld pg Fld.LN_STAT_CDR_LOCK = 1 ∧ t.fld pg Evt.LN_UP = 1 ∧
        t.fld pg Fld.LN_STAT_BLOCK_LOCK = (if t.lanePcs l = 0 then 0 else 1) ∧ t.fld pg Fld.LN_STAT_FEC_LOCK = (if t.fld pg Fld.LN_CTRL_FEC = 0 then 0 else 1)
      (∃ t, exec (.laneTrainingEnd l false an) s = .next t ∧ t.laneState l = st ∧ counted 2 t ∧ t.fld pg Evt.LN_TRAIN_FAIL = 1) ∧
      (s.laneOwner l = 1 → st = 4 ∨ off Fld.LN_CTRL_AN_EN → st = 4 ∨ s.laneProbes l = false → ∃ t, exec (.laneTrainingEnd l true an) s = .next t ∧ ended t ∧
        t.reg pg Reg.LN_CTRL = s.reg pg Reg.LN_CTRL ∧ t.reg pg Reg.LN_RATE = s.reg pg Reg.LN_RATE) ∧
      (∀ m, s.laneOwner l = 1 → st = 2 → on Fld.LN_CTRL_AN_EN → s.laneProbes l = false → anRate (an.toNat % 8) (an.getLsbD 3) = some m →
        ((s.fld pg Fld.LN_AN_ABILITY).testBit (an.toNat % 8 - 1) = true → ∃ t, exec (.laneTrainingEnd l true an) s = .next t ∧ ended t ∧ mode m t ∧
          t.fld pg Fld.LN_AN_RESULT = an.toNat % 8 ∧ t.fld pg Fld.LN_AN_DONE = 1) ∧
        ((s.fld pg Fld.LN_AN_ABILITY).testBit (an.toNat % 8 - 1) = false → ∃ t, exec (.laneTrainingEnd l true an) s = .next t ∧ trains t ∧ counted 2 t)) ∧
      (∀ sp j, s.laneOwner l = 2 → off Fld.LN_CTRL_AN_EN → s.laneSpan l = some (sp, j) → j < 8 → j ∉ (s.span sp).excluded →
        let res := s.fld pg Fld.LN_AN_RESULT
        let up := s.fld (Pg.span sp) Fld.SPAN_SP_STAT_UP_MASK
        res ≠ 0 →
        (up ≠ 0 → s.fld (Pg.span sp) Fld.SPAN_SP_STAT_RATE = res → ∃ t, exec (.laneTrainingEnd l true an) s = .next t ∧ ended t ∧
          t.fld (Pg.span sp) Fld.SPAN_SP_STAT_UP_MASK = up ||| 2 ^ j) ∧
        (up = 0 → s.spanWidth sp = 1 → ∃ t, exec (.laneTrainingEnd l true an) s = .next t ∧ ended t ∧ t.spanUp sp = true ∧
          t.fld (Pg.span sp) Fld.SPAN_SP_STAT_RATE = res ∧ t.fld (Pg.span sp) Fld.SPAN_SP_STAT_UP_MASK = 2 ^ j))) ∧
    (∀ (mask : BitVec 10) (burst : BitVec 12) (ack : Bool), st = 2 → s.laneProbes l = true → off Fld.LN_AN_DONE →
      (x.probe ≠ some (mask, burst) → ∃ t, exec (.probeOrderedSet l mask burst ack) s = .next t ∧ { t with lanes := s.lanes } = s ∧
        (t.lane l).probe = some (mask, burst) ∧ (t.lane l).probes = 1) ∧
      (x.probe = some (mask, burst) → x.probes = 2 → x.ackSent = false → x.acksIn = 0 → ∃ t, exec (.probeOrderedSet l mask burst ack) s = .next t ∧
        { t with lanes := s.lanes, out := s.out } = s ∧ t.out = .lane l .probeAck :: s.out ∧ (t.lane l).ackSent = true) ∧
      (∀ i < 10, x.probe = some (mask, burst) → x.ackSent = true → 2 ≤ x.acksIn → ack = true →
        (∀ k < 10, i < k → (mask.toNat &&& s.fld pg Fld.LN_AN_ABILITY).testBit k = false) → (mask.toNat &&& s.fld pg Fld.LN_AN_ABILITY).testBit i = true →
        ∃ t, exec (.probeOrderedSet l mask burst ack) s = .next t ∧ mode (probeRate i) t ∧ t.fld pg Fld.LN_AN_RESULT = i + 1 ∧ t.fld pg Fld.LN_AN_DONE = 1 ∧
          t.fld pg Fld.LN_IDLE_BURST_NS = max burst.toNat (s.fld pg Fld.LN_IDLE_BURST_NS) ∧ t.fld pg Fld.LN_IDLE_GUARD_US = 5 * t.fld pg Fld.LN_IDLE_BURST_NS / 2) ∧
      (∃ t, exec (.probeTimeout l) s = .next t ∧ trains t ∧ counted 2 t ∧ t.fld pg Evt.LN_TRAIN_FAIL = 1)) ∧
    (∀ (tap : Tap) (inc : Bool) (p m q : Nat), st = 2 ∨ st = 4 → on Fld.LN_CTRL_TRAIN_EN →
      (p, m, q) = (s.fld pg Fld.LN_TXFIR_PRE, s.fld pg Fld.LN_TXFIR_MAIN, s.fld pg Fld.LN_TXFIR_POST) →
      let bump : Nat → Nat := fun n => if inc then n + 1 else n - 1
      let next : Nat × Nat × Nat := match tap with | .pre => (bump p, m, q) | .main => (p, bump m, q) | .post => (p, m, bump q) | .other => (p, m, q)
      let low : Bool := tap == .other || (!inc && (match tap with | .pre => p | .main => m | .post => q | .other => 0) == 0)
      (low = false → tapsOk next.1 next.2.1 next.2.2 = true → ∃ t, exec (.coefficientRequest l tap inc) s = .next t ∧ t.out = .lane l (.coef false) :: s.out ∧
        t.fld pg Fld.LN_TXFIR_PRE = next.1 ∧ t.fld pg Fld.LN_TXFIR_MAIN = next.2.1 ∧ t.fld pg Fld.LN_TXFIR_POST = next.2.2 ∧ { t with regs := s.regs, out := s.out } = s) ∧
      (low = true ∨ tapsOk next.1 next.2.1 next.2.2 = false → ∃ t, exec (.coefficientRequest l tap inc) s = .next t ∧ t.out = .lane l (.coef true) :: s.out ∧
        { t with out := s.out } = s)) ∧
    (st = 3 → s.fld pg Fld.LN_CTRL_FEC ≠ 0 →
      (∃ t, exec (.fecCodeword l .clean) s = .next t ∧ { t with lanes := s.lanes } = s ∧ (t.lane l).uncorr = 0) ∧
      (∃ t, exec (.fecCodeword l .corrected) s = .next t ∧ (t.lane l).uncorr = 0 ∧ (t.lane l).errMark = x.errMark ∧ counted 4 t) ∧
      (∃ t, exec (.fecCodeword l .uncorrectable) s = .next t ∧ (t.lane l).uncorr = x.uncorr + 1 ∧ (t.lane l).errMark = true ∧ counted 5 t)) ∧
    (st = 3 → 8 ≤ x.uncorr → ∃ t, exec (.fecLockLoss l) s = .next t ∧ t.laneState l = 4) ∧
    (2 ≤ st → ∃ t, exec (.cdrLockLoss l) s = .next t ∧ t.fld pg Fld.LN_STAT_CDR_LOCK = 0 ∧ t.laneState l = st) ∧
    (∀ code : Bool, 2 ≤ st → s.lanePcs l ≠ 0 → ∃ t, exec (.blockLockLoss l code) s = .next t ∧ counted 3 t ∧ t.laneState l = st ∧
      t.fld pg Fld.LN_STAT_BLOCK_LOCK = if code then s.fld pg Fld.LN_STAT_BLOCK_LOCK else 0) ∧
    (st = 2 ∨ st = 3 ∨ st = 4 → off Fld.LN_IDLE_RX_IDLE → ∃ t, exec (.lossOfSignal l) s = .next t ∧ t.laneState l = 5 ∧ t.fld pg Fld.LN_STAT_SIG_DET = 0 ∧
      counted 0 t ∧ t.fld pg Evt.LN_LOS = 1 ∧ (t.reg Pg.alm Reg.ALM_ALM_SUM).getLsbD 7 = true) ∧
    (st = 5 → ∃ t, exec (.signalReturn l) s = .next t ∧ trains t ∧ t.fld pg Fld.LN_STAT_SIG_DET = 1)

/-- R294 to R303, Table 12.6. An idle request outside raw mode sends the marker and idles the transmitter; its end sends the burst. The marker sets RX_IDLE; an exit within IDLE_GUARD and with lock resumes traffic, another counts FAST_EXIT_MISS in TRB1 and retrains, as training frames do. An ETH frame is admitted where MAX_FRAME
bytes are free, cut at MAX_FRAME, or dropped, counted in TRB6; the fabric takes the oldest word. PAUSE is sent at ON and repeated; underruns count in TRB7; the checker locks and loses its lock; FIRE injects. -/
def Obligations.LaneTraffic : Prop :=
  ∀ (a : Agent) (l : Fin 192) (s : State),
    let pg := Pg.lane l
    let st := s.laneState l
    let x := s.lane l
    let on (f : Fld) : Prop := s.fld pg f = 1
    let off (f : Fld) : Prop := s.fld pg f = 0
    let counted : Nat → State → Prop := fun c t => s.fld pg (Fld.PG_TRB_CNT c) < 0xFFFF → t.fld pg (Fld.PG_TRB_CNT c) = s.fld pg (Fld.PG_TRB_CNT c) + 1
    let free : State → Prop := fun t => t.fld pg Fld.LN_RXFIFO_FREE = (16384 - (t.lane l).occupied) / 64
    let pause : LaneOut := .pause (BitVec.ofNat 16 (s.fld pg Fld.LN_PAUSE_SA_HI_QUANTA))
      (BitVec.ofNat 48 (s.fld pg Fld.LN_PAUSE_SA_HI_SA * 2 ^ 32 + s.fld pg Fld.LN_PAUSE_SA_LO_SA))
    let max := s.fld pg Fld.LN_RXFIFO_MAX_FRAME
    (st = 3 → s.lanePcs l ≠ 0 → off Fld.LN_IDLE_TX_IDLE → (s.laneOwner l = 1 → s.dieUp (laneHome l) = true) → ∃ t, exec (.idleEntry l) s = .next t ∧ t.out = .lane l .idleMarker :: s.out ∧
      t.fld pg Fld.LN_IDLE_TX_IDLE = 1 ∧ { t with regs := s.regs, out := s.out } = s) ∧
    (on Fld.LN_IDLE_TX_IDLE → ∃ t, exec (.transmitIdleExit l) s = .next t ∧ t.out = .lane l .burst :: s.out ∧ t.fld pg Fld.LN_IDLE_TX_IDLE = 0 ∧
      { t with regs := s.regs, out := s.out } = s) ∧
    (st = 3 → s.lanePcs l ≠ 0 → ∃ t, exec (.idleMarker l) s = .next t ∧ t.fld pg Fld.LN_IDLE_RX_IDLE = 1 ∧ t.laneState l = 3 ∧ { t with regs := s.regs } = s) ∧
    (∀ (us : BitVec 32) (locked : Bool), st = 3 → on Fld.LN_IDLE_RX_IDLE →
      (2 * us.toNat < 5 * s.fld pg Fld.LN_IDLE_BURST_NS → locked = true → ∃ t, exec (.idleExit l us locked) s = .next t ∧ { t with regs := s.regs } = s ∧
        t.fld pg Fld.LN_IDLE_RX_IDLE = 0 ∧ t.fld pg Fld.LN_STAT_SIG_DET = 1 ∧ t.laneState l = 3) ∧
      (5 * s.fld pg Fld.LN_IDLE_BURST_NS ≤ 2 * us.toNat ∨ locked = false → ∃ t, exec (.idleExit l us locked) s = .next t ∧ t.laneState l = 4 ∧
        counted 1 t ∧ t.fld pg Evt.LN_FAST_MISS = 1)) ∧
    (st = 3 → ∃ t, exec (.trainingFramesReceived l) s = .next t ∧ t.laneState l = 4) ∧
    (∀ bytes : List (BitVec 8), bytes ≠ [] → s.laneOwner l = 1 → st = 3 → s.dieUp (laneHome l) = true → s.laneEth l = true →
      ∃ t, exec (.frameReceived l bytes) s = .next t ∧ (t.lane l).errMark = false ∧ free t ∧
        (16384 < x.occupied + max → (t.lane l).fifo = x.fifo ∧ counted 6 t) ∧
        (x.occupied + max ≤ 16384 → (t.lane l).fifo = x.fifo ++ frameWords (bytes.take max) x.errMark (decide (max < bytes.length)) ∧ (max < bytes.length → counted 6 t) ∧
          (bytes.length ≤ max → t.fld pg (Fld.PG_TRB_CNT 6) = s.fld pg (Fld.PG_TRB_CNT 6))) ∧
        (on Fld.LN_PAUSE_EN → x.paused = false → 64 * s.fld pg Fld.LN_PAUSE_ON ≤ (t.lane l).occupied → (t.lane l).paused = true ∧ .lane l pause ∈ t.out)) ∧
    (∀ w rest, x.fifo = w :: rest → st = 3 → s.dieUp (laneHome l) = true → ∃ t, exec (.receiveChannelTransfer l) s = .next t ∧ (t.lane l).fifo = rest ∧
      .lane l (.word w) ∈ t.out ∧ free t ∧ { t with regs := s.regs, lanes := s.lanes, out := s.out } = s) ∧
    (s.laneEth l = true → on Fld.LN_PAUSE_EN → x.paused = true → 64 * s.fld pg Fld.LN_PAUSE_OFF ≤ x.occupied → ∃ t, exec (.pauseRepeat l) s = .next t ∧
      t.out = .lane l pause :: s.out ∧ { t with out := s.out } = s) ∧
    (s.laneOwner l = 1 → st = 3 → s.dieUp (laneHome l) = true → ∃ t, exec (.transmitUnderrun l) s = .next t ∧ counted 7 t ∧ t.lanes = s.lanes ∧
      .lane l (if s.lanePcs l = 0 then .prbsWord else .errorCode) ∈ t.out) ∧
    (st = 6 → on Fld.LN_PAT_CHK_EN → ∃ t, exec (.checkerLock l) s = .next t ∧ t.fld pg Fld.LN_PAT_CHK_LOCK = 1 ∧ t.fld pg Fld.LN_STAT_CDR_LOCK = 1 ∧
      (l.val % 24 ≠ 0 ∨ on Fld.LN_TREF_EN → { t with regs := s.regs } = s)) ∧
    (on Fld.LN_PAT_CHK_LOCK → x.errs < 2 ^ 48 → ∃ t, exec (.checkerLockLoss l) s = .next t ∧ t.fld pg Fld.LN_PAT_CHK_LOCK = 0 ∧ t.fld pg Evt.LN_CHK_LOSS = 1 ∧
      x.errs ≤ (t.lane l).errs ∧ (t.lane l).errs < 2 ^ 48) ∧
    (Accepts s a.toNat pg Reg.LN_INJ (withFlds (s.rwWord pg Reg.LN_INJ) [(Fld.LN_INJ_FIRE, 1)]) → s.fld pg Fld.LN_INJ_MODE = 1 ∨ s.fld pg Fld.LN_INJ_MODE = 2 →
      let bits := if s.fld pg Fld.LN_INJ_MODE = 1 then 1 else s.fld pg Fld.LN_INJ_BURST_LEN
      (st = 3 ∨ st = 6 → ∃ t, exec (.fire a l) s = .next t ∧ t.out = .lane l (.inject bits) :: s.out ∧ t.lanes = s.lanes) ∧
      (st ≠ 3 → st ≠ 6 → ∃ t, exec (.fire a l) s = .next t ∧ t.out = s.out ∧ (t.lane l).inject = true))

/-- R304 to R310, R313, R382, Table 17.6. A request that no enabled function claims is an Unsupported Request, counted in TRB7; a read of one line through an aperture becomes a ring read of its function's tenant and key ID; a configuration write takes effect. A vector is sent, left pending or ignored (TRB6).
The link comes up at the rate allowed and retrains; a hot reset, link down or PERST_N low clears the port and the link's registers, an FLR one function, each counted. -/
def Obligations.HostPort : Prop :=
  ∀ (a : Agent) (fn : Fin 512) (s : State),
    let pg := Pg.hostLnk
    let f := fn.val
    let up := s.dlUp = true ∧ s.boot.held = 0
    let counted : Nat → State → Prop := fun c t => s.fld pg (Fld.PG_TRB_CNT c) < 0xFFFF → t.fld pg (Fld.PG_TRB_CNT c) = s.fld pg (Fld.PG_TRB_CNT c) + 1
    let cleared : State → Prop := fun t => t.dlUp = false ∧ t.fns = [] ∧ t.host.wait = [] ∧ t.host.table = [] ∧ t.host.reads = [] ∧ t.host.last = [] ∧ (∀ e ∈ t.host.out, e.2.dead = true) ∧
      t.fld pg Fld.HLNK_LINK_CTRL_MAX_SPEED = 5
    (∀ (bar : Fin 3) (r : HostReq), up → s.fnExists f = false ∨ (s.fn f).memEn = false → ∃ t, exec (.hostRequest fn bar r) s = .next t ∧ counted 7 t ∧
      (r.wr = false → .completion f r.tag.toNat 1 [] ∈ t.out ∧ t.fns = s.fns) ∧ (r.wr = true → (t.fn f).uncErr = (s.fn f).uncErr + 1)) ∧
    (∀ (r : HostReq) (base k kid : Nat), up → s.fnExists f = true → (s.fn f).memEn = true → s.hostMode = 2 → s.aperture f = some (base, k, kid) →
      r.wr = false → r.len.toNat = 64 → (base + r.off.toNat) % 64 = 0 → r.off.toNat + 64 ≤ 2 ^ k → s.host.wait = [] → s.host.out = [] → s.ifState 56 0 = 1 →
      mget s.host.reads (f * 1024 + r.tag.toNat) = none →
      let addr : BitVec 64 := BitVec.ofNat 64 (kid * 2 ^ 48 + (base + r.off.toNat))
      let c := s.queueOf 56 0 .rd addr.toNat
      ∃ t, exec (.hostRequest fn 1 r) s = .next t ∧ t.host.wait = [] ∧ mget t.host.reads (f * 1024 + r.tag.toNat) = some ⟨1, List.replicate 64 0, 0⟩ ∧
        t.epQ (ifKey 56 0) c = s.epQ (ifKey 56 0) c ++ [⟨.rd, ⟨addr, 0, 0, 0, BitVec.allOnes 64, BitVec.ofNat 12 f⟩, BitVec.ofNat 9 (s.fnTenant f), false⟩] ∧
        { t with host := s.host, rings := s.rings } = s) ∧
    (up →
      (s.hostMode = 0 → ∀ r, exec (.configRequest fn r) s = .next { s with out := .config f 0 :: s.out }) ∧
      (s.hostMode ≠ 0 → s.fnExists f = false → ∀ r, exec (.configRequest fn r) s = .next { s with out := .config f 2 :: s.out }) ∧
      (s.hostMode ≠ 0 → s.fnExists f = true →
        exec (.configRequest fn .read) s = .next { s with out := .config f 1 :: s.out } ∧
        (∀ x y, ∃ t, exec (.configRequest fn (.command x y)) s = .next t ∧ .config f 1 ∈ t.out ∧ t.fn f = { s.fn f with memEn := x, busMaster := y }) ∧
        (∀ x y, ∃ t, exec (.configRequest fn (.msix x y)) s = .next t ∧ .config f 1 ∈ t.out ∧ t.fn f = { s.fn f with msixEn := x, msixMask := y }) ∧
        (∀ n : BitVec 16, f < 8 → s.hostMode = 2 → n.toNat ≤ 63 → ∃ t, exec (.configRequest fn (.numVfs n)) s = .next t ∧ (t.fn f).numVfs = n.toNat ∧
          (∀ v, 1 ≤ v → v ≤ 63 → t.fnExists (8 + 63 * f + v - 1) = decide (v ≤ n.toNat))))) ∧
    (∀ g : BitVec 11, Accepts s a.toNat pg Reg.HLNK_MSIX_TRIG (withFlds (s.rwWord pg Reg.HLNK_MSIX_TRIG) [(Fld.HLNK_MSIX_TRIG_VECTOR, g.toNat)]) →
      (s.vectorFn 512 0 g.toNat = none → ∃ t, exec (.msixTrig a g) s = .next t ∧ counted 6 t ∧ t.out = s.out ∧ t.msixPend = s.msixPend) ∧
      (∀ h j, s.vectorFn 512 0 g.toNat = some (h, j) →
        let x := s.fn h
        let masked : Bool := !x.busMaster || x.msixMask || s.vectorMasked h j
        (x.msixEn = false → ∃ t, exec (.msixTrig a g) s = .next t ∧ counted 6 t ∧ t.out = s.out ∧ t.msixPend = s.msixPend) ∧
        (x.msixEn = true → masked = false → ∃ t, exec (.msixTrig a g) s = .next t ∧ t.out = s.msixMessage h j :: s.out ∧ t.msixPend = s.msixPend) ∧
        (x.msixEn = true → masked = true → ∃ t, exec (.msixTrig a g) s = .next t ∧ t.out = s.out ∧ ∀ v, v ∈ t.msixPend ↔ v = g.toNat ∨ v ∈ s.msixPend))) ∧
    (Accepts s a.toNat pg Reg.HLNK_LINK_CTRL (withFlds (s.rwWord pg Reg.HLNK_LINK_CTRL) [(Fld.HLNK_LINK_CTRL_RETRAIN, 1)]) →
      ∃ t, exec (.linkRetrain a) s = .next t ∧ t.fld pg Fld.HLNK_LINK_STAT_LTSSM = 4 ∧ { t with regs := s.regs } = s) ∧
    (∀ (v : BitVec 4) (w : BitVec 6), w.toNat ∈ [1, 2, 4, 8, 16] → 1 ≤ v.toNat → v.toNat ≤ 5 → s.boot.held = 0 → s.boot.refsUp = true → s.mgmt.perst = true →
      s.fld Pg.bist Fld.BIST_FAIL_PORT_HOST = 0 → s.fld Pg.clkRef Fld.REF_LOSS_STAT_SAFE = 0 → ∃ t, exec (.hostLinkUp v w) s = .next t ∧ t.dlUp = true ∧
        t.fld pg Fld.HLNK_LINK_STAT_LTSSM = 3 ∧ t.fld pg Fld.HLNK_LINK_STAT_SPEED = min v.toNat (s.fld pg Fld.HLNK_LINK_CTRL_MAX_SPEED) ∧
        t.fld pg Fld.HLNK_LINK_STAT_WIDTH = w.toNat ∧ { t with regs := s.regs } = s) ∧
    (s.dlUp = true →
      let idle := s.fld Pg.cfgh Fld.CFGH_H_STAT_STATE ≠ 1 ∧ s.fld Pg.cfgh Fld.CFGH_H_STAT_STATE ≠ 2
      (∃ t, exec .hotReset s = .next t ∧ cleared t ∧ (idle → counted 5 t)) ∧ (∃ t, exec .linkDown s = .next t ∧ cleared t ∧ (idle → counted 4 t)) ∧
      (s.mgmt.perst = true → s.boot.held = 0 → ∃ t, exec (.perst false) s = .next t ∧ cleared t ∧ (idle → counted 4 t) ∧ t.mgmt.perst = false)) ∧
    (∃ t, exec (.perst true) s = .next t ∧ t.mgmt.perst = true ∧ { t with mgmt := s.mgmt } = s) ∧
    (s.dlUp = true → s.fnExists f = true → ∃ t, exec (.flr fn) s = .next t ∧ counted 5 t ∧ mget t.fns f = none ∧ (∀ x ∈ t.host.wait, x.fn ≠ f) ∧
      (∀ e ∈ t.host.out, e.2.fn = f → e.2.dead = true) ∧ (∀ g : Nat, 8 ≤ f → g ≠ f → t.fn g = s.fn g))

/-- R315 to R318, R322 to R327. A corrected crossing word counts in TRB0, an uncorrectable one in TRB1 with its event and alarm and the word delivered as it is; interface bonds in TRB2 and TRB3, the transfer hit carrying POISON or BUS_ERROR; a command/address parity error is counted and recorded and its banks are
closed. A module trains on ENABLE or at the end of the image copy unless self-test holds it out, records its partner's buffers, and is ACTIVE with its interface ON, or FAILED with the interface OFF. A unit is read as it was written; a bad one is NAKed and counted, the third of one SEQ retrains; a good one moves SEQ, ACK and
CREDIT and hands its flits on. A retrain ends ACTIVE or FAILED; ENABLE 0 snuffs the interface and then stops the module. No command touches another unit's state. -/
def Obligations.LinksAndUcie : Prop :=
  (∀ (m src : Fin 8) (kind : BitVec 2) (group : BitVec 6) (word : BitVec 4) (syn : BitVec 8) (s : State),
    let pg := Pg.dlk m
    let counted : Nat → State → Prop := fun c t => s.fld pg (Fld.PG_TRB_CNT c) < 0xFFFF → t.fld pg (Fld.PG_TRB_CNT c) = s.fld pg (Fld.PG_TRB_CNT c) + 1
    let alarm : Nat → State → Prop := fun c t => (t.reg Pg.alm Reg.ALM_ALM_SUM).getLsbD c = true
    let only : State → Prop := fun t => { t with regs := s.regs, out := s.out, msixPend := s.msixPend, alarms := s.alarms } = s
    (s.dieUp m = true → (kind.toNat < 2 → s.dieUp src = true) → s.fld Pg.cfg Fld.CFG_CFG_STAT_USER_EN = 1 → s.fld pg Fld.DLK_XNG_ERR_VALID = 0 →
      (∃ t, exec (.crossingWordError (.xng m kind src group word syn false)) s = .next t ∧ counted 0 t ∧ t.fld pg Fld.DLK_XNG_ERR_VALID = 1 ∧
        t.fld pg Fld.DLK_XNG_ERR_DBE = 0 ∧ t.fld pg Fld.DLK_XNG_ERR_KIND = kind.toNat ∧ t.fld pg Fld.DLK_XNG_ERR_SYN = syn.toNat ∧ only t) ∧
      (∃ t, exec (.crossingWordError (.xng m kind src group word syn true)) s = .next t ∧ counted 1 t ∧ alarm 5 t ∧ t.fld pg Evt.DLK_XNG_DBE = 1 ∧
        .xdbe m kind.toNat src group.toNat ∈ t.out ∧ t.fld pg Fld.DLK_XNG_ERR_DBE = 1 ∧ t.fld pg Fld.DLK_XNG_ERR_GROUP = group.toNat ∧
        t.fld pg Fld.DLK_XNG_ERR_SRC = (if kind.toNat < 2 then src.val else 0) ∧ t.fld pg Fld.DLK_XNG_ERR_WORD = word.toNat ∧ only t)) ∧
    (s.dieUp m = false ∨ (kind.toNat < 2 ∧ s.dieUp src = false) ∨ s.fld Pg.cfg Fld.CFG_CFG_STAT_USER_EN = 0 →
      ∀ dbe, exec (.crossingWordError (.xng m kind src group word syn dbe)) s = .next s) ∧
    (∀ (out hd : Bool) (k ix : BitVec 4), k = 1 ∨ k = 2 ∨ k = 3 →
      (∃ t, exec (.crossingWordError (.bond m out k ix syn false hd)) s = .next t ∧ counted 2 t ∧ only t) ∧
      (∃ t, exec (.crossingWordError (.bond m out k ix syn true hd)) s = .next t ∧ counted 3 t ∧ alarm 6 t ∧
        (s.fld pg Fld.DLK_IF_ERR_VALID = 0 → t.fld pg Fld.DLK_IF_ERR_DBE = 1 ∧ t.fld pg Fld.DLK_IF_ERR_IFKIND = k.toNat ∧
          t.fld pg Fld.DLK_IF_ERR_INDEX = ix.toNat ∧ t.fld pg Fld.DLK_IF_ERR_DIR = out.toNat) ∧
        (k = 1 → ix.toNat < 8 → out = true → ∀ r l, mgetD [] s.fab.rsp (8 * m.val + ix.toNat) = l ++ [r] →
          mgetD [] t.fab.rsp (8 * m.val + ix.toNat) = l ++ [{ r with status := if hd then .busError else .poison }]))) ∧
    (∀ pc : Fin 128, ∃ t, exec (.caParityError pc) s = .next t ∧ t.fld Pg.dlkH Fld.DLKH_CA_ERR_PC = pc ∧ t.fld Pg.dlkH Fld.DLKH_CA_ERR_VALID = 1 ∧
      (∀ e ∈ t.dram.openRow, e.1 / 128 ≠ pc.val) ∧ t.dram.line = s.dram.line ∧
      { t with regs := s.regs, out := s.out, msixPend := s.msixPend, dram := s.dram, free := s.free } = s)) ∧
  (∀ n : UcieUnit, n.flits.length ≤ 3 → unitOf (mkUnit n) = { n with checkOk := true }) ∧
  (∀ (a : Agent) (u : Fin 4) (s : State),
    let pg := Pg.uciM u
    let st := s.uciState u
    let x := s.uciMod u
    let counted : Nat → State → Prop := fun c t => s.fld pg (Fld.PG_TRB_CNT c) < 0xFFFF → t.fld pg (Fld.PG_TRB_CNT c) = s.fld pg (Fld.PG_TRB_CNT c) + 1
    let ctl (g : Fld) (n : Nat) : Prop := Accepts s a.toNat pg Reg.UCIM_M_CTRL (withFlds (s.rwWord pg Reg.UCIM_M_CTRL) [(g, n)])
    let failed : State → Prop := fun t => t.uciState u = 4 ∧ t.ifState (60 + u) 0 = 4 ∧ t.fld pg Evt.UCIM_FAILED = 1 ∧
      (t.reg Pg.alm Reg.ALM_ALM_SUM).getLsbD 9 = true
    let others : State → Prop := fun t => ∀ v : Fin 4, v ≠ u → t.uciMod v = s.uciMod v ∧ t.uciState v = s.uciState v
    let present := s.hasUcie = true ∧ s.heldBit Fld.BIST_FAIL_PORT_UCIE u = false
    (s.fld pg Fld.UCIM_M_CTRL_ENABLE = 0 → ctl Fld.UCIM_M_CTRL_ENABLE 1 → ∃ t, exec (.moduleEnable a u) s = .next t ∧ t.fld pg Fld.UCIM_M_CTRL_ENABLE = 1 ∧ others t ∧
      (present → s.fld Pg.uci Fld.UCI_UCI_CFG_EN = 1 → s.copyEnded = true → s.ifState (60 + u) 0 ≠ 3 → t.uciState u = 1 ∧ t.uciMod u = {}) ∧
      (¬present ∨ s.fld Pg.uci Fld.UCI_UCI_CFG_EN = 0 ∨ s.copyEnded = false ∨ s.ifState (60 + u) 0 = 3 → t.uciState u = st ∧ t.uciMod u = x)) ∧
    (s.fld pg Fld.UCIM_M_CTRL_ENABLE = 1 → ctl Fld.UCIM_M_CTRL_ENABLE 0 → ∃ t, exec (.moduleDisable a u) s = .next t ∧ t.fld pg Fld.UCIM_M_CTRL_ENABLE = 0 ∧ others t ∧
      (st = 2 ∨ st = 3 → (s.maySnuff (60 + u) 0 = true → t.ifState (60 + u) 0 = 3 ∧ (t.uciMod u).stops = true) ∧
        (s.ifState (60 + u) 0 = 4 → t.uciState u = 0 ∧ t.uciMod u = {})) ∧
      (st = 1 ∨ st = 4 → t.uciState u = 0 ∧ t.uciMod u = {})) ∧
    (present → s.fld Pg.uci Fld.UCI_UCI_CFG_EN = 1 → s.fld pg Fld.UCIM_M_CTRL_ENABLE = 1 → s.copyEnded = true →
      st = 0 ∨ (st = 4 ∧ s.wicks.contains (.iface (Fin.ofNat 64 (60 + u.val)) 0) = true) →
      ∃ t, exec (.moduleBringup u) s = .next t ∧ t.uciState u = 1 ∧ t.uciMod u = {} ∧ { t with regs := s.regs, uci := s.uci, wicks := s.wicks } = s ∧ others t) ∧
    (¬present ∨ s.copyEnded = false → exec (.moduleBringup u) s = .next s) ∧
    (∀ (req rsp post mgmt : Nat) (v d : BitVec 16), st = 1 → req < 256 → rsp < 256 → post < 256 → mgmt < 256 →
      let payload : BitVec 64 := BitVec.ofNat 64 (2 ^ 48 + req * 2 ^ 40 + rsp * 2 ^ 32 + post * 2 ^ 24 + mgmt * 2 ^ 16)
      (8 ≤ req ∧ 8 ≤ rsp ∧ 8 ≤ post ∧ 8 ≤ mgmt → ∃ t, exec (.capabilityMessage u payload v d) s = .next t ∧ (t.uciMod u).capsIn = true ∧ t.uciState u = 1 ∧
        t.fld Pg.uci Fld.UCI_UCI_PARTNER_VENDOR = v.toNat ∧ t.fld Pg.uci Fld.UCI_UCI_PARTNER_DEVICE = d.toNat ∧ t.fld pg Fld.UCIM_M_PCAP_REQ = req ∧
        t.fld pg Fld.UCIM_M_PCAP_RSP = rsp ∧ t.fld pg Fld.UCIM_M_PCAP_POST = post ∧ t.fld pg Fld.UCIM_M_PCAP_MGMT = mgmt ∧
        { t with regs := s.regs, uci := s.uci } = s ∧ others t) ∧
      (¬ (8 ≤ req ∧ 8 ≤ rsp ∧ 8 ≤ post ∧ 8 ≤ mgmt) → ∃ t, exec (.capabilityMessage u payload v d) s = .next t ∧ failed t)) ∧
    (∀ (rate : BitVec 2) (tx rx : BitVec 4),
      (st = 1 → x.capsIn = true → rate.toNat ≤ s.fld Pg.uci Fld.UCI_UCI_CFG_MAX_RATE →
        (tx.toNat ≤ 4 → rx.toNat ≤ 4 → ∃ t, exec (.moduleActive u rate tx rx) s = .next t ∧ t.uciState u = 2 ∧ t.ifState (60 + u) 0 = 1 ∧ t.fld pg Evt.UCIM_ACTIVE = 1 ∧
          t.fld pg Fld.UCIM_M_STAT_RATE = rate.toNat ∧ t.fld pg Fld.UCIM_M_STAT_TX_REP = tx.toNat ∧ t.fld pg Fld.UCIM_M_STAT_RX_REP = rx.toNat) ∧
        (4 < tx.toNat ∨ 4 < rx.toNat → ∃ t, exec (.moduleActive u rate tx rx) s = .next t ∧ failed t)) ∧
      (st = 3 →
        (tx.toNat ≤ 4 → rx.toNat ≤ 4 → ∃ t, exec (.retrainEnd u tx rx) s = .next t ∧ t.uciState u = 2 ∧ t.fld pg Evt.UCIM_ACTIVE = 1 ∧
          t.fld pg Fld.UCIM_M_STAT_TX_REP = tx.toNat ∧ t.fld pg Fld.UCIM_M_STAT_RX_REP = rx.toNat ∧ others t) ∧
        (4 < tx.toNat ∨ 4 < rx.toNat → ∃ t, exec (.retrainEnd u tx rx) s = .next t ∧ failed t))) ∧
    (st = 1 → ∃ t, exec (.bringupTimeout u) s = .next t ∧ failed t) ∧
    (st = 3 → ∃ t, exec (.retrainTimeout u) s = .next t ∧ failed t) ∧
    (st = 2 → ∀ ag : Option Agent, (∀ b, ag = some b → s.fld pg Fld.UCIM_M_CTRL_ENABLE = 1 ∧
        Accepts s b.toNat pg Reg.UCIM_M_CTRL (withFlds (s.rwWord pg Reg.UCIM_M_CTRL) [(Fld.UCIM_M_CTRL_RETRAIN, 1)])) →
      ∃ t, exec (.retrain u ag) s = .next t ∧ t.uciState u = 3 ∧ counted 2 t ∧ t.fld pg Evt.UCIM_RETRAIN = 1 ∧
        { t with regs := s.regs, out := s.out, msixPend := s.msixPend } = s) ∧
    (∀ b : BitVec 2048, st = 2 →
      let n := unitOf b
      let only : State → Prop := fun t => { t with regs := s.regs, out := s.out, msixPend := s.msixPend, uci := s.uci } = s
      (n.checkOk = false → ∃ t, exec (.uciUnit u b) s = .next t ∧ (t.uciMod u).nak = true ∧ (t.uciMod u).rxSeq = x.rxSeq ∧ counted 0 t ∧ (x.nak = true → counted 1 t) ∧
        (x.fails = 2 → t.uciState u = 3) ∧ only t ∧ others t ∧
        (x.fails ≠ 2 → t.uciState u = 2 ∧ (t.uciMod u).fails = x.fails + 1 ∧ .unit u ((t.uciMod u).unit x.txSeq []) ∈ t.out)) ∧
      (n.checkOk = true → x.nak = true → n.flits = [] ∨ n.seq ≠ x.rxSeq → exec (.uciUnit u b) s = .next s) ∧
      (n.checkOk = true → n.flits ≠ [] → n.seq = x.rxSeq → ∃ t, exec (.uciUnit u b) s = .next t ∧ (t.uciMod u).rxSeq = x.rxSeq + 1 ∧ (t.uciMod u).nak = false ∧
        (t.uciMod u).fails = 0 ∧ (t.uciMod u).freed = n.flits.foldl (fun c f => vcBump c (flitVc f)) x.freed) ∧
      (∀ f, n.checkOk = true → n.flits = [f] → n.seq = x.rxSeq → partnerFlitOk f = false → x.nak = false →
        ∃ t, exec (.uciUnit u b) s = .next t ∧ counted 4 t ∧ only t) ∧
      (∀ f, n.checkOk = true → n.flits = [f] → n.seq = x.rxSeq → partnerFlitOk f = true → flitTyp f = 0 → fieldOf f 592 3 ≠ 7 →
        let addr : BitVec 64 := BitVec.ofNat 64 (fieldOf f 603 10 * 2 ^ 48 + fieldOf f 544 48)
        let c := s.queueOf (60 + u.val) 0 .rd addr.toNat
        ∃ t, exec (.uciUnit u b) s = .next t ∧ t.epQ (ifKey (60 + u.val) 0) c = s.epQ (ifKey (60 + u.val) 0) c ++
          [⟨.rd, ⟨addr, BitVec.ofNat 3 (fieldOf f 592 3), BitVec.ofNat 8 (fieldOf f 595 8), BitVec.ofNat 512 (fieldOf f 32 512), BitVec.allOnes 64, 0⟩,
            BitVec.ofNat 9 (s.fld (Pg.uciM u) Fld.UCIM_M_TENANT_TID), false⟩]) ∧
      (n.checkOk = true → n.flits = [] → x.nak = false → x.wait = [] → ∃ t, exec (.uciUnit u b) s = .next t ∧ (t.uciMod u).rxSeq = x.rxSeq ∧
        (t.uciMod u).replay = ackDrop x.replay n.ack ∧ (t.uciMod u).cred = newerCounts x.cred n.credit ∧
        (n.nak = true → ackDrop x.replay n.ack ≠ [] → counted 1 t) ∧ (n.nak = false → t.out = s.out) ∧ only t ∧ others t)))

/-- R330 to R343. ENABLE starts a span's training with the rate probe. A bad block is counted and NAKed, the next data block of the neighbour is taken in sequence, a gap is NAKed after its bound. A remote request joins its queue or is answered BUS_ERROR (TRB0); a read with credits is sent at the queue's next sequence; one without response times out (TRB4). The next frame
in sequence of a queue is taken: reads and writes are served through their export window, responses answer the oldest request (TRB5 when late), failures of posted writes are recorded (TRB7 when 16 are held). CREDIT gives credits; a gap breaks the queue (TRB3); Q_CFG enables and disables it. -/
def Obligations.TequelSpansAndQueues : Prop :=
  (∀ (a : Agent) (sp : Fin 24) (s : State),
    let pg := Pg.span sp
    let x := s.span sp
    (∀ w : BitVec 4, s.fld pg Fld.SPAN_SP_CTRL_ENABLE = 0 →
      Accepts s a.toNat pg Reg.SPAN_SP_CTRL (withFlds (s.rwWord pg Reg.SPAN_SP_CTRL) [(Fld.SPAN_SP_CTRL_WIDTH, w.toNat), (Fld.SPAN_SP_CTRL_ENABLE, 1)]) →
      ∃ t, exec (.spanEnable a sp w) s = .next t ∧ t.fld pg Fld.SPAN_SP_CTRL_ENABLE = 1 ∧ t.fld pg Fld.SPAN_SP_CTRL_WIDTH = w.toNat ∧
        (s.fld Pg.cfg Fld.CFG_CFG_STAT_USER_EN = 1 → s.spanUp sp = false → t.fld pg Fld.SPAN_SP_STAT_STATE = 1) ∧
        (s.fld Pg.cfg Fld.CFG_CFG_STAT_USER_EN = 0 → s.fld pg Fld.SPAN_SP_STAT_UP_MASK = 0 → t.fld pg Fld.SPAN_SP_STAT_STATE = s.fld pg Fld.SPAN_SP_STAT_STATE) ∧
        ∀ j < w.toNat, let st := s.laneState (s.spanLane sp j); (st ≠ 0 ∧ st ≠ 1 ∧ st ≠ 6 → t.laneState (s.spanLane sp j) = 2) ∧
          (st = 0 ∨ st = 1 ∨ st = 6 → t.laneState (s.spanLane sp j) = st)) ∧
    (s.spanUp sp = true →
      (∀ b, blockGood b = false → ∃ t, exec (.tqBlock sp b) s = .next t ∧ (t.span sp).nak = true ∧ (t.span sp).rxSeq = x.rxSeq ∧
        (s.fld pg (Fld.PG_TRB_CNT 0) < 0xFFFF → t.fld pg (Fld.PG_TRB_CNT 0) = s.fld pg (Fld.PG_TRB_CNT 0) + 1)) ∧
      (∀ (y : SpanState) (f : Frame), y.nak = false → x.ahead = [] → ∃ t, exec (.tqBlock sp (mkBlock y (some f) x.rxSeq)) s = .next t ∧
        (t.span sp).rxSeq = x.rxSeq + 1 ∧ (t.span sp).nak = false ∧ (t.span sp).ahead = []) ∧
      (∀ (y : SpanState) (f : Frame) (q : Byte), y.nak = false → 64 ≤ (q - x.rxSeq).toNat → ∃ t, exec (.tqBlock sp (mkBlock y (some f) q)) s = .next t ∧
        (t.span sp).rxSeq = x.rxSeq ∧ (t.span sp).ahead = x.ahead ∧ t.tq.inbox = s.tq.inbox ∧ t.tq.queues = s.tq.queues)) ∧
    (x.ahead ≠ [] → ∃ t, exec (.blockGapTimeout sp) s = .next t ∧ (t.span sp).ahead = [] ∧ (t.span sp).nak = true ∧ (t.span sp).rxSeq = x.rxSeq)) ∧
  (∀ (a : Agent) (k : TxnKey) (q : Fin 4096) (s : State),
    let pg := Pg.tq
    let y := s.queue q
    let counted : Nat → State → Prop := fun c t => s.fld pg (Fld.PG_TRB_CNT c) < 0xFFFF → t.fld pg (Fld.PG_TRB_CNT c) = s.fld pg (Fld.PG_TRB_CNT c) + 1
    let answered : TxnKey → Status → Line → State → Prop := fun k z d t => ∃ e, t.txn k = some e ∧ e.phase = .answered z d
    let waits : TxnKey → Prop := fun k => ∃ e, s.txn k = some e ∧ e.phase = .delivered
    let known : Bool := s.tq.queues.any fun e => (e.2.wait ++ e.2.out).any fun o => o.txn == some k
    let ring : ReqType → Nat → State → List EpEntry := fun typ addr t => t.epQ (ifKey 57 0) (t.queueOf 57 0 typ addr)
    (∀ x : Txn, s.txn k = some x → x.dst = 57 → x.phase = .delivered → known = false → s.outCount < 2048 →
      let node := x.addr.toNat / 2 ^ 33 % 2 ^ 14
      (s.queueFor x.tid.toNat node = none → ∃ t, exec (.remoteRequest k) s = .next t ∧ answered k .busError 0 t ∧ counted 0 t ∧ t.tq = s.tq) ∧
      (s.queueFor x.tid.toNat node = some q.val → s.netRunning = false ∨ mgetD 0x1E s.tq.routes node = 0x1E ∨ y.broken = true →
        ∃ t, exec (.remoteRequest k) s = .next t ∧ answered k .busError 0 t ∧ counted 0 t ∧ t.tq = s.tq) ∧
      (s.queueFor x.tid.toNat node = some q.val → s.netRunning = true → mgetD 0x1E s.tq.routes node ≠ 0x1E → y.en = true → y.broken = false → s.slotCheck false y.key y.tenant = none →
        x.typ = .rd → y.wait = [] →
        let o : OutReq := ⟨some k, some (s.slotPair y.key), false, .rd, x.addr, x.len, x.data, x.be⟩
        (1 ≤ y.txAvail → ∃ t, exec (.remoteRequest k) s = .next t ∧ (t.queue q).wait = [] ∧ (t.queue q).out = y.out ++ [o] ∧ (t.queue q).txAvail = y.txAvail - 1 ∧
          (t.queue q).tx = y.tx + 1) ∧
        (y.txAvail = 0 → ∃ t, exec (.remoteRequest k) s = .next t ∧ t.queue q = { y with wait := [o] })) ∧
      (∀ reason, s.queueFor x.tid.toNat node = some q.val → s.netRunning = true → mgetD 0x1E s.tq.routes node ≠ 0x1E → y.en = true → y.broken = false →
        s.slotCheck false y.key y.tenant = some reason → ∃ t, exec (.remoteRequest k) s = .next t ∧ answered k .busError 0 t ∧ t.tq = s.tq ∧
          t.fld Pg.ime Fld.IME_VIOL_REC_SRC = (if s.fld Pg.ime Fld.IME_VIOL_REC_VALID = 0 then 57 else s.fld Pg.ime Fld.IME_VIOL_REC_SRC))) ∧
    (∀ (f : Frame) (reason : Nat), f.queue = q.val → y.en = true → f.src = y.node → f.key = y.key → y.broken = false → s.slotCheck false y.key y.tenant = some reason →
      y.inn = [] → f.typ = 1 ∨ f.typ = 2 → let t := s.queueReceive f
        (t.queue q).held = y.held ∧ (t.queue q).inn = [] ∧ (t.queue q).tx = y.tx + 1) ∧
    (waits k → known = true → ∃ t, exec (.remoteTimeout k) s = .next t ∧ answered k .busError 0 t ∧ counted 4 t) ∧
    (∀ (typ : Nat) (f : Frame) (u : State), s.queueNext q typ = some (f, u) → (u.queue q).rx = y.rx + 1 ∧ (u.queue q).freed = (if typ < 8 then y.freed + 1 else y.freed) ∧
      (u.queue q).held.length + 1 = y.held.length ∧ { u with tq := s.tq, regs := s.regs, out := s.out, msixPend := s.msixPend } = s) ∧
    (∀ (f : Frame) (u : State), s.queueNext q 1 = some (f, u) →
      let z := u.queue q
      let off := payNum f.payload 0 5 % 2 ^ 33
      (∀ loc, u.exportAddr z.tenant off f.len = some loc → ∃ t, exec (.rdq q) s = .next t ∧ (t.queue q).tag = z.tag + 1 ∧
        (t.queue q).inn = z.inn ++ [⟨z.tag, off, true, false, none, false⟩] ∧
        let addr : BitVec 64 := BitVec.ofNat 64 (z.memKid * 2 ^ 48 + loc)
        ring .rd addr.toNat t = ring .rd addr.toNat u ++ [⟨.rd, ⟨addr, sizeLen f.len, z.tag, 0, 0, BitVec.ofNat 12 q⟩, BitVec.ofNat 9 z.tenant, false⟩]) ∧
      (∀ i rest, u.exportAddr z.tenant off f.len = none → z.inn = i :: rest → i.result = none → ∃ t, exec (.rdq q) s = .next t ∧
        (t.queue q).inn = z.inn ++ [⟨z.tag, off, true, false, some (.busError, 0), false⟩])) ∧
    (∀ (cmd : Instr) (typ : Nat), (cmd, typ) ∈ [(.wra q, 2), (.pwa q, 3)] → ∀ f u, s.queueNext q typ = some (f, u) →
      ∃ t, exec cmd s = .next t ∧ t.queue q = { u.queue q with header := some f } ∧ { t with tq := u.tq } = u) ∧
    (∀ (f : Frame) (u : State), s.queueNext q 4 = some (f, u) →
      ((u.queue q).header = none → ∃ t, exec (.wd q) s = .next t ∧ t.tq = u.tq ∧ (u.fld pg (Fld.PG_TRB_CNT 2) < 0xFFFF → t.fld pg (Fld.PG_TRB_CNT 2) = u.fld pg (Fld.PG_TRB_CNT 2) + 1)) ∧
      (∀ h loc, (u.queue q).header = some h → u.exportAddr (u.queue q).tenant (payNum h.payload 0 5 % 2 ^ 33) h.len = some loc →
        ∃ t e, exec (.wd q) s = .next t ∧ (t.queue q).header = none ∧ e.typ = (if h.typ = 3 then .wrp else .wr) ∧ e.r.data = f.payload ∧
          fieldOf e.r.addr 0 48 = ((u.queue q).memKid * 2 ^ 48 + loc) % 2 ^ 48 ∧ ring e.typ e.r.addr.toNat t = ring e.typ e.r.addr.toNat u ++ [e])) ∧
    (∀ (cmd : Instr) (typ : Nat), (cmd, typ) ∈ [(.rdataFrame q, 8), (.wackFrame q, 9)] → ∀ f u, s.queueNext q typ = some (f, u) →
      ((u.queue q).out = [] → ∃ t, exec cmd s = .next t ∧ t.rings = u.rings ∧ (u.fld pg (Fld.PG_TRB_CNT 5) < 0xFFFF → t.fld pg (Fld.PG_TRB_CNT 5) = u.fld pg (Fld.PG_TRB_CNT 5) + 1)) ∧
      (∀ o rest, (u.queue q).out = o :: rest → o.txn = some k → waits k → f.len = 0 → ∃ t, exec cmd s = .next t ∧ (t.queue q).out = rest ∧
        answered k .ok (if typ = 8 then f.payload else 0) t)) ∧
    (∀ (f : Frame) (u : State), s.queueNext q 0xA = some (f, u) → ∃ t, exec (.perr q) s = .next t ∧ t.fld pg Evt.TQ_PERR = 1 ∧
      (u.tq.perr.length < 16 → ∃ r, t.tq.perr = u.tq.perr ++ [r] ∧ r.offset = payNum f.payload 0 5 % 2 ^ 33 ∧ r.queue = q.val) ∧
      (16 ≤ u.tq.perr.length → t.tq.perr = u.tq.perr)) ∧
    (∀ (sp : Nat) (src : BitVec 14) (n : BitVec 16), (sp, CtMsg.credit src [BitVec.ofNat 32 (q.val * 2 ^ 16 + n.toNat)]) ∈ s.tq.inbox → y.en = true → y.node = src.toNat → y.wait = [] →
      1 ≤ (n - y.applied).toNat → (n - y.applied).toNat ≤ 32767 → ∃ t, exec (.credit src [BitVec.ofNat 32 (q.val * 2 ^ 16 + n.toNat)]) s = .next t ∧
        t.queue q = { y with applied := n, txAvail := y.txAvail + (n - y.applied).toNat } ∧ t.tq.inbox.length + 1 = s.tq.inbox.length) ∧
    (y.en = true → y.broken = false → y.held ≠ [] → (∀ f ∈ y.held, y.ahead f.1 ≠ 0) → ∃ t, exec (.queueGapTimeout q) s = .next t ∧ (t.queue q).broken = true ∧ counted 3 t ∧
      t.fld pg Evt.TQ_QBROKEN = 1 ∧ (t.queue q).wait = [] ∧ (t.queue q).out = [] ∧ (t.queue q).held = []) ∧
    (s.qSel = q.val →
      (∀ v : Word, y.en = false → Accepts s a.toNat pg Reg.TQ_Q_CFG (withFlds v [(Fld.TQ_Q_CFG_EN, 1)]) → ∃ t, exec (.queueEnable a v) s = .next t ∧
        (t.queue q).en = true ∧ (t.queue q).broken = false ∧ (t.queue q).tx = 0 ∧ (t.queue q).rx = 0 ∧ (t.queue q).txAvail = 0 ∧ (t.queue q).held = [] ∧
        (t.queue q).key = fieldOf v 20 10 ∧ (t.queue q).tenant = fieldOf v 0 9) ∧
      (y.en = true → Accepts s a.toNat pg Reg.TQ_Q_CFG (withFlds y.cfg [(Fld.TQ_Q_CFG_EN, 0), (Fld.TQ_Q_CFG_BROKEN, 0)]) → ∃ t, exec (.queueDisable a) s = .next t ∧
        (t.queue q).en = false ∧ (t.queue q).broken = false ∧ (t.queue q).key = y.key)) ∧
    (Accepts s a.toNat pg Reg.TQ_PERR_HI (withFlds (s.rwWord pg Reg.TQ_PERR_HI) [(Fld.TQ_PERR_HI_VALID, 1)]) → ∃ t, exec (.perrRecordPop a) s = .next t ∧
      t.tq.perr = s.tq.perr.drop 1))

/-- R331, R344 to R349, Table 14.4. A message that has come in is taken off. HELLO records the neighbour. Elections run as Table 14.4 says: a claim better than the best seen replaces it, a claimant that hears another backs off, then follows or claims in the next round, and becomes lamplighter when its round ends. The first BEACON gives parent and lamplighter; without BEACONs the lamplighter is
lost. Reports reach the lamplighter, which issues a new epoch and is RUNNING; ASSIGN gives the node its ID; edges of an epoch are collected; LINKDOWN removes a span; IDs are freed. With MANUAL, NODE and RT_DATA bring the node into service. -/
def Obligations.TequelNetwork : Prop :=
  ∀ (a : Agent) (sp : Fin 24) (s : State),
    let pg := Pg.tq
    let n := s.tq.net
    let x := s.span sp
    let own := s.ownClaim
    let got (m : CtMsg) : Prop := (sp.val, m) ∈ s.tq.inbox
    let taken : CtMsg → State → Prop := fun m t => t.tq.inbox = s.tq.inbox.erase (sp.val, m)
    (∀ h : Hello, got (.hello h) → ∃ t, exec (.hello sp h) s = .next t ∧ taken (.hello h) t ∧ t.fld (Pg.span sp) Fld.SPAN_SP_NBR_VALID = 1 ∧
      t.fld (Pg.span sp) Fld.SPAN_SP_NBR_NODE = h.node.toNat ∧ t.fld (Pg.span sp) Fld.SPAN_SP_NBR_SPAN = h.span.toNat % 32 ∧
      t.fld (Pg.span sp) Fld.SPAN_SP_NBR_ID_VALID = h.idValid.toNat ∧ (s.manual = true → t.tq.net = { n with nbrSerial := mput n.nbrSerial sp h.serial } ∧ t.out = s.out)) ∧
    (∀ (cmd : Instr) (m : CtMsg) (r : Report), (cmd, m) ∈ [(.report sp r, .report r), (.join sp r, .join r)] → got m → ∃ t, exec cmd s = .next t ∧ taken m t ∧
      t.tq.net.child = mput n.child r.serial.toNat sp.val ∧ (s.lamplighter = true → r ∈ t.tq.net.reports ∧ (r ∉ n.reports → t.tq.net.changed = true)) ∧
      (s.lamplighter = false → t.tq.net.reports = n.reports)) ∧
    (s.manual = false → s.fld pg Fld.TQ_ELECT_PRIORITY ≠ 0 → Accepts s a.toNat pg Reg.TQ_ELECT (withFlds (s.rwWord pg Reg.TQ_ELECT) [(Fld.TQ_ELECT_START, 1)]) →
      ∃ t, exec (.electionStart a) s = .next t ∧ t.tq.net.role = .claiming ∧ t.tq.net.round = 0 ∧ t.netState = 1 ∧
        t.tq.net.best = if betterOf own n.best then some own else n.best) ∧
    (∀ (c : Claim) (r : BitVec 8), got (.claim c r) →
      let x := (c.priority, c.serial)
      ∃ t, exec (.claim sp c r) s = .next t ∧ taken (.claim c r) t ∧ t.tq.net.best = (if betterOf x n.best then some x else n.best) ∧
        t.tq.net.role = (if n.role = .claiming ∧ x ≠ own then .backoff else n.role) ∧ t.netState = (if s.netState = 0 then 1 else s.netState)) ∧
    (n.role = .backoff → ∃ t, exec .backoffEnd s = .next t ∧
      (n.best.any (fun b => betterClaim b own) = true → t.tq.net = { n with role := .none } ∧ t.out = s.out) ∧
      (n.best.any (fun b => betterClaim b own) = false → t.tq.net.role = .claiming ∧ t.tq.net.round = n.round + 1)) ∧
    (n.role = .claiming → ∃ t, exec .claimRoundEnd s = .next t ∧ t.lamplighter = true ∧ t.tq.net.leader = some own ∧ t.tq.net.parent = none ∧ t.tq.net.role = .none ∧
      t.netState = 2 ∧ t.fld pg Evt.TQ_LAMPLIGHTER = 1) ∧
    (∀ b : Beacon, got (.beacon b) →
      let c := (b.priority, b.serial)
      (n.leader = none → ∃ t, exec (.beacon sp b) s = .next t ∧ taken (.beacon b) t ∧ t.tq.net.leader = some c ∧ t.tq.net.parent = some sp.val ∧ t.lamplighter = false ∧
        t.fld pg Fld.TQ_LEADER_VALID = 1 ∧ t.fld pg Fld.TQ_LEADER_ID = b.node.toNat ∧ (b.count = 0 → t.netState = 2)) ∧
      (∀ l, n.leader = some l → l ≠ c → betterClaim c l = true → ∃ t, exec (.beacon sp b) s = .next t ∧ t.tq.net.leader = some c ∧ t.tq.net.parent = some sp.val ∧
        t.nodeValid = false) ∧
      (∀ l, n.leader = some l → l ≠ c → betterClaim c l = false → exec (.beacon sp b) s = .next { s with tq.inbox := s.tq.inbox.erase (sp.val, .beacon b) })) ∧
    (s.manual = false → s.lamplighter = false → s.upSpans ≠ [] → n.role = .none → ∃ t, exec .beaconTimeout s = .next t ∧ t.tq.net.leader = none ∧
      t.tq.net.parent = none ∧ t.fld pg Fld.TQ_LEADER_VALID = 0 ∧ t.nodeId = s.nodeId ∧ t.nodeValid = s.nodeValid ∧
      t.tq.net.role = if s.fld pg Fld.TQ_ELECT_PRIORITY = 0 then .none else .claiming) ∧
    (s.lamplighter = true → s.manual = false → s.spanUp sp = true → x.wait = [] → x.replay.length < 64 → (x.sentCT - x.credCT).toNat < 32 →
      let b : Frame := mkFrame 0 s.nodeId 0 0 0 0x25 0 (payOf [(0, 8, own.2.toNat), (8, 1, own.1.toNat), (10, 2, s.nodeId % 2 ^ 14), (12, 3, n.epoch.toNat), (16, 4, (n.count.getD 0).toNat)])
      ∃ t, exec .beaconTick s = .next t ∧ .block sp (mkBlock x (some b) x.txSeq) ∈ t.out ∧ (t.span sp).replay = x.replay ++ [(x.txSeq, b)] ∧
        (t.span sp).txSeq = x.txSeq + 1 ∧ t.tq.net = n ∧ t.tq.queues = s.tq.queues ∧ { t with tq := s.tq, out := s.out } = s) ∧
    (s.lamplighter = false ∨ s.manual = true → exec .beaconTick s = .next s) ∧
    (∀ (rep nbr : BitVec 14) (x : BitVec 8), got (.linkdown rep nbr x) → s.lamplighter = true → ∃ t, exec (.linkdown rep nbr x) s = .next t ∧ t.tq.net.changed = true ∧
      (∀ r ∈ t.tq.net.reports, r ∈ n.reports ∧ ¬ (mget n.ids r.serial.toNat = some rep ∧ r.span = x)) ∧ t.tq.inbox.length + 1 = s.tq.inbox.length) ∧
    (∀ cmd : Instr, (cmd = .reportQuiet ∧ s.netState = 2) ∨ (cmd = .epochTimer ∧ s.netState = 3 ∧ n.changed = true) → s.lamplighter = true →
      ∃ t, exec cmd s = .next t ∧ t.netState = 3 ∧ t.tq.net.epoch = n.epoch + 1 ∧ t.tq.net.edgeEpoch = n.epoch + 1 ∧ t.tq.net.changed = false) ∧
    (∀ id : BitVec 14, exec (.idFreeTimer id) s = .next { s with tq.net.lost := n.lost.filter fun i => i != id }) ∧
    (∀ (serial : BitVec 64) (id : BitVec 14), got (.assign serial id) → ∃ t, exec (.assign sp serial id) s = .next t ∧ taken (.assign serial id) t ∧
      (serial = s.serial → t.nodeId = id.toNat ∧ t.nodeValid = true ∧ t.tq.net.bound = some id) ∧ (serial ≠ s.serial → t.tq.net = n ∧ t.nodeId = s.nodeId)) ∧
    (∀ (epoch : BitVec 24) (edges : List (BitVec 14 × BitVec 14)), got (.topo epoch edges) → ∃ t, exec (.topo sp epoch edges) s = .next t ∧ taken (.topo epoch edges) t ∧
      t.tq.net.edgeEpoch = epoch ∧ (∀ e ∈ edges, e ∈ t.tq.net.edges) ∧ (n.edgeEpoch = epoch → ∀ e ∈ n.edges, e ∈ t.tq.net.edges)) ∧
    (∀ v : Word, Accepts s a.toNat pg Reg.TQ_NODE v → ∃ t, exec (.nodeWrite a v) s = .next t ∧
      (v.getLsbD 31 = true → t.nodeId = fieldOf v 0 14 ∧ t.nodeValid = true ∧ t.netState = 3 ∧ (s.netState ≠ 3 → t.fld pg Evt.TQ_RUNNING = 1)) ∧
      (v.getLsbD 31 = false → t.nodeValid = false ∧ t.netState = 0)) ∧
    (∀ v : Word, Accepts s a.toNat pg Reg.TQ_RT_DATA v →
      let i := s.fld pg Fld.TQ_RT_IDX_INDEX
      ∃ t, exec (.rtData a (some v)) s = .next t ∧ mgetD 0x1E t.tq.routes i = v.setWidth 5 ∧
        (∀ j, j ≠ i → mgetD 0x1E t.tq.routes j = mgetD 0x1E s.tq.routes j) ∧
        t.fld pg Fld.TQ_RT_IDX_INDEX = if s.fld pg Fld.TQ_RT_IDX_AUTOINC = 1 then (i + 1) % 16384 else i) ∧
    (s.reaches a.toNat pg = true → s.pathRd a.toNat = true → mget s.hiRec (hiKey a.toNat pg Reg.TQ_RT_DATA) = none → s.fld pg Fld.TQ_RT_IDX_AUTOINC = 1 → ∃ t, exec (.rtData a none) s = .next t ∧ t.tq = s.tq ∧
      t.fld pg Fld.TQ_RT_IDX_INDEX = (s.fld pg Fld.TQ_RT_IDX_INDEX + 1) % 16384)

/-- R354 to R361, R367, R368. After the oscillator delay both inputs are measured and the DPLL enters MASTER where one is present and permitted, with the fixed loops locked. A candidate that qualifies or fails is followed by the selection of R358; ACQUIRE ends in TRACK; TO_MASTER and a REF_PRIO without candidates release the reference.
The loss of the master counts, and MX0 leaves it by the forced path (AUTO_FORCE) or hangs; MX0_FORCE completes a hung switch; an input that returns is measured again, at a frequency that is free (log 1). -/
def Obligations.TimingReferences : Prop :=
  ∀ (a : Agent) (j : Fin 8) (s : State),
    let pg := Pg.clkRef
    let mode := s.dpllMode
    let cur := s.dpllRef
    let counted : Nat → Nat → State → Prop := fun p c t => s.fld p (Fld.PG_TRB_CNT c) < 0xFFFF → t.fld p (Fld.PG_TRB_CNT c) = s.fld p (Fld.PG_TRB_CNT c) + 1
    let follows : Nat → State → Prop := fun r t => t.dpllMode = 2 ∧ t.dpllRef = r ∧ t.fld pg Evt.REF_REF_SWITCH = 1
    let holds : State → Prop := fun t => t.dpllMode = 4 ∧ t.dpllRef = 15 ∧ t.fld pg Evt.REF_HOLDOVER = 1 ∧ counted pg 2 t
    let frees : State → Prop := fun t => t.dpllMode = 1 ∧ t.dpllRef = 15 ∧ t.clk.released = true ∧ t.fld pg Evt.REF_REF_SWITCH = 1
    let src := s.fld Pg.clkCtl Fld.CLK_MUX_STAT_MX0_SRC
    (s.boot.held = 0 → s.boot.refsUp = false → ∃ t, exec .oscDlyExpiry s = .next t ∧ (∀ i < 2, t.refFreq i < 3 ∧ (t.refPresent i = true ↔ t.refFreq i ≠ 0)) ∧
      (t.chooseMaster = none → t.boot.refsUp = false ∧ t.dpllMode = mode) ∧
      (∀ i, t.chooseMaster = some i → t.boot.refsUp = true ∧ t.dpllMode = 1 ∧ t.dpllRef = 15 ∧ t.fld pg Fld.REF_DPLL_STAT_MASTER = i ∧
        t.fld Pg.clkCtl Fld.CLK_MUX_STAT_MX1_SRC = 0 ∧ ∀ e ∈ fixedLoops, t.loopState e.1 = 2 ∧ t.fld Pg.clkMl (Fld.ML_CFG_FREQ_KHZ e.1) = e.2)) ∧
    (s.refPrio j ≠ 0 → s.refQual j = false → (s.fld pg Fld.REF_REF_STAT_LANE_VALID).testBit j = true →
      ∃ t, exec (.referenceQualified j) s = .next t ∧ t.refQual j = true ∧ (∀ k : Fin 8, k ≠ j → t.refQual k = s.refQual k) ∧
        ((mode = 1 ∨ mode = 4) → s.clk.released = false → ∃ b, t.bestRef = some b ∧ follows b t) ∧
        ((mode = 2 ∨ mode = 3) → s.refPrio cur ≠ 0 → s.refQual cur = true → s.fld pg Fld.REF_DPLL_CTRL_REVERT = 0 → t.dpllMode = mode ∧ t.dpllRef = cur) ∧
        (∀ b, (mode = 2 ∨ mode = 3) → s.clk.released = false → s.fld pg Fld.REF_DPLL_CTRL_REVERT = 1 → t.bestRef = some b → s.refPrio b < s.refPrio cur → follows b t)) ∧
    (s.refQual j = true → ∃ t, exec (.qualificationLoss j) s = .next t ∧ t.refQual j = false ∧ (∀ k : Fin 8, k ≠ j → t.refQual k = s.refQual k) ∧
      ((mode = 2 ∨ mode = 3) → s.clk.released = false → cur = j.val → (t.bestRef = none → holds t) ∧ ∀ b, t.bestRef = some b → follows b t)) ∧
    (mode = 2 → ∃ t, exec .acquireComplete s = .next t ∧ t.dpllMode = 3 ∧ t.dpllRef = cur ∧ { t with regs := s.regs } = s) ∧
    (Accepts s a.toNat pg Reg.REF_DPLL_CTRL (withFlds (s.rwWord pg Reg.REF_DPLL_CTRL) [(Fld.REF_DPLL_CTRL_TO_MASTER, 1)]) → 2 ≤ mode ∧
      ∃ t, exec (.toMaster a) s = .next t ∧ frees t) ∧
    (∀ v : Word, Accepts s a.toNat pg Reg.REF_REF_PRIO v → ∃ t, exec (.refPrioWrite a v) s = .next t ∧ t.reg pg Reg.REF_REF_PRIO = v ∧
      (∀ k : Fin 8, t.refQual k = (s.refQual k && fieldOf v (4 * k) 4 != 0)) ∧
      (v = 0 → 2 ≤ mode → frees t) ∧ (v ≠ 0 → t.clk.released = false ∧
        (∀ b, (mode = 1 ∨ mode = 4) → t.bestRef = some b → follows b t) ∧ ((mode = 2 ∨ mode = 3) → t.bestRef = none → holds t))) ∧
    (∃ t, exec (.clockLoss .osc) s = .next t ∧ t.fld Pg.clkCtl Fld.CLK_MUX_STAT_RO_SEL = 1 ∧ { t with regs := s.regs } = s) ∧
    ((s.fld pg Fld.REF_REF_STAT_LANE_VALID).testBit j = true → ∃ t, exec (.clockLoss (.recov j)) s = .next t ∧ counted pg 0 t ∧ t.refQual j = false ∧
      (t.fld pg Fld.REF_REF_STAT_LANE_VALID).testBit j = false) ∧
    (mode ≠ 0 → s.boot.refsUp = true → exec (.clockLoss .sysref) s = .next { s with clk.lost := true }) ∧
    (∀ (c : ClockSrc) (i : Nat), (c, i) ∈ [(.refA, 0), (.refB, 1)] → s.refPresent i = true → ∃ t, exec (.clockLoss c) s = .next t ∧
      t.refPresent i = false ∧ t.refFreq i = 0 ∧ t.fld pg Fld.REF_REF_STAT_DISAGREE = 0 ∧
      (mode = 0 ∨ s.fld pg Fld.REF_DPLL_STAT_MASTER ≠ i → { t with regs := s.regs } = s ∧ t.dpllMode = mode) ∧
      (mode ≠ 0 → s.fld pg Fld.REF_DPLL_STAT_MASTER = i → counted pg 1 t ∧ t.fld pg Evt.REF_MASTER_LOSS = 1 ∧
        (s.refPresent (1 - i) = true → s.refPermitted (1 - i) = true → t.dpllMode = mode ∧
          (s.fld Pg.clkCtl Fld.CLK_MUX_CTRL_AUTO_FORCE = 1 → t.clk.lost = false ∧ t.fld pg Fld.REF_DPLL_STAT_MASTER = 1 - i ∧ t.fld Pg.clkCtl Fld.CLK_MUX_STAT_MX0_SRC = 1 - i ∧
            counted Pg.clkCtl 0 t ∧ t.fld Pg.clkCtl Evt.CLK_FORCED = 1) ∧
          (s.fld Pg.clkCtl Fld.CLK_MUX_CTRL_AUTO_FORCE = 0 → t.clk.lost = true ∧ t.fld Pg.clkCtl Fld.CLK_MUX_STAT_MX0_HUNG = 1 ∧ t.fld Pg.clkCtl Fld.CLK_MUX_STAT_MX0_SRC = src)) ∧
        (s.refPresent (1 - i) = false → t.dpllMode = 0 ∧ t.dpllRef = 15 ∧ t.clk.lost = true))) ∧
    (Accepts s a.toNat Pg.clkCtl Reg.CLK_MUX_CTRL (withFlds (s.rwWord Pg.clkCtl Reg.CLK_MUX_CTRL) [(Fld.CLK_MUX_CTRL_MX0_FORCE, 1)]) →
      s.fld Pg.clkCtl Fld.CLK_MUX_STAT_MX0_HUNG = 1 ∧ ∃ t, exec (.mx0Force a) s = .next t ∧ counted Pg.clkCtl 0 t ∧ t.fld Pg.clkCtl Evt.CLK_FORCED = 1 ∧
        t.fld Pg.clkCtl Fld.CLK_MUX_STAT_MX0_HUNG = 0 ∧ t.fld Pg.clkCtl Fld.CLK_MUX_STAT_MX0_SRC = 1 - src ∧
        (s.refPresent (1 - src) = true → s.clk.failed = false → mode ≠ 0 → t.clk.lost = false ∧ t.dpllMode = mode ∧ t.fld pg Fld.REF_DPLL_STAT_MASTER = 1 - src) ∧
        (∀ l : Fin 64, s.refPresent (1 - src) = true → s.clk.failed = true → s.loopState l = 3 → t.clk.lost = false ∧ t.clk.safeStep = 2 ∧ t.loopState l = 1 ∧
          (s.bestRef = none → t.dpllMode = 1) ∧ ∀ b, s.bestRef = some b → s.clk.released = false → follows b t)) ∧
    (s.boot.held = 0 → s.boot.refsUp = true →
      (s.refPresent 0 = false → s.refPresent 1 = false → ∃ t i, exec .masterReturn s = .next t ∧ i < 2 ∧ t.refPresent i = true ∧ 1 ≤ t.refFreq i ∧ t.refFreq i ≤ 2) ∧
      (∀ i < 2, s.refPresent i = false → s.refPresent (1 - i) = true → ∃ t, exec .masterReturn s = .next t ∧ t.refPresent i = true ∧ 1 ≤ t.refFreq i ∧ t.refFreq i ≤ 2 ∧
        (s.clk.lost = false → t.clk = s.clk ∧ t.fld Pg.clkCtl Fld.CLK_MUX_STAT_MX0_SRC = src) ∧
        (s.clk.lost = true → s.clk.failed = false → mode ≠ 0 → s.fld Pg.clkCtl Fld.CLK_MUX_STAT_MX0_HUNG = 1 → i = src → t.clk.lost = false ∧
          t.fld Pg.clkCtl Fld.CLK_MUX_STAT_MX0_HUNG = 0 ∧ t.fld Pg.clkCtl Fld.CLK_MUX_STAT_MX0_SRC = 1 - src)))

/-- R362 to R366, R369 to R371, Tables 15.4 and 15.5. ON starts a loop that is OFF, which locks; a lock loss relocks it, the third failed relock in succession fails it. Gates follow their requests; a request to close a gate in use is refused, recorded and counted. WICK opens a gate or starts a loop, times out with a count, and an island that it opened closes again when idle.
400 ns after SYSREF is lost the controllers that serve are in self-refresh; a source failure stops the loops and lanes (SAFE_WAIT) or resets the device (RESET, and SAFE_WAIT that times out); RELEASE ends the safe states. -/
def Obligations.LoopsGatesAndFailure : Prop :=
  ∀ (a : Agent) (l : Fin 64) (m : Fin 8) (c : Fin 16) (b : Fin 32) (k : Fin 24) (v : Word) (s : State),
    let pg := Pg.clkRef
    let ml := Pg.clkMl
    let fc := Pg.fabCtl m
    let counted : Nat → Nat → State → Prop := fun p c t => s.fld p (Fld.PG_TRB_CNT c) < 0xFFFF → t.fld p (Fld.PG_TRB_CNT c) = s.fld p (Fld.PG_TRB_CNT c) + 1
    let busy : Nat × Nat → State → Prop := fun x t => counted Pg.clkCtl 1 t ∧ t.fld Pg.clkCtl Fld.CLK_GATE_BUSY_VALID = 1 ∧
      t.fld Pg.clkCtl Fld.CLK_GATE_BUSY_KIND = x.1 % 16 ∧ t.fld Pg.clkCtl Fld.CLK_GATE_BUSY_INDEX = x.2 % 4096
    let reset : State → Prop := fun t => t.fld pg Fld.REF_LOSS_STAT_LAST_RESET = 1 ∧ t.fld pg Fld.REF_LOSS_STAT_SAFE = 0 ∧ t.boot.refsUp = false ∧ t.clk.lost = false ∧
      t.clk.safeStep = 0 ∧ t.fld Pg.rst Fld.RST_RST_CAUSE_SYS = 2
    (s.loopState l = 0 → s.fld ml (Fld.ML_CFG_ON l) = 0 → Accepts s a.toNat ml (Reg.ML_CFG l) (withFlds (s.rwWord ml (Reg.ML_CFG l)) [(Fld.ML_CFG_ON l, 1)]) →
      ∃ t, exec (.loopOn a l) s = .next t ∧ t.fld ml (Fld.ML_CFG_ON l) = 1 ∧ t.loopState l = 1 ∧ t.fld ml (Fld.ML_CFG_FREQ_KHZ l) = s.fld ml (Fld.ML_CFG_FREQ_KHZ l) ∧
        { t with regs := s.regs } = s) ∧
    (s.fld ml (Fld.ML_CFG_ON l) = 1 →
      let w := withFlds (s.rwWord ml (Reg.ML_CFG l)) [(Fld.ML_CFG_ON l, 0)]
      (Accepts s a.toNat ml (Reg.ML_CFG l) w → s.loopBusy l = none ∧ ∃ t, exec (.loopOff a l) s = .next t ∧
        t.fld ml (Fld.ML_CFG_ON l) = 0 ∧ t.loopState l = 0 ∧ t.fld ml (Fld.ML_STAT_RELOCKS l) = 0 ∧ { t with regs := s.regs } = s) ∧
      (∀ x, s.reaches a.toNat ml = true → s.writeReason a.toNat ml (Reg.ML_CFG l) 0xF w = some rCHILD → s.loopBusy l = some x →
        ∃ t, exec (.loopOff a l) s = .next t ∧ busy x t ∧ t.fld ml (Fld.ML_CFG_ON l) = 1 ∧ t.loopState l = s.loopState l)) ∧
    (s.loopState l = 1 → s.dpllMode ≠ 0 → s.clk.lost = false → s.clk.safeStep ≠ 2 → ∃ t, exec (.loopLocked l) s = .next t ∧ t.loopState l = 2 ∧
      t.fld ml (Fld.ML_STAT_RELOCKS l) = 0 ∧ { t with regs := s.regs } = s ∧ (l = 57 → t.fld Pg.clkCtl Fld.CLK_MUX_STAT_MX1_SRC = 0)) ∧
    (s.clk.lost = false → (s.loopState l = 2 → ∃ t, exec (.loopLockLoss l) s = .next t ∧ t.loopState l = 1 ∧ counted ml 0 t ∧
        (l = 57 → t.fld Pg.clkCtl Fld.CLK_MUX_STAT_MX1_SRC = 1)) ∧
      (s.loopState l = 1 → let n := s.fld ml (Fld.ML_STAT_RELOCKS l);
        (n < 2 → ∃ t, exec (.loopLockLoss l) s = .next t ∧ t.loopState l = 1 ∧ t.fld ml (Fld.ML_STAT_RELOCKS l) = n + 1 ∧ { t with regs := s.regs } = s) ∧
        (2 ≤ n → s.clk.safeStep ≠ 2 → ∃ t, exec (.loopLockLoss l) s = .next t ∧ t.loopState l = 4 ∧ counted ml 1 t ∧ (t.reg Pg.alm Reg.ALM_ALM_SUM).getLsbD 8 = true))) ∧
    (Accepts s a.toNat ml (Reg.ML_THR l) v → ∃ t, exec (.skip a l v) s = .next t ∧ t.fld ml (Fld.ML_THR_SKIP l) = v.toNat % 16 ∧ { t with regs := s.regs } = s ∧
      ∀ k2 : Fin 64, k2 ≠ l → t.reg ml (Reg.ML_THR k2) = s.reg ml (Reg.ML_THR k2)) ∧
    (let old := s.fld fc Fld.FABCTL_CREG_GATE_GATE;
      let new := v.toNat % 65536;
      (s.fld fc Fld.FABCTL_DIE_STAT_PWR_STATE = 3 → Accepts s a.toNat fc Reg.FABCTL_CREG_GATE v → ∃ t, exec (.cregGate a m v) s = .next t ∧
        t.fld fc Fld.FABCTL_CREG_GATE_GATE = new ∧ t.cregOpen m c = (if new.testBit c = old.testBit c then s.cregOpen m c else !new.testBit c) ∧
        (new.testBit c = false → Island.creg m c ∉ t.clk.woken)) ∧
      (∀ x, s.reaches a.toNat fc = true → s.writeReason a.toNat fc Reg.FABCTL_CREG_GATE 0xF v = some rCHILD → closeBusy old new 16 (s.cregBusy m) = some x →
        ∃ t, exec (.cregGate a m v) s = .next t ∧ busy x t ∧ t.fld fc Fld.FABCTL_CREG_GATE_GATE = old ∧ t.cregOpen m c = s.cregOpen m c)) ∧
    (let old := s.reg Pg.clkCtl (Reg.CLK_FDIE_GATE m);
      (Accepts s a.toNat Pg.clkCtl (Reg.CLK_FDIE_GATE m) v → ∃ t, exec (.fdieGate a m v) s = .next t ∧ t.reg Pg.clkCtl (Reg.CLK_FDIE_GATE m) = v ∧
        (v.getLsbD b = false → t.fdieOpen m b = true ∧ Island.fdie m b ∉ t.clk.woken) ∧ (v.getLsbD b = true → (Island.fdie m b ∈ t.clk.woken ↔ Island.fdie m b ∈ s.clk.woken))) ∧
      (∀ x, s.reaches a.toNat Pg.clkCtl = true → s.writeReason a.toNat Pg.clkCtl (Reg.CLK_FDIE_GATE m) 0xF v = some rCHILD →
        closeBusy old.toNat v.toNat 32 (s.fdieBusy m) = some x → ∃ t, exec (.fdieGate a m v) s = .next t ∧ busy x t ∧ t.reg Pg.clkCtl (Reg.CLK_FDIE_GATE m) = old)) ∧
    (∀ i : Island, s.clk.lost = true → exec (.wick i) s = .next s) ∧
    (s.clk.lost = false →
      let opened (i : Island) (t : State) : Prop := i ∈ t.clk.woken ∧ t.wicks = s.wicks.filter (· ≠ i);
      (s.cregOpen m c = false → s.dieUp m = true → ∃ t, exec (.wick (.creg m c)) s = .next t ∧ t.cregOpen m c = true ∧ opened (.creg m c) t) ∧
      (s.fdieOpen m b = false → ∃ t, exec (.wick (.fdie m b)) s = .next t ∧ t.fdieOpen m b = true ∧ opened (.fdie m b) t) ∧
      (s.fld (Pg.lan k) Fld.LAN_LAN_STAT_PWR = 2 → ∃ t, exec (.wick (.lantern k)) s = .next t ∧ t.lanOpen k = true ∧ opened (.lantern k) t) ∧
      (s.loopState l = 0 → ∃ t, exec (.wick (.loop l)) s = .next t ∧ t.loopState l = 1 ∧ t.fld ml (Fld.ML_CFG_ON l) = 1 ∧ t.wicks = s.wicks.filter (· ≠ .loop l))) ∧
    (∀ i : Island, i ∈ s.wicks → ∃ t, exec (.wickTimeout i) s = .next t ∧ counted Pg.clkCtl 2 t ∧ t.fld Pg.clkCtl Evt.CLK_WICK_TO = 1 ∧ t.wicks = s.wicks) ∧
    (Island.creg m c ∈ s.clk.woken → s.cregBusy m c = none → ∃ t, exec (.gateIdleClose (.creg m c)) s = .next t ∧ t.clk.woken = s.clk.woken.erase (.creg m c) ∧
      t.cregOpen m c = (s.cregOpen m c && !(s.fld fc Fld.FABCTL_CREG_GATE_GATE).testBit c) ∧ { t with regs := s.regs, clk := s.clk } = s) ∧
    (Island.fdie m b ∈ s.clk.woken → s.fdieBusy m b = none → exec (.gateIdleClose (.fdie m b)) s = .next { s with clk.woken := s.clk.woken.erase (.fdie m b) }) ∧
    (s.clk.lost = true → ∃ t, exec .sourceLossSelfRefresh s = .next t ∧ ∀ d : Fin 136, s.cbRuns d = true → t.cb d Fld.CB_CB_STAT_STATE = 4 ∧ (∀ r < s.rankCount d, t.owes d r = 0) ∧
      mgetD [] t.dram.wq d = mgetD [] s.dram.wq d) ∧
    (s.clk.lost = true → s.clk.failed = false → s.boot.refsUp = true → s.chooseMaster = none ∨ s.fld Pg.clkCtl Fld.CLK_MUX_STAT_MX0_HUNG = 1 →
      (s.fld pg Fld.REF_LOSS_CTRL_ACTION = 0 → s.fld Pg.cfgh Fld.CFGH_H_STAT_STATE ≠ 1 → s.fld Pg.cfgh Fld.CFGH_H_STAT_STATE ≠ 2 → ∃ t, exec .sourceFailure s = .next t ∧ counted pg 3 t ∧ t.fld pg Evt.REF_SOURCE_FAIL = 1 ∧ t.fld pg Fld.REF_LOSS_STAT_SAFE = 1 ∧
        t.fld pg Fld.REF_LOSS_STAT_COUNT = min 0xFFFF (s.fld pg Fld.REF_LOSS_STAT_COUNT + 1) ∧ t.clk.failed = true ∧ t.clk.safeStep = 1 ∧
        t.fld Pg.clkCtl Fld.CLK_MUX_STAT_MX1_SRC = 1 ∧ t.loopState l = (if s.loopState l = 1 ∨ s.loopState l = 2 then 3 else s.loopState l) ∧
        ∀ x : Fin 192, t.laneState x = min 1 (s.laneState x)) ∧
      (s.fld pg Fld.REF_LOSS_CTRL_ACTION = 1 → ∃ t, exec .sourceFailure s = .next t ∧ reset t)) ∧
    (s.clk.safeStep = 1 → ∃ t, exec .safeWaitTimeout s = .next t ∧ reset t) ∧
    (s.fld pg Fld.REF_LOSS_STAT_SAFE = 1 → Accepts s a.toNat pg Reg.REF_LOSS_CTRL (withFlds (s.rwWord pg Reg.REF_LOSS_CTRL) [(Fld.REF_LOSS_CTRL_RELEASE, 1)]) →
      3 ≤ s.clk.safeStep ∧ ∃ t, exec (.safeRelease a) s = .next t ∧ t.fld pg Fld.REF_LOSS_STAT_SAFE = 0 ∧ t.clk.safeStep = 0 ∧
        ∀ x : Fin 192, s.laneState x = 1 → s.laneGroups.getLsbD (x.val / 16) = true → s.fld (Pg.lane x) Fld.LN_CTRL_ENABLE = 1 → 2 ≤ t.laneState x)

/-- R376 to R387, R389 to R396, Tables 16.2 and 16.9. VCC_AUX ends the state without power; T0 samples the straps and starts the device unless RESET_N is low. Self-test runs in tapers: a failing cell with a spare is repaired, a failing unit is held out, an essential one halts the device, the last taper ends self-test.
A bank with a listed sector or a bad header fails its load, with LOAD_ERR, and the next source of R380 follows; a verified image is taken, another fails; the firmware runs or the load fails; DONE is released with the dies of RESOURCES powered, and user logic is enabled at once (LOCAL) or at DONE high (SHARED). -/
def Obligations.FromPowerToUser : Prop :=
  ∀ s : State,
    let pg := Pg.cfg
    let b := s.boot
    let counted : Nat → Nat → State → Prop := fun p c t => s.fld p (Fld.PG_TRB_CNT c) < 0xFFFF → t.fld p (Fld.PG_TRB_CNT c) = s.fld p (Fld.PG_TRB_CNT c) + 1
    let disabled : State → Prop := fun t => ∀ l : Fin 192, t.laneState l = 1
    let failed : Nat → Nat → State → Prop := fun src reason t => t.fld pg Fld.CFG_LOAD_ERR_VALID = 1 ∧ t.fld pg Fld.CFG_LOAD_ERR_SOURCE = src % 8 ∧
      t.fld pg Fld.CFG_LOAD_ERR_REASON = reason % 256 ∧ t.fld pg Evt.CFG_LOAD_FAIL = 1 ∧ t.boot.loading = none ∧ t.boot.verified = false ∧
      t.fld Pg.mbx Fld.MBX_MBX_INFO_FW_RUN = 0
    let user : State → Prop := fun t => t.cfgState = 6 ∧ t.fld pg Fld.CFG_CFG_STAT_USER_EN = 1 ∧ t.fld pg Evt.CFG_USER_EN = 1
    (b.held = 5 → exec .auxPowerUp s = .next { s with boot.held := 1, boot.resetLow := true, mgmt.perst := false, ember.onVbat := false }) ∧
    (∀ (src : BitVec 2) (dly : BitVec 3), b.held = 1 → ∃ t, exec (.powerOnResetRelease src dly) s = .next t ∧ t.fld pg Fld.CFG_STRAP_BOOT_SRC = src.toNat ∧
      t.fld pg Fld.CFG_STRAP_BAD = (decide (src = 3)).toNat ∧ t.fld Pg.clkRef Fld.REF_STRAP_OSC_DLY = dly.toNat ∧
      t.fld Pg.clkRef Fld.REF_STRAP_BAD = (decide (6 ≤ dly.toNat)).toNat ∧ t.fld Pg.rst Fld.RST_RST_CAUSE_LAST = 1 ∧ t.rings = {} ∧ t.engs = {} ∧ t.dram = {} ∧
      t.tq = {} ∧ t.coh = {} ∧ t.boot.held = (if b.resetLow then 2 else 0) ∧ (b.resetLow = false → disabled t ∧ t.boot.t0 = s.ns)) ∧
    (b.held = 2 → ∃ t, exec .resetNRelease s = .next t ∧ t.boot = { b with held := 0, resetLow := false, t0 := s.ns } ∧ disabled t) ∧
    (b.held ≠ 2 → exec .resetNRelease s = .next { s with boot.resetLow := false }) ∧
    (b.held = 0 → b.refsUp = true → s.cfgState = 0 → b.taper = none → b.bistDone = false → ∃ t, exec .bootBist s = .next t ∧ t.cfgState = 1 ∧ t.boot.taper = some 0 ∧
      (t.boot.full = true ↔ s.fld Pg.bist Fld.BIST_BOOT_CTRL_FULL = 1) ∧ { t with regs := s.regs, boot := b } = s) ∧
    (∀ k, b.taper = some k →
      let last := if b.full then 4 else 3
      (k < last → ∃ t, exec (.taperEnd [] []) s = .next t ∧ t.boot.taper = some (k + 1) ∧ { t with boot := b } = s) ∧
      (∀ f : MemFail, k < last → (recordUnit (fieldOf f.bits 60 4) (fieldOf f.bits 52 7)).inTaper k = true → f.spare = true → repValid (recordEntry f.bits) = true →
        (∀ x ∈ s.integ.applied, repSpare x ≠ repSpare (recordEntry f.bits)) → ∃ t, exec (.taperEnd [] [f]) s = .next t ∧
          t.integ.applied = s.integ.applied ++ [recordEntry f.bits] ∧ t.boot.failed = b.failed.eraseDups ∧ t.boot.repaired = true ∧
          counted Pg.bist 0 t ∧ counted Pg.bist 1 t) ∧
      (last ≤ k → b.failed = [] → ∃ t, exec (.taperEnd [] []) s = .next t ∧ t.boot.taper = none ∧ t.boot.bistDone = true ∧ t.fld Pg.bist Fld.BIST_BOOT_STAT_DONE = 1 ∧
        t.fld Pg.bist Fld.BIST_BOOT_STAT_RESULT = (if b.repaired then 2 else 1) ∧
        t.cfgState = if s.bootSrc = 1 ∨ s.fld Pg.bist Fld.BIST_FAIL_PORT_NV = 1 then 4 else s.cfgState) ∧
      (∀ u : TestUnit, last ≤ k → b.failed = [] → u.inTaper k = true → ∃ t, exec (.taperEnd [u] []) s = .next t ∧ t.boot.bistDone = true ∧
        t.fld Pg.bist Fld.BIST_BOOT_STAT_RESULT = 3 ∧ (∀ f n, u.place.1 = some (f, n) → (t.fld Pg.bist f).testBit n = true) ∧
        (s.essential [u] u = true → t.cfgState = 8 ∧ t.boot.held = 4) ∧ (s.essential [u] u = false → t.boot.held = b.held))) ∧
    (b.held = 0 → b.bistDone = true → b.refsUp = true → b.loading = none → s.bootSrc ≠ 1 → s.fld Pg.bist Fld.BIST_FAIL_PORT_NV = 0 → s.cfgState = 1 ∨ s.cfgState = 2 →
      ∀ bank rest, s.banksLeft = bank :: rest →
        let next : State → Prop := fun t => t.boot.tried = (bank + 1) :: b.tried ∧ counted pg 0 t ∧ t.cfgState = if rest ≠ [] then 2 else if 2 ≤ s.bootSrc then 4 else 7
        (s.badSectors.any (sectorIn bank) = true → ∃ t, exec .imageLoad s = .next t ∧ failed (bank + 1) 0x10 t ∧ next t) ∧
        (s.badSectors.any (sectorIn bank) = false → ∀ h u, (s.setCfgState 2).nvBytes (bankBase bank) 0x1000 = (some h, u) →
          (∀ e, u.headerError false h = some e → ∃ t, exec .imageLoad s = .next t ∧ failed (bank + 1) e.1 t ∧ t.fld pg Fld.CFG_LOAD_ERR_INDEX = e.2 % 65536 ∧ next t) ∧
          (∀ img v main aux w, u.headerError false h = none → (u.imageOf (bank + 1) h).sectionError false h = none →
            nvSections bank (u.imageOf (bank + 1) h).order (u.imageOf (bank + 1) h) u = (none, img, v) → v.nvImage bank img = (some (main, aux), w) →
            img.paddingOk main = true → img.declOk = true → w.imageRules = true → ∃ t, exec .imageLoad s = .next t ∧ t.boot.loading = some { img with verdict := img.judge main aux } ∧
              { t with boot := w.boot } = w))) ∧
    (∀ img, b.loading = some img →
      (b.verified = false → s.copyEnded = true →
        (img.verdict = 0 → ∃ t, exec .loadVerify s = .next t ∧ t.cfgState = 3 ∧ t.boot = { b with verified := true, localDone := t.boot.localDone } ∧
          (t.boot.localDone = true ↔ s.fld pg Fld.CFG_DONE_CTRL_MODE = 1) ∧ { t with regs := s.regs, boot := b } = s) ∧
        (img.verdict ≠ 0 → ∃ t, exec .loadVerify s = .next t ∧ failed img.src img.verdict t ∧ t.design = {} ∧ (img.src = 3 → t.cfgState = 4))) ∧
      (b.verified = true → s.fld Pg.mbx Fld.MBX_MBX_INFO_FW_RUN = 0 →
        (∀ v, ∃ t, exec (.firmwareStart v) s = .next t ∧ t.fld Pg.mbx Fld.MBX_MBX_INFO_FW_RUN = 1 ∧ t.fld Pg.mbx Fld.MBX_MBX_INFO_VERSION = v.toNat ∧
          { t with regs := s.regs, mgmt := s.mgmt, free := s.free } = s) ∧
        (∃ t, exec .firmwareTimeout s = .next t ∧ failed img.src 0x12 t ∧ t.design = {})) ∧
      (b.verified = true → s.readyForDone = true → (∀ r ∈ s.design.regions, r.2.2 < 32) → ∃ t, exec .doneRelease s = .next t ∧ t.boot.running = some img ∧
        t.boot.loading = none ∧ t.fld pg Fld.CFG_CFG_STAT_DONE_OUT = 1 ∧ t.reg pg Reg.CFG_IMAGE_ID = img.id ∧ t.fld pg Fld.CFG_CFG_STAT_SOURCE = img.src % 16 ∧
        (b.tried ≠ [] → t.fld pg Fld.CFG_CFG_STAT_FALLBACK = 1 ∧ counted pg 1 t) ∧
        (∀ m : Fin 8, t.fld (Pg.fabCtl m) Fld.FABCTL_DIE_STAT_PWR_STATE = if img.resources.getLsbD m then 3 else 0) ∧
        (b.localDone = true → user t) ∧ (b.localDone = false → t.cfgState = 5 ∧ t.fld pg Fld.CFG_CFG_STAT_USER_EN = s.fld pg Fld.CFG_CFG_STAT_USER_EN))) ∧
    (b.held = 0 → s.fld pg Fld.CFG_CFG_STAT_DONE_OUT = 1 → s.pinTest = false → ∃ t, exec .doneHigh s = .next t ∧ t.fld pg Fld.CFG_CFG_STAT_DONE_IN = 1 ∧
      (s.cfgState = 5 → user t) ∧ (s.cfgState ≠ 5 → { t with regs := s.regs } = s ∧ t.cfgState = s.cfgState)) ∧
    (s.fld pg Fld.CFG_CFG_STAT_DONE_IN = 1 → ∃ t, exec .doneLow s = .next t ∧ t.fld pg Fld.CFG_CFG_STAT_DONE_IN = 0 ∧ t.cfgState = s.cfgState ∧
      (s.userOn = true → counted pg 3 t ∧ t.fld pg Evt.CFG_DONE_LOW = 1)) ∧
    (s.cfgState = 5 → s.fld pg Fld.CFG_CFG_STAT_DONE_IN = 0 → s.fld pg Fld.CFG_DONE_CTRL_WAIT_MS ≠ 0 → b.doneWait = false →
      ∃ t, exec .doneWaitTimeout s = .next t ∧ t.boot = { b with doneWait := true } ∧ t.fld pg Evt.CFG_DONE_WAIT = 1 ∧ t.cfgState = 5)

/-- R397 to R405, Tables 16.10 and 16.11. START opens a host load, a DOORBELL announces a chunk, which joins the stream; ABORT, a missing DOORBELL or a stream that ends within its header fails it. A partial load isolates its region and reads its image; it is verified, waits, and runs, or is emptied on failure, ABORT and CLEAR. OPEN, CLOSE, VERIFY and FLIP follow
Table 16.11; a full line in the open bank is programmed, another write refused with BUS_ERROR; programs end good, or count in TRB2. -/
def Obligations.HostLoadsPartialLoadsAndUpdates : Prop :=
  ∀ (a : Agent) (k : TxnKey) (v : Word) (s : State),
    let b := s.boot
    let hst := s.fld Pg.cfgh Fld.CFGH_H_STAT_STATE
    let ack := s.fld Pg.cfgh Fld.CFGH_H_STAT_ACK_SEQ
    let counted : Nat → Nat → State → Prop := fun p c t => s.fld p (Fld.PG_TRB_CNT c) < 0xFFFF → t.fld p (Fld.PG_TRB_CNT c) = s.fld p (Fld.PG_TRB_CNT c) + 1
    let pr : Fld → State → Nat := fun f t => t.fld Pg.cfg f
    let upd : Fld → State → Nat := fun f t => t.fld Pg.nvs f
    let lost : State → Prop := fun t => t.fld Pg.cfgh Fld.CFGH_H_STAT_STATE = 4 ∧ t.cfgState = 4 ∧ t.fld Pg.cfg Fld.CFG_LOAD_ERR_REASON = 0x10 ∧
      t.fld Pg.cfg Fld.CFG_LOAD_ERR_SOURCE = 3 ∧ t.boot.loading = none ∧ t.boot.stream = []
    (Accepts s a.toNat Pg.cfgh Reg.CFGH_H_CTRL (withFlds (s.rwWord Pg.cfgh Reg.CFGH_H_CTRL) [(Fld.CFGH_H_CTRL_START, 1)]) →
      ∃ t, exec (.hostLoadStart a) s = .next t ∧ t.fld Pg.cfgh Fld.CFGH_H_STAT_STATE = 1 ∧ t.fld Pg.cfgh Fld.CFGH_H_STAT_READY = 1 ∧
        t.fld Pg.cfgh Fld.CFGH_H_STAT_ACK_SEQ = 0 ∧ t.reg Pg.cfgh Reg.CFGH_H_RCVD = 0 ∧ t.cfgState = 2 ∧ t.boot.stream = [] ∧ t.boot.loading = none) ∧
    (Accepts s a.toNat Pg.cfgh Reg.CFGH_H_DOORBELL v → ∃ t, exec (.hDoorbell a v) s = .next t ∧ t.fld Pg.cfgh Fld.CFGH_H_STAT_READY = 0 ∧
      ∃ n x, t.boot.chunk = some (n, x) ∧ n = fieldOf v Fld.CFGH_H_DOORBELL_LEN.lo Fld.CFGH_H_DOORBELL_LEN.width ∧ (x = true ↔ fieldOf v Fld.CFGH_H_DOORBELL_LAST.lo 1 = 1) ∧
        4 ≤ n ∧ n ≤ 2048 ∧ n % 4 = 0) ∧
    (∀ n, hst = 1 → b.loading = none → b.stream.length + n < 0x1000 →
      (b.chunk = some (n, false) → ∃ t, exec .chunkConsumed s = .next t ∧ t.fld Pg.cfgh Fld.CFGH_H_STAT_ACK_SEQ = (ack + 1) % 256 ∧
        t.fld Pg.cfgh Fld.CFGH_H_STAT_READY = 1 ∧ t.fld Pg.cfgh Fld.CFGH_H_STAT_STATE = 1 ∧ t.boot.chunk = none ∧
        t.boot.stream = b.stream ++ ((List.range (n / 4)).flatMap fun w => toBytes 4 (mgetD 0 b.hbuf w)).take n) ∧
      (b.chunk = some (n, true) → ∃ t, exec .chunkConsumed s = .next t ∧ lost t ∧ counted Pg.cfg 0 t)) ∧
    (hst = 1 → Accepts s a.toNat Pg.cfgh Reg.CFGH_H_CTRL (withFlds (s.rwWord Pg.cfgh Reg.CFGH_H_CTRL) [(Fld.CFGH_H_CTRL_ABORT, 1)]) →
      ∃ t, exec (.hostLoadAbort a) s = .next t ∧ lost t ∧ (b.loading = none → counted Pg.cfgh 1 t ∧ counted Pg.cfg 0 t)) ∧
    (hst = 1 → b.chunk = none → ∃ t, exec .hostLoadTimeout s = .next t ∧ lost t ∧ (b.loading = none → counted Pg.cfgh 1 t ∧ counted Pg.cfg 0 t)) ∧
    ((∀ r ∈ s.design.regions, r.2.2 < 32) →
      let die := fieldOf v 5 3
      let region := fieldOf v 0 5
      let at_ (d r n : Nat) (t : State) : Prop := ∀ x ∈ s.regionSlots d r, t.regSlot d x = n
      let emptied (d r : Nat) (t : State) : Prop := at_ d r 4 t ∧ pr Fld.CFG_PR_STAT_BUSY t = 0 ∧ ∀ f : Nat, f / 131072 = d → f % 131072 / 4096 ∈ s.regionSlots d r →
        mget t.integ.frames f = none
      let clear (n : Nat) (t : State) : Prop := t.boot.part = none ∧ pr Fld.CFG_PR_STAT_RESULT t = n ∧ counted Pg.cfg 2 t ∧ t.fld Pg.cfg Evt.CFG_PR_END = 1 ∧
        t.fld Pg.cfg Fld.CFG_LOAD_ERR_SOURCE = 4
      (b.part = none → Accepts s a.toNat Pg.cfg Reg.CFG_PR_CTRL (withFlds v [(Fld.CFG_PR_CTRL_START, 1), (Fld.CFG_PR_CTRL_ABORT, 0), (Fld.CFG_PR_CTRL_CLEAR, 0)]) →
        let base := s.fld Pg.cfg Fld.CFG_PR_SRC_HI_BITS * 2 ^ 32 + s.fld Pg.cfg Fld.CFG_PR_SRC_LO_BITS
        ∃ t, exec (.partialLoad a v) s = .next t ∧ t.boot.part = some ⟨base, die, region, [], none, true, false⟩ ∧ at_ die region 2 t ∧
          pr Fld.CFG_PR_STAT_BUSY t = 1 ∧ pr Fld.CFG_PR_STAT_PHASE t = 2 ∧
          (let c := s.queueOf 58 0 .rd (BitVec.ofNat 64 base).toNat;
            t.epQ (ifKey 58 0) c = s.epQ (ifKey 58 0) c ++ [⟨.rd, ⟨BitVec.ofNat 64 base, 0, 0, 0, 0, 0⟩, 0, false⟩])) ∧
      (Accepts s a.toNat Pg.cfg Reg.CFG_PR_CTRL (withFlds v [(Fld.CFG_PR_CTRL_START, 0), (Fld.CFG_PR_CTRL_ABORT, 0), (Fld.CFG_PR_CTRL_CLEAR, 1)]) →
        ∃ t, exec (.prClear a v) s = .next t ∧ emptied die region t ∧ pr Fld.CFG_PR_STAT_RESULT t = 0 ∧ t.boot.part = b.part) ∧
      (∀ x, b.part = some x → x.die < 8 →
        (pr Fld.CFG_PR_STAT_PHASE s ≤ 4 → Accepts s a.toNat Pg.cfg Reg.CFG_PR_CTRL (withFlds (s.rwWord Pg.cfg Reg.CFG_PR_CTRL) [(Fld.CFG_PR_CTRL_ABORT, 1)]) →
          ∃ t, exec (.partialAbort a) s = .next t ∧ emptied x.die x.region t ∧ clear 3 t ∧ t.fld Pg.cfg Fld.CFG_LOAD_ERR_REASON = 0x10) ∧
        (∀ img, x.img = some img → x.copied = true → pr Fld.CFG_PR_STAT_PHASE s = 2 →
          (img.verdict = 0 → ∃ t, exec .partialLoadVerify s = .next t ∧ at_ x.die x.region 3 t ∧ pr Fld.CFG_PR_STAT_PHASE t = 4 ∧ t.boot = b) ∧
          (img.verdict ≠ 0 → ∃ t, exec .partialLoadVerify s = .next t ∧ emptied x.die x.region t ∧ clear 2 t ∧
            t.fld Pg.cfg Fld.CFG_LOAD_ERR_REASON = img.verdict % 256)) ∧
        (pr Fld.CFG_PR_STAT_PHASE s = 4 → ∃ t, exec .releaseDelayEnd s = .next t ∧ at_ x.die x.region 1 t ∧ t.boot = { b with part := none } ∧
          pr Fld.CFG_PR_STAT_RESULT t = 1 ∧ pr Fld.CFG_PR_STAT_BUSY t = 0 ∧ t.fld Pg.cfg Evt.CFG_PR_END = 1))) ∧
    (let bank := fieldOf v Fld.NVS_UPD_CTRL_BANK.lo 1;
      let w (x : Word) (f : Fld) : Word := withFlds x [(Fld.NVS_UPD_CTRL_OPEN, 0), (Fld.NVS_UPD_CTRL_CLOSE, 0), (Fld.NVS_UPD_CTRL_VERIFY, 0), (Fld.NVS_UPD_CTRL_FLIP, 0), (f, 1)]
      let ok (x : Word) (f : Fld) : Prop := Accepts s a.toNat Pg.nvs Reg.NVS_UPD_CTRL (w x f)
      (ok v Fld.NVS_UPD_CTRL_OPEN → s.bankProtected bank = false ∧ ∃ t, exec (.nvOpen a v) s = .next t ∧ t.updState = 1 ∧ upd Fld.NVS_UPD_STAT_BANK t = bank ∧
        upd Fld.NVS_UPD_STAT_BUSY t = 0) ∧
      (s.updState = 1 → ok (s.rwWord Pg.nvs Reg.NVS_UPD_CTRL) Fld.NVS_UPD_CTRL_CLOSE → ∃ t, exec (.nvClose a) s = .next t ∧ t.updState = 0) ∧
      (ok v Fld.NVS_UPD_CTRL_VERIFY → ∃ t, exec (.nvVerify a v) s = .next t ∧ t.updState = 2 ∧ upd Fld.NVS_UPD_STAT_BUSY t = 1 ∧ upd Fld.NVS_UPD_STAT_BANK t = bank) ∧
      (ok v Fld.NVS_UPD_CTRL_FLIP → s.updState = 3 ∧ ∃ t, exec (.nvFlip a v) s = .next t ∧ t.updState = 4 ∧ upd Fld.NVS_UPD_STAT_BUSY t = 1 ∧
        t.nv = { s.nv with flip := some (s.flipTarget bank) })) ∧
    (s.updState = 2 → ∃ t, exec .nvVerifyEnd s = .next t ∧ upd Fld.NVS_UPD_STAT_BUSY t = 0 ∧
      let r := (s.verifyBank (s.fld Pg.nvs Fld.NVS_UPD_STAT_BANK)).1
      (r = 0 → t.updState = 3 ∧ upd Fld.NVS_UPD_STAT_RESULT t = 1) ∧ (r ≠ 0 → t.updState = 0 ∧ upd Fld.NVS_UPD_STAT_RESULT t = 2 ∧ upd Fld.NVS_UPD_STAT_REASON t = r % 256)) ∧
    (∀ (i : Fin 2) (d : Line), s.nv.flip = some (ptrOff i, d) →
      (∃ t, exec (.nvFlipEnd true) s = .next t ∧ t.nv.flip = none ∧ t.nvBlock (ptrOff i / 64) = ⟨d, 0, false⟩ ∧ t.updState = 0 ∧ upd Fld.NVS_UPD_STAT_RESULT t = 1) ∧
      (∃ t, exec (.nvFlipEnd false) s = .next t ∧ t.nv.flip = none ∧ counted Pg.nvs 2 t ∧ t.updState = 3 ∧ upd Fld.NVS_UPD_STAT_RESULT t = 2)) ∧
    (∀ x : Txn, s.txn k = some x → x.phase = .delivered → x.typ = .wr →
      let answered (st : Status) (t : State) : Prop := ∃ e, t.txn k = some e ∧ e.phase = .answered st 0
      let off := s.nvWindow x.addr.toNat
      (x.dst = 58 → x.dstIf = 1 → (∀ p ∈ s.nv.progs, p.txn ≠ k) →
        (s.updState ≠ 1 → ∃ t, exec (.nvWindowWrite k) s = .next t ∧ answered .busError t ∧ counted Pg.nvs 3 t ∧ t.nv = s.nv) ∧
        (s.updState = 1 → bankOf off = some (s.fld Pg.nvs Fld.NVS_UPD_STAT_BANK) → x.len = 0 → s.nv.progs.length < 64 → ∃ t, exec (.nvWindowWrite k) s = .next t ∧
          t.nv.progs = s.nv.progs ++ [⟨k, off / 64, x.data⟩] ∧ upd Fld.NVS_NVS_STAT_IN_FLIGHT t = s.nv.progs.length + 1 ∧ t.txn k = some x)) ∧
      (∀ p, s.nv.progs.find? (fun p => p.txn == k) = some p → bankOf (64 * p.block) ≠ none →
        (∃ t, exec (.blockProgramEnd k true) s = .next t ∧ answered .ok t ∧ t.nvBlock p.block = ⟨p.data, 0, false⟩ ∧ t.nv.progs = s.nv.progs.filter (fun p => p.txn != k)) ∧
        (∃ t, exec (.blockProgramEnd k false) s = .next t ∧ answered .busError t ∧ counted Pg.nvs 2 t ∧ t.nv.progs = s.nv.progs.filter (fun p => p.txn != k))))

/-- R408 to R425, Tables 17.3 to 17.6. A sample shows the sensors, the hottest one and the alerts; a throttle step moves each zone's demand and the loops follow the highest demand; the backstop throttles every loop to SKIP_MAX and counts. A trip or a brown-out of the core is a cold reset that records its cause; a brown-out of VCC_FABm cuts the die off and alarms.
DOM_CMD snuffs a die or lantern, takes a quad off at once, powers a quad on, and a die from the sections of its bank, or fails with their reason. A pin reset holds the device; a system reset starts it again; straps stay. -/
def Obligations.HeatPowerAndResets : Prop :=
  ∀ (a : Agent) (v : Word) (s : State),
    let thm := Pg.thm
    let counted : Nat → Nat → State → Prop := fun p c t => s.fld p (Fld.PG_TRB_CNT c) < 0xFFFF → t.fld p (Fld.PG_TRB_CNT c) = s.fld p (Fld.PG_TRB_CNT c) + 1
    let alert : Nat → State → Prop := fun n t => (t.reg Pg.pwr Reg.PWR_ALERT_SRC).getLsbD n = true
    let top := s.fld thm Fld.THM_THR_CTRL_SKIP_MAX
    let dom : Fld → State → Nat := fun f t => t.fld Pg.pwr f
    let restarted : Nat → Nat → State → Prop := fun kind held t => t.fld Pg.rst Fld.RST_RST_CAUSE_LAST = kind ∧ t.boot.held = held ∧ t.boot.refsUp = false ∧ t.boot.running = none ∧
      t.design = {} ∧ t.rings = {} ∧ t.engs = {} ∧ t.dram = {} ∧ t.ember.log.length ≥ min 64 s.ember.log.length
    let strap : State → Prop := fun t => t.fld Pg.cfg Fld.CFG_STRAP_BOOT_SRC = s.fld Pg.cfg Fld.CFG_STRAP_BOOT_SRC
    let sane := (∀ r ∈ s.design.regions, r.2.2 < 32) ∧ ∀ e ∈ s.integ.passes, e.1 < 8
    (∀ (i : Fin 164) (x : BitVec 16) (j : Fin 88) (mv : BitVec 16), s.managerRuns = true → ∃ t, exec (.sensorSample [(i, x)] [(j, mv)]) s = .next t ∧
      t.fld thm (Fld.THM_TEMP_TEMP i) = (if s.sensorOn i then x.toNat else 0) ∧ (∀ k : Fin 164, k ≠ i → t.temp k = s.temp k) ∧
      (let h := t.fld thm Fld.THM_THM_STAT_HOT_IDX; h < 164 ∧ (∀ k : Fin 164, t.temp k ≤ t.temp h) ∧ t.fld thm Fld.THM_THM_STAT_HOT_TEMP = t.fld thm (Fld.THM_TEMP_TEMP h)) ∧
      (∀ k < 160, t.point ≤ t.temp k → alert 0 t) ∧ (∀ k < 4, 1520 ≤ t.temp (160 + k) → alert 1 t) ∧
      t.fld thm (Fld.THM_VMON_MV j) = mv.toNat ∧ t.fld thm (Fld.THM_VMON_WARN j) = (vmonBad j mv.toNat).toNat ∧
      (vmonBad j mv.toNat = true → alert 2 t ∧ (s.fld thm (Fld.THM_VMON_WARN j) = 0 → counted thm 1 t))) ∧
    (∀ m : Fin 8, s.managerRuns = true → (∀ z < 9, s.demand z ≤ 12) →
      let follows : State → Prop := fun t => ∀ (l : Fin 56) (z : Fin 8), t.zoneNames z l = true → t.demand z ≤ t.fld Pg.clkMl (Fld.ML_THR_SKIP l)
      (∃ t, exec (.throttleStep false) s = .next t ∧ follows t ∧
        t.demand m = if s.zoneHot m s.point then min top (s.demand m + 1) else s.demand m) ∧
      (∃ t, exec (.throttleStep true) s = .next t ∧ follows t ∧
        t.demand m = if s.zoneHot m (s.point - 16 * (s.fld thm Fld.THM_THR_CTRL_HYST : Int)) then s.demand m else s.demand m - 1)) ∧
    (s.boot.held = 0 → s.fld thm Fld.THM_THM_STAT_BACKSTOP = 0 → (∃ i < 160, s.point + 80 ≤ s.temp i) → ∃ t, exec .backstop s = .next t ∧
      t.fld thm Fld.THM_THM_STAT_BACKSTOP = 1 ∧ counted thm 0 t ∧ t.demand 8 = top ∧ ∀ l : Fin 56, t.fld Pg.clkMl (Fld.ML_THR_SKIP l) = top) ∧
    ((∀ i < 160, s.temp i < s.point + 80) → exec .backstop s = .next s) ∧
    ((∀ i < 160, s.temp i < s.point) → ∃ t, exec .backstopClear s = .next t ∧ t.fld thm Fld.THM_THM_STAT_BACKSTOP = 0 ∧ { t with regs := s.regs } = s) ∧
    (∀ (i : Fin 164) (hot : Bool), s.boot.held = 0 → s.sensorOn i = true → ∃ t, exec (.thermalTrip i hot) s = .next t ∧ restarted 1 3 t ∧
      t.fld Pg.rst Fld.RST_RST_CAUSE_COLD = 2 ∧ t.nv.progs = [] ∧ t.ember.log.getLast? = some ⟨s.emberTime, BitVec.ofNat 32 (0x07000000 + i.val)⟩) ∧
    (s.boot.held = 0 → ∃ t, exec (.brownOut .core) s = .next t ∧ restarted 1 1 t ∧ t.fld Pg.rst Fld.RST_RST_CAUSE_COLD = 1) ∧
    (∀ m : Fin 8, s.boot.held = 0 → s.fld (Pg.fabCtl m) Fld.FABCTL_DIE_STAT_PWR_STATE ≠ 0 → sane → ∃ t, exec (.brownOut (.fab m)) s = .next t ∧
      t.fld (Pg.fabCtl m) Fld.FABCTL_DIE_STAT_PWR_STATE = 0 ∧ counted Pg.pwr 2 t ∧ (t.reg Pg.alm Reg.ALM_ALM_SUM).getLsbD 10 = true) ∧
    (∀ n : BitVec 8, exec (.brownOut (.other n)) s = .next s) ∧
    (∀ k i : Nat, k = fieldOf v 8 2 → i = fieldOf v 0 6 → s.managerRuns = true → sane →
      let named (t : State) : Prop := dom Fld.PWR_DOM_STAT_KIND t = k ∧ dom Fld.PWR_DOM_STAT_INDEX t = i
      let quad (n : Nat) (t : State) : Prop := ∀ j < 4, t.laneState (4 * i + j) = n
      let ended (r : Nat) (t : State) : Prop := named t ∧ dom Fld.PWR_DOM_STAT_BUSY t = 0 ∧ dom Fld.PWR_DOM_STAT_RESULT t = r ∧ t.pwr.cmd = none
      (Accepts s a.toNat Pg.pwr Reg.PWR_DOM_CMD (withFlds v [(Fld.PWR_DOM_CMD_START, 1), (Fld.PWR_DOM_CMD_OP, 0)]) →
        (k = 2 → ∃ t, exec (.domainPowerOff a v) s = .next t ∧ ended 1 t ∧ quad 0 t) ∧
        (∀ x : Nat × Nat, (k = 0 ∧ x ∈ dieIfs i ∧ x ≠ dcacheAt i) ∨ (k = 1 ∧ x = lanternAt i) → s.maySnuff x.1 x.2 = true → ∃ t, exec (.domainPowerOff a v) s = .next t ∧
          named t ∧ dom Fld.PWR_DOM_STAT_BUSY t = 1 ∧ t.pwr.cmd = some ⟨k, i, false⟩ ∧ t.ifState x.1 x.2 = 3 ∧
          (k = 0 → t.fld (Pg.fabCtl i) Fld.FABCTL_DIE_STAT_PWR_STATE = 4))) ∧
      (∀ img, s.boot.running = some img → Accepts s a.toNat Pg.pwr Reg.PWR_DOM_CMD (withFlds v [(Fld.PWR_DOM_CMD_START, 1), (Fld.PWR_DOM_CMD_OP, 1)]) →
        (k = 2 → img.regs = [] → ∃ t, exec (.domainPowerOn a v) s = .next t ∧ ended 1 t ∧ quad 1 t) ∧
        (k = 0 → ∃ u t, { u with regs := s.regs, pwr := s.pwr } = s ∧ u.fld (Pg.fabCtl i) Fld.FABCTL_DIE_STAT_PWR_STATE = 1 ∧ exec (.domainPowerOn a v) s = .next t ∧
          (∀ r w, reloadSections img (img.domSections 0 i) u = (some r, w) → ended 2 t ∧ dom Fld.PWR_DOM_STAT_REASON t = r % 256 ∧ counted Pg.pwr 1 t ∧
            t.fld (Pg.fabCtl i) Fld.FABCTL_DIE_STAT_PWR_STATE = 0) ∧
          (∀ w, reloadSections img (img.domSections 0 i) u = (none, w) → ended 1 t ∧ t.fld (Pg.fabCtl i) Fld.FABCTL_DIE_STAT_PWR_STATE = 3 ∧
            t.fld (Pg.fabCtl i) Fld.FABCTL_DIE_STAT_CFG_DONE = 1)))) ∧
    (s.boot.held = 0 → ∃ t, exec .pinReset s = .next t ∧ restarted 2 2 t ∧ t.boot.resetLow = true ∧ t.fld Pg.rst Fld.RST_RST_CAUSE_SYS = 0 ∧ strap t) ∧
    (s.boot.held = 3 → exec .pinReset s = .next { s with boot.resetLow := true }) ∧
    (Accepts s a.toNat Pg.rst Reg.RST_SYS_RESET v → fieldOf v 0 16 = 0x5EB0 ∧ ∃ t, exec (.sysReset a v) s = .next t ∧ restarted 3 0 t ∧
      t.fld Pg.rst Fld.RST_RST_CAUSE_SYS = 1 ∧ strap t ∧ ∀ l : Fin 192, t.laneState l = 1)

/-- R426 to R434. A switch to VBAT is the loss of VCC_AUX: the device is in cold reset and the domain's state stays; the KEK stays too. An accepted tamper event zeroises the KEK where it shall, is logged, sets the alarm latch, and with main power counts, alerts and alarms. CFG_LOCK stays set; INSTALL takes the KEK registers, with their check value; ZEROISE and the acknowledgement are logged.
With VBAT below 1.8 V and no VCC_AUX all ember state is lost; a supply that returns starts the domain anew. -/
def Obligations.EmberDomain : Prop :=
  ∀ (a : Agent) (s : State),
    let e := s.ember
    let entry : Nat → Nat → EmberRec := fun c d => ⟨s.emberTime, BitVec.ofNat 32 (c * 2 ^ 24 + d)⟩
    let counted : Nat → Nat → State → Prop := fun p c t => s.fld p (Fld.PG_TRB_CNT c) < 0xFFFF → t.fld p (Fld.PG_TRB_CNT c) = s.fld p (Fld.PG_TRB_CNT c) + 1
    let zeroised : State → Prop := fun t => t.keys.kek = none ∧ t.fld Pg.emb Fld.EMB_KEK_KCV_KCV = 0 ∧ (s.keys.purge = none → ∀ k : Fin 1024, k ≠ 0 → t.slotState k = 0)
    (∀ mv : BitVec 16, e.lost = false →
      (∃ t, exec (.supplySwitch true mv) s = .next t ∧ t.boot.held = 5 ∧ t.ember.onVbat = true ∧ t.ember.low = decide (mv.toNat < 2200) ∧ t.keys.kek = s.keys.kek ∧
        (s.boot.held ≠ 5 → t.fld Pg.rst Fld.RST_RST_CAUSE_LAST = 1 ∧ t.rings = {} ∧ t.dram = {} ∧
          (s.boot.held ≠ 1 → s.boot.held ≠ 3 → t.fld Pg.rst Fld.RST_RST_CAUSE_COLD = 0))) ∧
      (∃ t, exec (.supplySwitch false mv) s = .next t ∧ t.boot = s.boot ∧ t.ember.onVbat = false ∧ t.ember.low = decide (mv.toNat < 2200) ∧
        t.ember.log.getLast? = (if mv.toNat < 2200 ∧ e.low = false then some (entry 0x09 mv.toNat) else e.log.getLast?) ∧
        (mv.toNat < 2200 → s.boot.held = 0 → (t.reg Pg.pwr Reg.PWR_ALERT_SRC).getLsbD 3 = true))) ∧
    (∀ n : Fin 2, e.lost = false → s.tamperEn n = true →
      let zero := s.bit Pg.emb (tamperFld n Fld.EMB_TAMPER0_CFG_ZEROISE)
      ∃ t, exec (.tamper n) s = .next t ∧ t.fld Pg.key Fld.KEY_KEK_STAT_ALARM = 1 ∧
        (zero = true → zeroised t ∧ (e.log.length ≤ 62 → t.ember.log = e.log ++ [entry (2 + n.val) 0, entry 4 n.val])) ∧
        (zero = false → t.keys = s.keys ∧ (e.log.length ≤ 63 → t.ember.log = e.log ++ [entry (2 + n.val) 0])) ∧ (s.mainPower = true → counted Pg.emb 0 t) ∧
        (s.boot.held = 0 → (t.reg Pg.pwr Reg.PWR_ALERT_SRC).getLsbD 4 = true ∧ (t.reg Pg.alm Reg.ALM_ALM_SUM).getLsbD 11 = true)) ∧
    (Accepts s a.toNat Pg.emb Reg.EMB_EMB_CTRL (withFlds (s.rwWord Pg.emb Reg.EMB_EMB_CTRL) [(Fld.EMB_EMB_CTRL_CFG_LOCK, 1)]) →
      ∃ t, exec (.cfgLock a) s = .next t ∧ t.fld Pg.emb Fld.EMB_EMB_CTRL_CFG_LOCK = 1 ∧ { t with regs := s.regs } = s ∧
        ∀ (b : Agent) (n : Fin 2) (v : Word), ¬ Accepts t b.toNat Pg.emb (Reg.EMB_TAMPER0_CFG + 4 * n.val) v) ∧
    (Accepts s a.toNat Pg.emb Reg.EMB_KEK_CTRL (withFlds (s.rwWord Pg.emb Reg.EMB_KEK_CTRL) [(Fld.EMB_KEK_CTRL_INSTALL, 1)]) → s.keys.kek = none ∧
      ∃ t k, exec (.install a) s = .next t ∧ t.keys.kek = some k ∧ (∀ w : Fin 8, k.extractLsb' (32 * w.val) 32 = mgetD 0 e.kekw w) ∧ t.ember.kekw = [] ∧
        t.fld Pg.emb Fld.EMB_KEK_KCV_KCV = kekKcv k % 2 ^ 32 ∧ t.ember.log.getLast? = some (entry 5 0)) ∧
    (Accepts s a.toNat Pg.emb Reg.EMB_KEK_CTRL (withFlds (s.rwWord Pg.emb Reg.EMB_KEK_CTRL) [(Fld.EMB_KEK_CTRL_ZEROISE, 1)]) →
      ∃ t, exec (.zeroise a) s = .next t ∧ zeroised t ∧ t.ember.log.getLast? = some (entry 4 2)) ∧
    (Accepts s a.toNat Pg.key Reg.KEY_EMB_ALARM_ACK (withFlds (s.rwWord Pg.key Reg.KEY_EMB_ALARM_ACK) [(Fld.KEY_EMB_ALARM_ACK_ACK, 1)]) →
      ∃ t, exec (.alarmAck a) s = .next t ∧ t.fld Pg.key Fld.KEY_KEK_STAT_ALARM = 0 ∧ t.ember.log.getLast? = some (entry 6 0) ∧ t.keys = s.keys) ∧
    (e.lost = false → e.onVbat = true → ∃ t, exec .emberStateLoss s = .next t ∧ t.ember = { lost := true, onVbat := true } ∧ t.keys = { s.keys with kek := none } ∧
      (∀ k c, keyCls k = some c → mget t.regs k = if c = .E then none else mget s.regs k) ∧ { t with ember := e, keys := s.keys, regs := s.regs } = s) ∧
    (e.lost = true → exec .emberStart s = .next { s with ember := { start := s.ns, onVbat := s.boot.held == 5 } })

/-- R423 (and R474 for the configuration controller, agent 0x02, which writes as if it held each lock). A write of SYS_RESET on an enabled path is accepted when its KEY is 0x5EB0 and its agent holds the RST page lock; then the device restarts with cause SYS_RESET. Any other write is refused, which the page
records, and resets nothing. -/
def Obligations.SystemResetKey : Prop :=
  ∀ (a : Agent) (v : Word) (s : State), a.toNat ≠ 2 → s.reaches a.toNat Pg.rst = true → s.pathWr a.toNat = true →
    let holder := s.fld Pg.rst Fld.PG_PG_LOCK_HELD = 1 ∧ s.fld Pg.rst Fld.PG_PG_LOCK_OWNER = a.toNat
    (v = 0x5EB0 ∧ holder → ∃ t, exec (.sysReset a v) s = .next t ∧ t.fld Pg.rst Fld.RST_RST_CAUSE_LAST = 3 ∧ t.boot.running = none ∧ t.boot.refsUp = false ∧ t.design = {}) ∧
    (¬ (v = 0x5EB0 ∧ holder) → ∃ t, exec (.sysReset a v) s = .next t ∧ { t with regs := s.regs, out := s.out, msixPend := s.msixPend } = s ∧
      t.fld Pg.rst Fld.PG_PG_REFUSE_VALID = 1 ∧ t.fld Pg.rst Fld.PG_PG_REFUSE_AGENT = a.toNat ∧ t.fld Pg.rst Fld.PG_PG_REFUSE_OFFSET = Reg.RST_SYS_RESET ∧
      t.fld Pg.rst Fld.RST_RST_CAUSE_LAST = s.fld Pg.rst Fld.RST_RST_CAUSE_LAST)

/-- R444, R445, R449 to R453, R456, R458, R461, Table 18.4. A mismatch of the active pair makes the standby pair take over, or ends the manager where none is left; a mismatch of the standby pair takes it out; a pair in QUARANTINE goes back. OUT snuffs an interface, declares a segment failed, takes a pair out; QUARANTINE holds an interface at
once, tests a segment or a pair; ADMIT lets an interface in behind its credit ramp, starts the admit notice of a segment, returns a pair. The last attachment point that switches back ends the readmission of a segment. FAULT_N is low from T0 until self-test has passed, while the device is held in reset or in the safe state,
and while an enabled alarm bit is set (R458). -/
def Obligations.FaultsAndAdmission : Prop :=
  ∀ (a : Agent) (p : Fin 2) (at_ stop : Fin 64) (ring : Fin 16) (v : Word) (s : State),
    let x := s.pairs
    let adm : Fld → State → Nat := fun f t => t.fld Pg.alm f
    let counted : Nat → State → Prop := fun c t => s.fld Pg.alm (Fld.PG_TRB_CNT c) < 0xFFFF → t.fld Pg.alm (Fld.PG_TRB_CNT c) = s.fld Pg.alm (Fld.PG_TRB_CNT c) + 1
    let alarmed : Nat → State → Prop := fun c t => (t.reg Pg.alm Reg.ALM_ALM_SUM).getLsbD c = true
    let ended : Nat → Nat → State → Prop := fun st r t => adm Fld.ALM_ADMIT_STAT_BUSY t = 0 ∧ adm Fld.ALM_ADMIT_STAT_STATE t = st ∧ adm Fld.ALM_ADMIT_STAT_RESULT t = r ∧ t.pairs.cmd = none
    let busy : Nat × Nat × Nat × Nat → State → Prop := fun c t => adm Fld.ALM_ADMIT_STAT_BUSY t = 1 ∧ adm Fld.ALM_ADMIT_STAT_RESULT t = 0 ∧ t.pairs.cmd = some c
    let start (op : Nat) : Prop := Accepts s a.toNat Pg.alm Reg.ALM_ADMIT_CTRL (withFlds v [(Fld.ALM_ADMIT_CTRL_START, 1), (Fld.ALM_ADMIT_CTRL_OP, op)])
    let kind := fieldOf v 24 4
    let st := fieldOf v 8 6
    let sub := fieldOf v 0 4
    (x.quar.contains p.val = false → x.out.contains p.val = false →
      (x.active = p.val → x.out.contains (1 - p.val) = false → ∃ t, exec (.lockstepMismatch p) s = .next t ∧ t.pairs.active = 1 - p.val ∧ t.pairs.takeover = true ∧
        t.pairs.out = p.val :: x.out ∧ t.managerRuns = false ∧ t.fld Pg.mbx Fld.MBX_MBX_INFO_PAIR = 1 - p.val ∧ counted 2 t ∧ alarmed 2 t ∧ (1, 0) ∈ t.levelAlarms ∧
        adm Fld.ALM_GUAR_STAT_HOLDOFF t = 1) ∧
      (x.active = p.val → x.out.contains (1 - p.val) = true → ∃ t, exec (.lockstepMismatch p) s = .next t ∧ t.noPair = true ∧ t.pairs.active = p.val ∧
        t.fld Pg.mbx Fld.MBX_MBX_INFO_FW_RUN = 0) ∧
      (x.active ≠ p.val → ∃ t, exec (.lockstepMismatch p) s = .next t ∧ t.pairs = { x with out := p.val :: x.out, quar := x.quar.filter (· ≠ p.val) } ∧ (1, 0) ∈ t.levelAlarms)) ∧
    (x.quar.contains p.val = true → x.cmd = some (2, 3, p.val, sub) → ∃ t, exec (.lockstepMismatch p) s = .next t ∧ ended 1 2 t ∧ p.val ∉ t.pairs.quar ∧ counted 4 t ∧ alarmed 12 t) ∧
    (x.takeover = true → s.pwr.cmd = none → ∃ t, exec .takeoverResume s = .next t ∧ t.pairs = { x with takeover := false } ∧ { t with regs := s.regs, pairs := x } = s ∧
      ∀ y ∈ switchable, (t.fld (Pg.stop y.1) Fld.STOP_IF_CTRL_WAKE_EN).testBit y.2 = s.bit Pg.pwr Fld.PWR_PWR_CTRL_SERVICE) ∧
    (∀ fw : BitVec 64, exec (.checkpoint fw) s = .next (if s.managerRuns then { s with pairs.checkpoint := fw } else s)) ∧
    ((∀ e ∈ s.integ.passes, e.1 < 8) →
      (start 1 →
        (kind = 1 → s.maySnuff st sub = true → ∃ t, exec (.admitOut a v) s = .next t ∧ busy (1, 1, st, sub) t ∧ t.ifState st sub = 3) ∧
        (kind = 2 → ∃ t, exec (.admitOut a v) s = .next t ∧ ended 1 1 t ∧ t.segFailed st sub = true ∧ (st, sub) ∉ t.pairs.segQuar ∧
          (s.segFailed st sub = false → alarmed 3 t ∧ counted 1 t ∧ (st, st, sub) ∈ t.rings.known)) ∧
        (kind = 3 → ∃ t, exec (.admitOut a v) s = .next t ∧ ended 1 1 t ∧ st ∈ t.pairs.out ∧ st ∉ t.pairs.quar ∧ t.pairs.active ≠ st ∧ (1, 0) ∈ t.levelAlarms)) ∧
      (start 2 →
        (kind = 1 → ∃ t, exec (.quarantine a v) s = .next t ∧ ended 2 1 t ∧ t.ifState st sub = 6) ∧
        (kind = 2 → ∃ t, exec (.quarantine a v) s = .next t ∧ busy (2, 2, st, sub) t ∧ (st, sub) ∈ t.pairs.segQuar ∧ t.segFailed st sub = true) ∧
        (kind = 3 → ∃ t, exec (.quarantine a v) s = .next t ∧ busy (2, 3, st, sub) t ∧ st ∈ t.pairs.quar)) ∧
      (start 3 →
        (kind = 1 → s.service 1 st sub ≠ 3 → s.fieldTests st sub = false → ∃ t, exec (.readmit a v) s = .next t ∧ ended 3 1 t ∧ counted 3 t ∧ t.ifState st sub = 1 ∧
          mget t.pairs.ramps (ifKey st sub) = some 6 ∧ adm Fld.ALM_ADMIT_STAT_RAMP t = 1) ∧
        (kind = 2 → s.segFailed st sub = true → ∃ t, exec (.readmit a v) s = .next t ∧ busy (3, 2, st, sub) t ∧ t.pairs.held = [st] ∧ t.pairs.owed = List.range 64 ∧ t.segFailed st sub = true) ∧
        (kind = 3 → ∃ t, exec (.readmit a v) s = .next t ∧ ended 3 1 t ∧ counted 3 t ∧ st ∉ t.pairs.out ∧ st ∉ t.pairs.quar ∧ (t.pairs.out = [] → (1, 0) ∉ t.levelAlarms)))) ∧
    (∀ k q n, x.cmd = some (2, k, q, n) →
      (∃ t, exec (.quarantineEnd true) s = .next t ∧ ended 2 1 t ∧ { t with regs := s.regs, pairs := x } = s ∧ t.pairs = { x with cmd := none }) ∧
      (k ≠ 1 → ∃ t, exec (.quarantineEnd false) s = .next t ∧ ended 1 2 t ∧ counted 4 t ∧ alarmed 12 t ∧ (k = 2 → (q, n) ∉ t.pairs.segQuar) ∧ (k = 3 → q ∉ t.pairs.quar))) ∧
    (s.admitSeg = some (stop.val, ring.val) → x.owed.contains at_.val = true →
      (x.held.contains at_.val = false → exec (.admitNotice at_ stop ring) s = .next { s with pairs.held := at_.val :: x.held }) ∧
      (x.held.contains at_.val = true → s.flowsEnded at_ = false → exec (.routeRestore at_ stop ring) s = .next s) ∧
      (x.held.contains at_.val = true → s.flowsEnded at_ = true → ∃ t, exec (.routeRestore at_ stop ring) s = .next t ∧
        (∀ b, t.route at_ b = routeIn (s.rings.known.filter (· ≠ (at_.val, stop.val, ring.val))) at_ b) ∧ t.pairs.owed = x.owed.filter (· ≠ at_.val) ∧
        (t.pairs.owed ≠ [] → t.pairs.cmd = x.cmd ∧ t.regs = s.regs) ∧
        (t.pairs.owed = [] → ended 3 1 t ∧ counted 3 t ∧ t.segFailed stop ring = false ∧ t.pairs.held = [] ∧ (stop.val, ring.val) ∉ t.pairs.segQuar))) ∧
    (∃ t, exec .rampStep s = .next t ∧ { t with regs := s.regs, pairs := x, rings.paced := s.rings.paced } = s ∧ (∀ k n, (k, n) ∈ t.pairs.ramps ↔ n ≠ 0 ∧ (k, n + 1) ∈ x.ramps) ∧
      (∀ k n, (k, n) ∈ t.rings.paced → n ≠ 0 ∧ ∃ i, (k, i) ∈ s.rings.paced ∧ n ≤ i ∧ ∀ r, mget x.ramps (k / 8) = some r → r ≠ 0 → r ≠ 1 ∧ n + 2 ^ (r - 1) = i) ∧
      (t.pairs.ramps = [] → adm Fld.ALM_ADMIT_STAT_RAMP t = 0)) ∧
    (Accepts s a.toNat Pg.alm Reg.ALM_Q_STAT (withFlds (s.rwWord Pg.alm Reg.ALM_Q_STAT) [(Fld.ALM_Q_STAT_POP, 1)]) → ∃ t, exec (.alarmQueuePop a) s = .next t ∧
      t.alarms = s.alarms.drop 1 ∧ { t with regs := s.regs, alarms := s.alarms } = s) ∧
    (s.pinTest = false → s.boot.held ≠ 5 → s.fld Pg.bist Fld.BIST_FAIL_PORT_PAIR = 0 →
      (s.faultN = false ↔ s.boot.held ≠ 0 ∨ s.boot.bistDone = false ∨ s.fld Pg.clkRef Fld.REF_LOSS_STAT_SAFE = 1 ∨
        ∃ n < 32, (s.reg Pg.alm Reg.ALM_ALM_SUM).getLsbD n = true ∧ (s.reg Pg.alm Reg.ALM_FAULT_EN).getLsbD n = true)) ∧
    (∃ t, exec .holdoffEnd s = .next t ∧ adm Fld.ALM_GUAR_STAT_HOLDOFF t = 0 ∧ { t with regs := s.regs } = s)

/-- R7, R11, R466, R467, R471, R472, Table 00.4, Table 19.6. A write that reaches a populated page and is refused records REASON, AGENT and OFFSET, raises REFUSED and leaves the register; one that reaches no page does nothing. On a page whose registers have no effect of their own an accepted
write stores each field by its access code and changes nothing else. A disabled path, a missing byte enable, an offset without a register, and a locked register are refused with their reasons. -/
def Obligations.RefusedAndStoredWrites : Prop :=
  ∀ (a : Agent) (page : BitVec 13) (off : BitVec 12) (be : BitVec 4) (v : Word) (s : State), off.toNat % 4 = 0 →
    let pg := page.toNat
    let reason := s.writeReason a.toNat pg off.toNat be.toNat v
    (s.reaches a.toNat pg = false → exec (.registerWrite a page off be v) s = .next s) ∧
    (s.page pg = none → exec (.registerWrite a page off be v) s = .next s) ∧
    (∀ k i r, s.reaches a.toNat pg = true → s.page pg = some (k, i) → reason = some r →
      ∃ t, exec (.registerWrite a page off be v) s = .next t ∧ t.fld pg Fld.PG_PG_REFUSE_VALID = 1 ∧ t.fld pg Fld.PG_PG_REFUSE_REASON = r ∧
        t.fld pg Fld.PG_PG_REFUSE_AGENT = a.toNat ∧ t.fld pg Fld.PG_PG_REFUSE_OFFSET = off.toNat ∧ t.fld pg Fld.PG_PG_EVT_REFUSED = 1 ∧
        (r ≠ rCHILD → 0x040 ≤ off.toNat → t.reg pg off.toNat = s.reg pg off.toNat)) ∧
    (∀ k i r j, s.reaches a.toNat pg = true → s.page pg = some (k, i) → k ∈ plainPages → 0x080 ≤ off.toNat → regAt k i off.toNat = some (r, j) → reason = none →
      ∃ t, exec (.registerWrite a page off be v) s = .next t ∧ { t with regs := s.regs } = s ∧
        (∀ f ∈ r.fields, fieldOf (t.reg pg off.toNat) f.lo f.width = fieldAfter f (s.reg pg off.toNat) v) ∧
        (∀ q o, regKey q o ≠ regKey pg off.toNat → t.reg q o = s.reg q o)) ∧
    (s.pathWr a.toNat = false → reason = some rPATH) ∧
    (s.pathWr a.toNat = true → be ≠ 0xF → reason = some rSIZE) ∧
    (s.pathWr a.toNat = true → be = 0xF → ∀ k i, s.page pg = some (k, i) → (regAt k i off.toNat = none → reason = some rOFFSET) ∧
      (∀ r j, regAt k i off.toNat = some (r, j) → (∃ f ∈ r.fields, f.acc = .rwl) → a.toNat ≠ 2 →
        (s.fld pg Fld.PG_PG_LOCK_HELD = 0 ∨ s.fld pg Fld.PG_PG_LOCK_OWNER ≠ a.toNat) → reason = some rLOCK))

/-- R135, R459, R469, R470, R472, Table 19.5. ACQUIRE grants a lock that is free or the writer's own and leaves BROKEN; RELEASE frees it and clears BROKEN; CLR_BROKEN clears BROKEN alone. A read of LO records HI for its agent, whose next read of HI gives the record and drops it. TRB_CLR takes the eight counters of its page to 0. The soft reset of an
engine empties it, HALTED with PC = ENTRY, that of a lane empties its FIFO and stops its injection. A page that does not answer ends I2C, USB and JTAG accesses with BUS_ERROR. -/
def Obligations.LocksPairsAndPageHeaders : Prop :=
  ∀ (a : Agent) (page : BitVec 13) (s : State),
    let pg := page.toNat
    let cmdWrites (c : Word) (i : Instr) (held owner broken : Nat) : Prop := Accepts s a.toNat pg Reg.PG_PG_LOCK c → ∃ t, exec i s = .next t ∧
      t.fld pg Fld.PG_PG_LOCK_HELD = held ∧ t.fld pg Fld.PG_PG_LOCK_OWNER = owner ∧ t.fld pg Fld.PG_PG_LOCK_BROKEN = broken ∧
      { t with regs := s.regs, integ := s.integ } = s ∧ ∀ q o, regKey q o ≠ regKey pg Reg.PG_PG_LOCK → t.reg q o = s.reg q o
    cmdWrites 1 (.acquire a page) 1 a.toNat (s.fld pg Fld.PG_PG_LOCK_BROKEN) ∧
    cmdWrites 2 (.release a page) 0 0 0 ∧
    cmdWrites 3 (.clrBroken a page) (s.fld pg Fld.PG_PG_LOCK_HELD) a.toNat 0 ∧
    (∀ (off : BitVec 12) (k : PageKind) (i : Nat), s.page pg = some (k, i) → off.toNat ∈ loRegs k → off.toNat % 4 = 0 → regAt k i off.toNat ≠ none → s.reaches a.toNat pg = true →
      s.pathRd a.toNat = true → mget s.hiRec (hiKey a.toNat pg off.toNat) = none → ∃ t, exec (.loRegisterRead a page off) s = .next t ∧
        { t with hiRec := s.hiRec } = s.readSync k i off.toNat ∧
        ∀ u : State, u.hiRec = t.hiRec → u.page pg = some (k, i) → u.reaches a.toNat pg = true → u.pathRd a.toNat = true → regAt k i (off.toNat + 4) ≠ none →
          (u.winRead a.toNat pg (off.toNat + 4)).1 = (s.readSync k i off.toNat).regView a.toNat k i pg (off.toNat + 4) ∧
          mget (u.winRead a.toNat pg (off.toNat + 4)).2.hiRec (hiKey a.toNat pg (off.toNat + 4)) = none) ∧
    (Accepts s a.toNat pg Reg.PG_TRB_CLR 1 → ∃ t, exec (.trbClr a page) s = .next t ∧ (∀ n < 8, t.fld pg (Fld.PG_TRB_CNT n) = 0) ∧
      { t with regs := s.regs } = s) ∧
    (∀ e : Fin 96, pg = Pg.engCtl e → Accepts s a.toNat pg Reg.PG_PG_CTRL 3 → s.lanOn (e.val / 4) = true → s.engState e ≠ 4 →
      ∃ t, exec (.softReset a page) s = .next t ∧ t.eng e = Engine.reset ∧ t.engState e = 1 ∧ t.fld pg Fld.ENG_PC_PC = t.fld pg Fld.ENG_ENTRY_ENTRY ∧
        t.engs.prog = s.engs.prog ∧ t.engs.data = s.engs.data) ∧
    (∀ l : Fin 192, pg = Pg.lane l → Accepts s a.toNat pg Reg.PG_PG_CTRL 3 → ∃ t, exec (.softReset a page) s = .next t ∧ (t.lane l).fifo = [] ∧
      (t.lane l).inject = false ∧ t.fld pg Fld.LN_PAT_CHK_LOCK = 0 ∧ (s.laneState l ≤ 1 → t.laneState l = s.laneState l) ∧
      (2 ≤ s.laneState l → t.laneState l = 1 ∨ t.laneState l = 2 ∨ t.laneState l = 6)) ∧
    (s.boot.held = 0 →
      (a.toNat = 3 → ∃ t, exec (.pageAccessTimeout a page) s = .next t ∧ t.fld Pg.i2ct Fld.I2CT_I2C_STAT_RESULT = 2 ∧
        (s.fld Pg.i2ct (Fld.PG_TRB_CNT 3) < 0xFFFF → t.fld Pg.i2ct (Fld.PG_TRB_CNT 3) = s.fld Pg.i2ct (Fld.PG_TRB_CNT 3) + 1)) ∧
      (a.toNat = 4 → exec (.pageAccessTimeout a page) s = .next { s with mgmt.usbRes := 2, mgmt.usbWords := 0 }) ∧
      (a.toNat = 5 → ∃ t, exec (.pageAccessTimeout a page) s = .next t ∧ t.mgmt.jtagStat = 3 ∧
        (s.fld Pg.jtg (Fld.PG_TRB_CNT 1) < 0xFFFF → t.fld Pg.jtg (Fld.PG_TRB_CNT 1) = s.fld Pg.jtg (Fld.PG_TRB_CNT 1) + 1)))

/-- R475 to R481, R495, R496, Tables 19.4, 19.5, 19.7, 19.8. A read answers its bytes and the PEC; a write with a right PEC is performed and RESULT says whether it was refused, with a wrong one it has no effect; before user enable I2C acknowledges STATUS alone and USB answers STATUS alone of its vendor requests.
IDCODE shifts out the identification register. A scan captures the pins and loads the driving cells, and takes place only while the rings are idle. READ_REG and WRITE_REG take consecutive words; a request outside Table 19.8 is stalled. The bus timeout, the USB bus reset and Test-Logic-Reset release what their agent holds. A TAP instruction selected is in force; leaving the pin tests resets the device; WINACC answers done or refused. -/
def Obligations.I2cUsbAndTap : Prop :=
  ∀ (off v : BitVec 32) (code : BitVec 8) (woff : BitVec 25) (value index length : BitVec 16) (words : List (BitVec 32)) (s : State), s.boot.held = 0 →
    let counted : Nat → Nat → State → Prop := fun p c t => s.fld p (Fld.PG_TRB_CNT c) < 0xFFFF → t.fld p (Fld.PG_TRB_CNT c) = s.fld p (Fld.PG_TRB_CNT c) + 1
    let noted : State → Prop := fun t => { t with regs := s.regs, out := s.out, msixPend := s.msixPend, mgmt.i2cAt := s.mgmt.i2cAt } = s
    let stopped : State → Prop := fun t => t.mgmt.i2cAt = t.fld Pg.i2ct Fld.I2CT_I2C_CTRL_ADDR
    let pgOf (n : Nat) : Nat := n / 4096
    let offOf (n : Nat) : Nat := n % 4096
    let i2c : Nat → State → Prop := fun r t => t.fld Pg.i2ct Fld.I2CT_I2C_STAT_RESULT = r
    let wr : Byte := BitVec.ofNat 8 (2 * s.mgmt.i2cAt)
    let reply (sent back : List Byte) : Emit := .i2c (back ++ [pec (wr :: sent ++ (BitVec.ofNat 8 (2 * s.mgmt.i2cAt + 1)) :: back)])
    let status := toBytes 4 (s.reg Pg.dev0 Reg.DEV0_PART_ID) ++ toBytes 4 (s.reg Pg.cfg Reg.CFG_CFG_STAT) ++ toBytes 4 (s.reg Pg.cfg Reg.CFG_LOAD_ERR)
    let stalls : Instr → Prop := fun i => ∃ t, exec i s = .next t ∧ noted t ∧ t.out.head? = some .usbStall ∧ counted Pg.usbd 2 t
    let usb : Nat → State → Prop := fun n t => t.fld Pg.usbd Fld.USBD_USB_STAT_STATE = n
    ((s.userOn = false ∨ off &&& 0xFE000003 ≠ 0) → ∀ c ∈ [Instr.i2cRead off, .i2cWrite off v code], ∃ t, exec c s = .next t ∧ noted t ∧ t.out.head? = some .i2cNack ∧ counted Pg.i2ct 1 t ∧ stopped t) ∧
    (s.userOn = true → off &&& 0xFE000003 = 0 →
      (∃ t, exec (.i2cRead off) s = .next t ∧ i2c 0 t ∧ stopped t ∧ (let r := s.winRead 3 (pgOf off.toNat) (offOf off.toNat);
        t.out.length = r.2.out.length + 1 ∧ t.out.head? = some (reply (0x01 :: (toBytes 4 off).reverse) (toBytes 4 r.1)))) ∧
      (code = pec (wr :: 0x02 :: (toBytes 4 off).reverse ++ toBytes 4 v) → ∃ t, exec (.i2cWrite off v code) s = .next t ∧
        (let r := s.winWrite 3 (pgOf off.toNat) (offOf off.toNat) 0xF v; i2c (if r.1 = none then 0 else 1) t ∧ stopped t ∧ { t with regs := r.2.regs, mgmt.i2cAt := r.2.mgmt.i2cAt } = r.2)) ∧
      (code ≠ pec (wr :: 0x02 :: (toBytes 4 off).reverse ++ toBytes 4 v) → ∃ t, exec (.i2cWrite off v code) s = .next t ∧ i2c 3 t ∧ noted t ∧ stopped t ∧ counted Pg.i2ct 0 t)) ∧
    (∃ t, exec .i2cStatus s = .next t ∧ { t with out := s.out, mgmt.i2cAt := s.mgmt.i2cAt } = s ∧ stopped t ∧ t.out.head? = some (reply [0x03] status)) ∧
    (s.userOn = true → ∃ t, exec .i2cResult s = .next t ∧ { t with out := s.out, mgmt.i2cAt := s.mgmt.i2cAt } = s ∧ stopped t ∧ t.out.head? = some (reply [0x04] [BitVec.ofNat 8 (s.fld Pg.i2ct Fld.I2CT_I2C_STAT_RESULT)])) ∧
    (∃ t, exec .i2cBusTimeout s = .next t ∧ ReleasedBy 3 s t ∧ counted Pg.i2ct 2 t) ∧
    (usb 0 s → s.boot.refsUp = true → s.bit Pg.usbd Fld.USBD_USB_CTRL_ATTACH = true → ∃ t, exec .usbAttach s = .next t ∧ usb 1 t ∧ { t with regs := s.regs } = s) ∧
    (¬ usb 0 s →
      let legal := index.toNat < 512 ∧ value.toNat % 4 = 0 ∧ 4 ≤ length.toNat ∧ length.toNat ≤ 64 ∧ length.toNat % 4 = 0
      (s.userOn = true → legal → (∃ t, exec (.readReg value index length) s = .next t ∧ t.mgmt.usbRes = 0 ∧
          (length.toNat = 4 → t.out.head? = some (.usb (toBytes 4 (s.winRead 4 (pgOf (index.toNat * 65536 + value.toNat)) (offOf (index.toNat * 65536 + value.toNat))).1))) ∧
          ∃ l, t.out.head? = some (.usb l) ∧ l.length = length.toNat) ∧
        (4 * words.length = length.toNat → ∃ t, exec (.writeReg value index length words) s = .next t ∧ (let r := s.usbWrites value index 0 words;
          r.2.2.usbState ≠ 0 → t.mgmt.usbRes = r.1.toNat ∧ t.mgmt.usbWords = r.2.1 ∧ { t with mgmt := r.2.2.mgmt } = r.2.2)) ∧
        (4 * words.length ≠ length.toNat → ∃ t, exec (.writeReg value index length words) s = .next t ∧ noted t ∧ counted Pg.usbd 1 t)) ∧
      ((s.userOn = false ∨ ¬ legal) → stalls (.readReg value index length) ∧ stalls (.writeReg value index length words)) ∧
      (value = 0 → index = 0 → length = 12 → ∃ t, exec (.usbStatus value index length) s = .next t ∧ { t with out := s.out } = s ∧ t.out.head? = some (.usb status)) ∧
      (s.userOn = true → value = 0 → index = 0 → length = 4 → ∃ t, exec (.usbResult value index length) s = .next t ∧ { t with out := s.out } = s ∧
        t.out.head? = some (.usb [BitVec.ofNat 8 s.mgmt.usbRes, BitVec.ofNat 8 s.mgmt.usbWords, 0, 0])) ∧
      (value ≠ 0 → stalls (.usbStatus value index length) ∧ stalls (.usbResult value index length)) ∧
      (∀ n : BitVec 7, ∃ t, exec (.usbStandardRequest (.setAddress n)) s = .next t ∧ t.mgmt.usbAddr.toNat = n.toNat ∧ usb (if n = 0 then 1 else 2) t) ∧
      (∀ hs, ∃ t, exec (.usbBusReset hs false) s = .next t ∧ ReleasedBy 4 s t ∧ usb 1 t ∧ t.fld Pg.usbd Fld.USBD_USB_STAT_HS = hs.toNat ∧ counted Pg.usbd 0 t) ∧
      (∀ hs, ∃ t, exec (.usbBusReset hs true) s = .next t ∧ ReleasedBy 4 s t ∧ usb 0 t) ∧
      (∃ t, exec .usbTransferTimeout s = .next t ∧ noted t ∧ counted Pg.usbd 1 t)) ∧
    (let levels := Config.pinLevels s.free
      let load := Config.scanBits s.free
      let scans := [(Instr.samplePreload, (0x02 : Byte)), (.extest, 0x03), (.extestPulse, 0x04), (.extestTrain, 0x05)]
      let idle := s.rings.flits = [] ∧ ∀ e ∈ s.rings.txns, e.2.phase = .delivered ∨ e.2.phase = .parked
      let pins : State → Prop := fun t =>
        (∀ pin lvl, (pin, lvl) ∈ t.mgmt.bsrIn ↔ (pin, lvl) ∈ levels ∨ ((pin, lvl) ∈ s.mgmt.bsrIn ∧ ∀ e ∈ levels, e.1 ≠ pin)) ∧
        (∀ pin lvl, (pin, lvl) ∈ t.mgmt.bsr ↔ ((pin, lvl) ∈ load ∧ pin.observeOnly = false) ∨ ((pin, lvl) ∈ s.mgmt.bsr ∧ ∀ e ∈ load, e.1.observeOnly = false → e.1 ≠ pin))
      ∀ e ∈ scans ++ [(Instr.idcode, (0x01 : Byte)), (.clamp, 0x06), (.highz, 0x07), (.probe, 0x08), (.winacc, 0x10), (.bypass, 0xFF)],
      let tests (b : Byte) : Prop := 3 ≤ b.toNat ∧ b.toNat ≤ 7
      (¬ tests s.mgmt.tap ∨ tests e.2 → ∃ t, exec e.1 s = .next t ∧ t.mgmt.tap = e.2 ∧ { t with mgmt.tap := s.mgmt.tap, mgmt.bsr := s.mgmt.bsr, mgmt.bsrIn := s.mgmt.bsrIn, out := s.out, free := s.free } = s ∧
        t.out = (if e.2 = 0x01 then [Emit.tapOut idRegister] else []) ++ s.out ∧
        (e ∈ scans → idle → pins t) ∧ (e ∉ scans ∨ s.rings.flits ≠ [] → t.mgmt.bsr = s.mgmt.bsr ∧ t.mgmt.bsrIn = s.mgmt.bsrIn)) ∧
      (tests s.mgmt.tap → ¬ tests e.2 → ∃ t, exec e.1 s = .next t ∧ t.mgmt.tap = e.2 ∧ t.fld Pg.rst Fld.RST_RST_CAUSE_LAST = 3 ∧ t.boot.running = none ∧ t.rings = {})) ∧
    (¬ (3 ≤ s.mgmt.tap.toNat ∧ s.mgmt.tap.toNat ≤ 7) → ∃ t, exec .testLogicReset s = .next t ∧ t.mgmt.tap = 0x01 ∧ ReleasedBy 5 s t) ∧
    (s.mgmt.tap = 0x10 →
      let refused : Instr → Prop := fun c => ∃ t, exec c s = .next t ∧ t.mgmt.jtagStat = 2 ∧ t.mgmt.jtagData = 0 ∧ counted Pg.jtg 0 t
      ((s.bit Pg.jtg Fld.JTG_JTG_CTRL_WIN_EN = false ∨ woff.toNat % 4 ≠ 0) → refused (.winaccRead woff) ∧ refused (.winaccWrite woff v)) ∧
      (s.bit Pg.jtg Fld.JTG_JTG_CTRL_WIN_EN = true → woff.toNat % 4 = 0 →
        (∃ t, exec (.winaccRead woff) s = .next t ∧ t.mgmt.jtagStat = 0 ∧ t.mgmt.jtagData = (s.winRead 5 (pgOf woff.toNat) (offOf woff.toNat)).1) ∧
        ∃ t, exec (.winaccWrite woff v) s = .next t ∧ (let r := s.winWrite 5 (pgOf woff.toNat) (offOf woff.toNat) 0xF v;
          (r.1 = none → t.mgmt.jtagStat = 0 ∧ { t with mgmt := r.2.mgmt } = r.2) ∧ (r.1 ≠ none → t.mgmt.jtagStat = 2))))

/-- R482 to R484, R493, R494, R498, R516, Tables 19.9, 19.10. CLAIM gives a FREE channel to its agent; GO makes it PENDING, or DONE with NO_FW while no firmware runs; RELEASE frees it. The firmware takes a pending request and its answer makes the channel DONE with status, length and bytes; MBX_TIMEOUT makes it DONE with TIMEOUT.
GET_VERSION, BREAK_LOCK and NV_SYS_WRITE answer as Table 19.10 has them. A field test shows its unit, and a quad that passes shows RESULT passed, one with a logic mismatch RESULT failed; a connection of a test bus shows SWITCHING for its time; an accepted GPIO level is the pin's input. -/
def Obligations.MailboxAndTests : Prop :=
  ∀ (a : Agent) (c : Fin 8) (v : Word) (s : State),
    let mbx := Pg.mbx
    let counted : Nat → Nat → State → Prop := fun p c t => s.fld p (Fld.PG_TRB_CNT c) < 0xFFFF → t.fld p (Fld.PG_TRB_CNT c) = s.fld p (Fld.PG_TRB_CNT c) + 1
    let done : Nat → Nat → State → Prop := fun st len t => t.chState c = 4 ∧ t.fld mbx (Fld.MBX_CH_RSP_STATUS c) = st ∧ t.fld mbx (Fld.MBX_CH_RSP_LEN c) = len ∧ (t.reg mbx Reg.PG_PG_EVT).getLsbD c = true
    let ctrl := Reg.MBX_CH_CTRL c
    let bytes (l : List Byte) (t : State) : Prop := ∀ i (h : i < l.length), byteOf (t.reg mbx (Reg.MBX_CH_DATA c (i / 4))) (i % 4) = l[i]
    let kept : State → Prop := fun t => { t with regs := s.regs } = s
    let fb : Fld → State → Nat := fun f t => t.fld Pg.bist f
    (Accepts s a.toNat mbx ctrl 1 → s.chState c = 0 ∧ ∃ t, exec (.channelClaim a c) s = .next t ∧ kept t ∧ t.chState c = 1 ∧ t.chOwner c = a.toNat) ∧
    (Accepts s a.toNat mbx ctrl 2 → s.chOwner c = a.toNat ∧
      (s.bit mbx Fld.MBX_MBX_INFO_FW_RUN = true → ∃ t, exec (.go a c) s = .next t ∧ kept t ∧ t.chState c = 2 ∧ t.chOwner c = a.toNat) ∧
      (s.bit mbx Fld.MBX_MBX_INFO_FW_RUN = false → ∃ t, exec (.go a c) s = .next t ∧ done 4 0 t ∧ counted mbx 2 t ∧ t.mbx = s.mbx)) ∧
    (Accepts s a.toNat mbx ctrl 3 → s.chState c ≠ 3 ∧ ∃ t, exec (.channelRelease a c) s = .next t ∧ t.chState c = 0 ∧ t.chOwner c = 0 ∧ (mget s.mbx c = none → kept t)) ∧
    (s.chState c = 2 → s.mbxServes = true → mget s.mbx c = none → ∃ t q, exec (.mailboxRequestTaken c) s = .next t ∧ t.chState c = 3 ∧ mget t.mbx c = some q ∧
      q.service = s.fld mbx (Fld.MBX_CH_REQ_SERVICE c) ∧ q.data.length = s.fld mbx (Fld.MBX_CH_REQ_LEN c) ∧ q.len = q.data.length ∧ bytes q.data s ∧ q.agent.toNat = s.chOwner c ∧
      q.orphan = false ∧ { t with regs := s.regs, mbx := s.mbx } = s) ∧
    (∀ q, mget s.mbx c = some q → s.mbxServes = true →
      (∀ (st : BitVec 8) (data : List (BitVec 8)), q.service = 0 ∨ 3 < q.service → data.length ≤ 128 → st.toNat ≤ 6 →
        (q.orphan = false → ∃ t, exec (.mailboxResponse c st data) s = .next t ∧ done st.toNat data.length t ∧ bytes data t ∧ mget t.mbx c = none) ∧
        (q.orphan = true → exec (.mailboxResponse c st data) s = .next { s with mbx := mdel s.mbx c })) ∧
      (q.orphan = false → q.service = 1 → (q.len ≠ 0 → ∃ t, exec (.getVersion c) s = .next t ∧ done 2 0 t) ∧
        (q.len = 0 → ∃ t, exec (.getVersion c) s = .next t ∧ done 0 8 t ∧ t.reg mbx (Reg.MBX_CH_DATA c 0) = BitVec.ofNat 32 (s.fld mbx Fld.MBX_MBX_INFO_VERSION) ∧
          t.reg mbx (Reg.MBX_CH_DATA c 1) = s.mgmt.fwBuild)) ∧
      (q.orphan = false → q.service = 2 → ∀ lo hi : Byte, q.len = 2 → q.data = [lo, hi] →
        let pg := lo.toNat + 256 * hi.toNat
        (s.page pg = none → ∃ t, exec (.breakLock c) s = .next t ∧ done 2 0 t) ∧
        (s.page pg ≠ none → s.pathWr q.agent.toNat = false ∨ s.reaches q.agent.toNat pg = false → ∃ t, exec (.breakLock c) s = .next t ∧ done 3 0 t ∧
          t.reg pg Reg.PG_PG_LOCK = s.reg pg Reg.PG_PG_LOCK) ∧
        (s.page pg ≠ none → s.pathWr q.agent.toNat = true → s.reaches q.agent.toNat pg = true → s.bit pg Fld.PG_PG_LOCK_HELD = true →
          ∃ t, exec (.breakLock c) s = .next t ∧ done 0 0 t ∧ t.fld pg Fld.PG_PG_LOCK_HELD = 0 ∧ t.fld pg Fld.PG_PG_LOCK_BROKEN = 1)) ∧
      (q.orphan = false → q.service = 3 → ∀ ok : Bool,
        let off := (ofBytes 32 (q.data.take 4)).toNat
        (q.len ≠ 68 ∨ off % 64 ≠ 0 → ∃ t, exec (.nvSysWrite c ok) s = .next t ∧ done 2 0 t ∧ t.nv = s.nv) ∧
        (q.len = 68 → off % 64 = 0 → off < 0x1FF40000 ∨ 0x1FF80000 ≤ off → ∃ t, exec (.nvSysWrite c ok) s = .next t ∧ done 3 0 t ∧ t.nv = s.nv) ∧
        (q.len = 68 → off % 64 = 0 → 0x1FF40000 ≤ off → off < 0x1FF80000 → s.badSectors.contains (off / 64 / 1024) = false → ∃ t, exec (.nvSysWrite c ok) s = .next t ∧
          (ok = true → done 0 0 t ∧ mgetD {} t.nv.blocks (off / 64) = ⟨ofBytes 512 (q.data.drop 4), 0, false⟩) ∧ (ok = false → done 6 0 t ∧ counted Pg.nvs 2 t)))) ∧
    (s.chState c = 2 ∨ s.chState c = 3 → ∃ t, exec (.mailboxTimeout c) s = .next t ∧ done 5 0 t ∧ counted mbx 0 t ∧ ∀ q, mget t.mbx c = some q → q.orphan = true) ∧
    (Accepts s a.toNat Pg.bist Reg.BIST_FB_CTRL (withFlds v [(Fld.BIST_FB_CTRL_START, 1)]) → ∃ t, exec (.fieldBist a v) s = .next t ∧
      fb Fld.BIST_FB_STAT_BUSY t = 1 ∧ fb Fld.BIST_FB_STAT_RESULT t = 0 ∧ fb Fld.BIST_FB_STAT_KIND t = fieldOf v 24 4 ∧ fb Fld.BIST_FB_STAT_INDEX t = fieldOf v 0 6 ∧
      t.bist.field = some (fieldOf v 24 4, fieldOf v 0 6) ∧ (fieldOf v 24 4 = 1 → t.fld (Pg.fabCtl (fieldOf v 0 6)) Fld.FABCTL_DIE_STAT_CFG_DONE = 0)) ∧
    (∀ n < 48, s.bist.field = some (3, n) →
      (∀ img, s.boot.running = some img → img.regs = [] → ∃ t, exec (.fieldBistEnd [] none) s = .next t ∧ fb Fld.BIST_FB_STAT_BUSY t = 0 ∧ fb Fld.BIST_FB_STAT_RESULT t = 1 ∧ t.bist.field = none) ∧
      (∀ p, ∃ t, exec (.fieldBistEnd [] (some p)) s = .next t ∧ fb Fld.BIST_FB_STAT_BUSY t = 0 ∧ fb Fld.BIST_FB_STAT_RESULT t = 3 ∧ t.bist.field = none ∧ counted Pg.bist 3 t ∧ counted Pg.bist 2 t ∧
        fb Fld.BIST_LB_LAST_VALID t = 1 ∧ fb Fld.BIST_LB_LAST_KIND t = 4 ∧ fb Fld.BIST_LB_LAST_INDEX t = n ∧ fb Fld.BIST_LB_LAST_PART t = p.toNat)) ∧
    (∀ bus1 : Bool, let off := if bus1 then Reg.ATB_ATB1_SEL else Reg.ATB_ATB0_SEL
      Accepts s a.toNat Pg.atb off v → ∃ t, exec (.atbSelect a bus1 v) s = .next t ∧ t.fld Pg.atb { Fld.ATB_ATB0_SEL_POINT with off := off } = fieldOf v 0 9 ∧
        t.mgmt.atbEnd = (if v = s.reg Pg.atb off then s.mgmt.atbEnd else s.ns + 1000) ∧ { t with regs := s.regs, mgmt := s.mgmt } = s) ∧
    (∀ (b : Fin 12) (pin : Fin 48) (level : Bool), s.userOn = true → s.clk.failed = false → ∃ t, exec (.gpioInputEdge b pin level) s = .next t ∧
      (∀ (b' : Fin 12) (p' : Fin 48), (mgetD 0 t.mgmt.gpio b').getLsbD p' = if b' = b ∧ p' = pin then level else (mgetD 0 s.mgmt.gpio b').getLsbD p') ∧
      { t with mgmt := s.mgmt } = s)

/-- R12, R22, R434, R463, Tables 05.6, 06.12, 07.12, 08.7, 09.9, 11.5, 12.10, 14.7, 17.11, 17.13, 18.8, 19.2, 19.11: nothing waits, no lock is held, every page is enabled with no event and no count, and registers of every block hold the values that the tables give. That every memory is empty then, and the part identity 0x09601180 with serial
number 0, are the choices of the model (log 2). -/
def Obligations.ResetState : Prop :=
  let s := State.reset
  s.pending = [] ∧ s.out = [] ∧ s.alarms = [] ∧ s.keys.kek = none ∧ s.tq.queues = [] ∧ s.rings.txns = [] ∧ s.nv.progs = [] ∧ s.boot.running = none ∧
  s.reg Pg.dev0 Reg.DEV0_PART_ID = 0x09601180 ∧
  (∀ pg < 8192, (s.page pg).isSome = true → s.fld pg Fld.PG_PG_CTRL_ENABLE = 1 ∧ s.fld pg Fld.PG_PG_LOCK_HELD = 0 ∧ s.reg pg Reg.PG_PG_EVT = 0 ∧
    s.fld pg Fld.PG_PG_REFUSE_VALID = 0 ∧ ∀ n < 8, s.fld pg (Fld.PG_TRB_CNT n) = 0) ∧
  (∀ m : Fin 8, s.reg (Pg.fabMem m) Reg.FABMEM_BM_ECC_CTRL = 3 ∧ s.fld (Pg.fabCtl m) Fld.FABCTL_DIE_STAT_PWR_STATE = 0 ∧ s.reg (Pg.eccF m) Reg.ECC_FRM_CTRL = 1) ∧
  (∀ e : Fin 96, s.reg (Pg.engCtl e) Reg.ENG_HALT_TIMEOUT = 0x1000 ∧ s.eng e = Engine.reset) ∧
  (∀ i : Fin 64, s.reg (Pg.stop i) Reg.STOP_SNUFF_TIMEOUT = 100 ∧ s.reg (Pg.stop i) Reg.STOP_REQ_TIMEOUT = 2000 ∧ s.fld (Pg.stop i) Fld.STOP_SEG_FAIL_SEG = 0) ∧
  (∀ c < 8, s.reg Pg.dir (Reg.DIR_SC_WAYS c) = 0xFFFF) ∧
  (∀ c : Fin 136, s.reg (cbPage c) (cbBase c + Reg.CB_REF) = if c.val < 128 then 0x800 else 0x801) ∧
  s.slotState 0 = 2 ∧ (∀ k : Fin 1024, k ≠ 0 → s.slotState k = 0) ∧
  (∀ l : Fin 192, s.reg (Pg.lane l) Reg.LN_TXFIR = 0x00043308 ∧ s.laneState l = 0) ∧
  (∀ k : Fin 16, s.reg (Pg.chk k) Reg.CHK_ALIVE_CFG = 0x00040010) ∧
  s.reg Pg.tq Reg.TQ_RMT_TIMEOUT = 0x5DC ∧ s.reg Pg.clkRef Reg.REF_QUAL = 0x00640064 ∧ s.reg Pg.cfgh Reg.CFGH_H_TIMEOUT = 0x2710 ∧
  s.reg Pg.pwr Reg.PWR_ALERT_EN = 0x1F ∧ s.reg Pg.thm Reg.THM_THR_CTRL = 0x00080364 ∧ s.fld Pg.rst Fld.RST_RST_CAUSE_LAST = 1 ∧
  s.reg Pg.emb Reg.EMB_TAMPER0_CFG = 0xA ∧ s.fld Pg.key Fld.KEY_KEK_STAT_ALARM = 1 ∧ s.reg Pg.alm Reg.ALM_ADMIT_CFG = 0x0064000A ∧ s.reg Pg.host Reg.HOST_PATH_RD = 0xFF1F ∧
  s.reg Pg.host Reg.HOST_PATH_WR = 0xFF1F ∧ s.reg Pg.mbx Reg.MBX_MBX_TIMEOUT = 0x64 ∧ s.fld Pg.i2ct Fld.I2CT_I2C_CTRL_ADDR = 0x5A

/-- The invariant of the block, from every state: a step answers a next state, whatever command waits in front and whatever the state; the commands behind it wait on in their order; no command, reset or loss of supply changes the part's identity, its serial number or its fuses (R12, Table 00.5: class P and the fuses are written before the part is shipped),
and time passes only where no command waits (log 4). -/
def Obligations.EveryStepAnswers : Prop :=
  ∀ (part : Word) (serial : BitVec 64) (fuses : KMap Word) (now : Nat) (s : State), IsPart part serial fuses s → s.ns = now →
    ∃ t, step s = .next t ∧ IsPart part serial fuses t ∧ KeepsQueue s t ∧ t.ns = if s.pending = [] then now + 1 else now
end

