-- ==== Sys2Proof/Laws/Aes.lean ====
section
/-!
SUPPORT. The ciphers of Aes.lean by tables: the same functions, for tests on standard vectors.
-/
namespace Sys2Proof.Machine
set_option Elab.async false

/-- Entry a of a table of 256 bytes. -/
def aesAt (t a : Nat) : Nat := (t >>> (8 * a)) % 256
def aesSubTab : Nat := 0x16BB54B00F2D99416842E6BF0D89A18CDF2855CEE9871E9B948ED9691198F8E19E1DC186B95735610EF6034866B53E708A8BBD4B1F74DDE8C6B4A61C2E2578BA08AE7A65EAF4566CA94ED58D6D37C8E779E4959162ACD3C25C2406490A3A32E0DB0B5EDE14B8EE4688902A22DC4F816073195D643D7EA7C41744975FEC130CCDD2F3FF1021DAB6BCF5389D928F40A351A89F3C507F02F94585334D43FBAAEFD0CF584C4A39BECB6A5BB1FC20ED00D153842FE329B3D63B52A05A6E1B1A2C830975B227EBE28012079A059618C323C7041531D871F1E5A534CCF73F362693FDB7C072A49CAFA2D4ADF04759FA7DC982CA76ABD7FE2B670130C56F6BF27B777C63
def aesSubInvTab : Nat := 0x7D0C2155631469E126D677BA7E042B17619953833CBBEBC8B0F52AAE4D3BE0A0EF9CC9939F7AE52D0D4AB519A97F51605FEC8027591012B131C7078833A8DD1FF45ACD78FEC0DB9A2079D2C64B3E56FC1BBE18AA0E62B76F89C5291D711AF1476EDF751CE837F9E28535ADE72274AC9673E6B4F0CECFF297EADC674F4111913A6B8A130103BDAFC1020F3FCA8F1E2CD00645B3B80558E4F70AD3BC8C00ABD890849D8DA75746155EDAB9EDFD5048706C92B6655DCC5CA4D41698688664F6F87225D18B6D49A25B76B224D92866A12E084EC3FA420B954CEE3D23C2A632947B54CBE9DEC444438E3487FF2F9B8239E37CFBD7F3819EA340BF38A53630D56A0952

/-- The products of a < 16 and b < 256, as bytes by 256 a + b. -/
def aesMulTab : Nat := 0x727D6C634E41505F0A05141B36392827828D9C93BEB1A0AFFAF5E4EBC6C9D8D789869798B5BAABA4F1FEEFE0CDC2D3DC79766768454A5B54010E1F103D32232C9F90818EA3ACBDB2E7E8F9F6DBD4C5CA6F60717E535C4D42171809062B24353A646B7A75585746491C13020D202F3E31949B8A85A8A7B6B9ECE3F2FDD0DFCEC1B3BCADA28F80919ECBC4D5DAF7F8E9E6434C5D527F70616E3B34252A0708191648475659747B6A65303F2E210C03121DB8B7A6A9848B9A95C0CFDED1FCF3E2ED5E51404F626D7C73262938371A15040BAEA1B0BF929D8C83D6D9C8C7EAE5F4FBA5AABBB499968788DDD2C3CCE1EEFFF0555A4B44696677782D22333C111E0F008D83919FB5BBA9A7FDF3E1EFC5CBD9D76D63717F555B49471D13010F252B393756584A446E60727C26283A341E10020CB6B8AAA48E80929CC6C8DAD4FEF0E2EC202E3C321816040A505E4C426866747AC0CEDCD2F8F6E4EAB0BEACA28886949AFBF5E7E9C3CDDFD18B859799B3BDAFA11B150709232D3F316B657779535D4F41CCC2D0DEF4FAE8E6BCB2A0AE848A98962C22303E141A08065C52404E646A787617190B052F21333D67697B755F51434DF7F9EBE5CFC1D3DD87899B95BFB1A3AD616F7D735957454B111F0D032927353B818F9D93B9B7A5ABF1FFEDE3C9C7D5DBBAB4A6A8828C9E90CAC4D6D8F2FCEEE05A544648626C7E702A243638121C0E00979A8D80A3AEB9B4FFF2E5E8CBC6D1DC474A5D50737E69642F2235381B16010C2C21363B1815020F44495E53707D6A67FCF1E6EBC8C5D2DF94998E83A0ADBAB7FAF7E0EDCEC3D4D9929F8885A6ABBCB12A27303D1E130409424F5855767B6C61414C5B5675786F622924333E1D10070A919C8B86A5A8BFB2F9F4E3EECDC0D7DA4D40575A7974636E25283F32111C0B069D90878AA9A4B3BEF5F8EFE2C1CCDBD6F6FBECE1C2CFD8D59E938489AAA7B0BD262B3C31121F08054E4354597A77606D202D3A3714190E034845525F7C71666BF0FDEAE7C4C9DED39895828FACA1B6BB9B96818CAFA2B5B8F3FEE9E4C7CADDD04B46515C7F726568232E3934171A0D006864707C5854404C0804101C3834202CA8A4B0BC9894808CC8C4D0DCF8F4E0ECF3FFEBE7C3CFDBD7939F8B87A3AFBBB7333F2B27030F1B17535F4B47636F7B7745495D5175796D6125293D3115190D0185899D91B5B9ADA1E5E9FDF1D5D9CDC1DED2C6CAEEE2F6FABEB2A6AA8E82969A1E12060A2E22363A7E72666A4E42565A323E2A26020E1A16525E4A46626E7A76F2FEEAE6C2CEDAD6929E8A86A2AEBAB6A9A5B1BD9995818DC9C5D1DDF9F5E1ED6965717D5955414D0905111D3935212D1F13070B2F23373B7F73676B4F43575BDFD3C7CBEFE3F7FBBFB3A7AB8F83979B84889C90B4B8ACA0E4E8FCF0D4D8CCC044485C5074786C6024283C3014180C00A3A8B5BE8F849992FBF0EDE6D7DCC1CA1318050E3F3429224B405D56676C717AD8D3CEC5F4FFE2E9808B969DACA7BAB168637E75444F5259303B262D1C170A01555E434879726F640D061B10212A373CE5EEF3F8C9C2DFD4BDB6ABA0919A878C2E2538330209141F767D606B5A514C479E958883B2B9A4AFC6CDD0DBEAE1FCF7545F424978736E650C071A11202B363DE4EFF2F9C8C3DED5BCB7AAA1909B868D2F2439320308151E777C616A5B504D469F948982B3B8A5AEC7CCD1DAEBE0FDF6A2A9B4BF8E859893FAF1ECE7D6DDC0CB1219040F3E3528234A415C57666D707BD9D2CFC4F5FEE3E8818A979CADA6BBB069627F74454E5358313A272C1D160B005C564842747E606A0C061812242E303AFCF6E8E2D4DEC0CAACA6B8B2848E909A070D13192F253B31575D43497F756B61A7ADB3B98F859B91F7FDE3E9DFD5CBC1EAE0FEF4C2C8D6DCBAB0AEA49298868C4A405E546268767C1A100E043238262CB1BBA5AF99938D87E1EBF5FFC9C3DDD7111B050F39332D27414B555F69637D772B213F350309171D7B716F655359474D8B819F95A3A9B7BDDBD1CFC5F3F9E7ED707A646E58524C46202A343E08021C16D0DAC4CEF8F2ECE6808A949EA8A2BCB69D978983B5BFA1ABCDC7D9D3E5EFF1FB3D372923151F010B6D677973454F515BC6CCD2D8EEE4FAF0969C8288BEB4AAA0666C72784E445A50363C22281E140A00464F545D626B70790E071C152A233831D6DFC4CDF2FBE0E99E978C85BAB3A8A17D746F6659504B42353C272E1118030AEDE4FFF6C9C0DBD2A5ACB7BE8188939A3039222B141D060F78716A635C554E47A0A9B2BB848D969FE8E1FAF3CCC5DED70B0219102F263D34434A5158676E757C9B928980BFB6ADA4D3DAC1C8F7FEE5ECAAA3B8B18E879C95E2EBF0F9C6CFD4DD3A3328211E170C05727B6069565F444D9198838AB5BCA7AED9D0CBC2FDF4EFE60108131A252C373E49405B526D647F76DCD5CEC7F8F1EAE3949D868FB0B9A2AB4C455E5768617A73040D161F2029323BE7EEF5FCC3CAD1D8AFA6BDB48B829990777E656C535A41483F362D241B120900B9B1A9A199918981F9F1E9E1D9D1C9C139312921191109017971696159514941A2AAB2BA828A929AE2EAF2FAC2CAD2DA222A323A020A121A626A727A424A525A8F879F97AFA7BFB7CFC7DFD7EFE7FFF70F071F172F273F374F475F576F677F77949C848CB4BCA4ACD4DCC4CCF4FCE4EC141C040C343C242C545C444C747C646CD5DDC5CDF5FDE5ED959D858DB5BDA5AD555D454D757D656D151D050D353D252DCEC6DED6EEE6FEF68E869E96AEA6BEB64E465E566E667E760E061E162E263E36E3EBF3FBC3CBD3DBA3ABB3BB838B939B636B737B434B535B232B333B030B131BF8F0E8E0D8D0C8C0B8B0A8A09890888078706860585048403830282018100800CBCCC5C2D7D0D9DEF3F4FDFAEFE8E1E6BBBCB5B2A7A0A9AE83848D8A9F9891962B2C25223730393E13141D1A0F0801065B5C55524740494E63646D6A7F78717610171E190C0B0205282F262134333A3D60676E697C7B7275585F565144434A4DF0F7FEF9ECEBE2E5C8CFC6C1D4D3DADD80878E899C9B9295B8BFB6B1A4A3AAAD6661686F7A7D74735E59505742454C4B1611181F0A0D04032E29202732353C3B8681888F9A9D9493BEB9B0B7A2A5ACABF6F1F8FFEAEDE4E3CEC9C0C7D2D5DCDBBDBAB3B4A1A6AFA885828B8C999E9790CDCAC3C4D1D6DFD8F5F2FBFCE9EEE7E05D5A535441464F4865626B6C797E77702D2A232431363F3815121B1C090E07003432383E2C2A20260402080E1C1A10165452585E4C4A40466462686E7C7A7076F4F2F8FEECEAE0E6C4C2C8CEDCDAD0D69492989E8C8A8086A4A2A8AEBCBAB0B6AFA9A3A5B7B1BBBD9F99939587818B8DCFC9C3C5D7D1DBDDFFF9F3F5E7E1EBED6F69636577717B7D5F59535547414B4D0F09030517111B1D3F39333527212B2D191F151301070D0B292F252331373D3B797F757361676D6B494F454351575D5BD9DFD5D3C1C7CDCBE9EFE5E3F1F7FDFBB9BFB5B3A1A7ADAB898F858391979D9B82848E889A9C9690B2B4BEB8AAACA6A0E2E4EEE8FAFCF6F0D2D4DED8CACCC6C042444E485A5C565072747E786A6C666022242E283A3C363012141E180A0C06002E2B24213A3F303506030C091217181D7E7B74716A6F606556535C594247484D8E8B84819A9F9095A6A3ACA9B2B7B8BDDEDBD4D1CACFC0C5F6F3FCF9E2E7E8ED75707F7A61646B6E5D585752494C434625202F2A31343B3E0D080702191C1316D5D0DFDAC1C4CBCEFDF8F7F2E9ECE3E685808F8A91949B9EADA8A7A2B9BCB3B6989D92978C898683B0B5BABFA4A1AEABC8CDC2C7DCD9D6D3E0E5EAEFF4F1FEFB383D32372C29262310151A1F04010E0B686D62677C79767340454A4F54515E5BC3C6C9CCD7D2DDD8EBEEE1E4FFFAF5F09396999C87828D88BBBEB1B4AFAAA5A06366696C77727D784B4E41445F5A55503336393C27222D281B1E11140F0A0500D1D5D9DDC1C5C9CDF1F5F9FDE1E5E9ED9195999D8185898DB1B5B9BDA1A5A9AD5155595D4145494D7175797D6165696D1115191D0105090D3135393D2125292DCACEC2C6DADED2D6EAEEE2E6FAFEF2F68A8E82869A9E9296AAAEA2A6BABEB2B64A4E42465A5E52566A6E62667A7E72760A0E02061A1E12162A2E22263A3E3236E7E3EFEBF7F3FFFBC7C3CFCBD7D3DFDBA7A3AFABB7B3BFBB87838F8B97939F9B67636F6B77737F7B47434F4B57535F5B27232F2B37333F3B07030F0B17131F1BFCF8F4F0ECE8E4E0DCD8D4D0CCC8C4C0BCB8B4B0ACA8A4A09C9894908C8884807C7874706C6864605C5854504C4844403C3834302C2824201C1814100C0804001A191C1F16151013020104070E0D080B2A292C2F26252023323134373E3D383B7A797C7F76757073626164676E6D686B4A494C4F46454043525154575E5D585BDAD9DCDFD6D5D0D3C2C1C4C7CECDC8CBEAE9ECEFE6E5E0E3F2F1F4F7FEFDF8FBBAB9BCBFB6B5B0B3A2A1A4A7AEADA8AB8A898C8F86858083929194979E9D989B818287848D8E8B88999A9F9C95969390B1B2B7B4BDBEBBB8A9AAAFACA5A6A3A0E1E2E7E4EDEEEBE8F9FAFFFCF5F6F3F0D1D2D7D4DDDEDBD8C9CACFCCC5C6C3C0414247444D4E4B48595A5F5C55565350717277747D7E7B78696A6F6C65666360212227242D2E2B28393A3F3C35363330111217141D1E1B18090A0F0C05060300E5E7E1E3EDEFE9EBF5F7F1F3FDFFF9FBC5C7C1C3CDCFC9CBD5D7D1D3DDDFD9DBA5A7A1A3ADAFA9ABB5B7B1B3BDBFB9BB858781838D8F898B959791939D9F999B656761636D6F696B757771737D7F797B454741434D4F494B555751535D5F595B252721232D2F292B353731333D3F393B050701030D0F090B151711131D1F191BFEFCFAF8F6F4F2F0EEECEAE8E6E4E2E0DEDCDAD8D6D4D2D0CECCCAC8C6C4C2C0BEBCBAB8B6B4B2B0AEACAAA8A6A4A2A09E9C9A98969492908E8C8A88868482807E7C7A78767472706E6C6A68666462605E5C5A58565452504E4C4A48464442403E3C3A38363432302E2C2A28262422201E1C1A18161412100E0C0A0806040200FFFEFDFCFBFAF9F8F7F6F5F4F3F2F1F0EFEEEDECEBEAE9E8E7E6E5E4E3E2E1E0DFDEDDDCDBDAD9D8D7D6D5D4D3D2D1D0CFCECDCCCBCAC9C8C7C6C5C4C3C2C1C0BFBEBDBCBBBAB9B8B7B6B5B4B3B2B1B0AFAEADACABAAA9A8A7A6A5A4A3A2A1A09F9E9D9C9B9A999897969594939291908F8E8D8C8B8A898887868584838281807F7E7D7C7B7A797877767574737271706F6E6D6C6B6A696867666564636261605F5E5D5C5B5A595857565554535251504F4E4D4C4B4A494847464544434241403F3E3D3C3B3A393837363534333231302F2E2D2C2B2A292827262524232221201F1E1D1C1B1A191817161514131211100F0E0D0C0B0A0908070605040302010000000000000000000000000000000000000000000000000000000000000000000000000000000000000000000000000000000000000000000000000000000000000000000000000000000000000000000000000000000000000000000000000000000000000000000000000000000000000000000000000000000000000000000000000000000000000000000000000000000000000000000000000000000000000000000000000000000000000000000000000000000000000000000000000000000000000000000000000000000000000000000000000000000000000000000000000000000000000000000000000000000000000000000000000000000000

def aesSubT (a : Nat) : Nat := if a < 256 then aesAt aesSubTab a else aesSub a
def aesSubInvT (a : Nat) : Nat := if a < 256 then aesAt aesSubInvTab a else aesSubInv a
def aesMulT (a b : Nat) : Nat := if a ||| (b >>> 4) < 16 then aesAt aesMulTab (256 * a + b) else aesMul a b

theorem aesSub_tab : ∀ a < 256, aesSub a = aesAt aesSubTab a := by decide +kernel
theorem aesSubInv_tab : ∀ a < 256, aesSubInv a = aesAt aesSubInvTab a := by decide +kernel
theorem aesMul_tab : ∀ a < 16, ∀ b < 256, aesMul a b = aesAt aesMulTab (256 * a + b) := by decide +kernel
theorem aesSub_eq : aesSub = aesSubT := by
  funext a; unfold aesSubT; split
  · exact aesSub_tab a ‹_›
  · rfl
theorem aesSubInv_eq : aesSubInv = aesSubInvT := by
  funext a; unfold aesSubInvT; split
  · exact aesSubInv_tab a ‹_›
  · rfl
theorem aesMul_eq : aesMul = aesMulT := by
  funext a b; unfold aesMulT
  split
  · rename_i h
    have ha : a < 16 := Nat.lt_of_le_of_lt Nat.left_le_or h
    have hb : b >>> 4 < 16 := Nat.lt_of_le_of_lt Nat.right_le_or h
    rw [Nat.shiftRight_eq_div_pow] at hb
    exact aesMul_tab a ha b (by omega)
  · rfl

/-- The functions of Aes.lean over the tables. -/
def aesNextWordT (ws : List (List Nat)) : List Nat :=
  let i := ws.length
  let t := ws.headD []
  let t := if i % 8 = 0 then
      xorBytes ((t.rotateLeft 1).map aesSubT) [(List.range (i / 8 - 1)).foldl (fun c _ => aesX c) 1, 0, 0, 0]
    else if i % 8 = 4 then t.map aesSubT else t
  xorBytes (ws.getD 7 []) t
def aesKeysT (key : List Nat) : List (List Nat) :=
  let first := (List.range 8).map fun i => (key.drop (4 * i)).take 4
  let ws := ((List.range 52).foldl (fun ws _ => aesNextWordT ws :: ws) first.reverse).reverse
  (List.range 15).map fun i => ((ws.drop (4 * i)).take 4).flatten
def aesMixT (row : List Nat) (st : List Nat) : List Nat :=
  (List.range 16).map fun i =>
    (List.range 4).foldl (fun acc j => acc ^^^ aesMulT (row.getD ((j + 4 - i % 4) % 4) 0) (st.getD (4 * (i / 4) + j) 0)) 0
def aesDecT (ks : List (List Nat)) (block : List Nat) : List Nat :=
  let k (i : Nat) : List Nat := ks.getD i []
  let st := (List.range 13).foldl (fun st i =>
    aesMixT [14, 11, 13, 9] (xorBytes ((aesUnshift st).map aesSubInvT) (k (13 - i)))) (xorBytes block (k 14))
  xorBytes ((aesUnshift st).map aesSubInvT) (k 0)
theorem aesDec_eq (key block : List Nat) : aesDec key block = aesDecT (aesKeysT key) block := by
  have h1 : aesNextWord = aesNextWordT := by funext ws; unfold aesNextWord aesNextWordT; rw [aesSub_eq]
  have h2 : aesKeys = aesKeysT := by funext k; unfold aesKeys aesKeysT; rw [h1]
  have h3 : aesMix = aesMixT := by funext r s; unfold aesMix aesMixT; rw [aesMul_eq]
  unfold aesDec aesDecT; rw [h2, h3, aesSubInv_eq]

def aesEncT (ks : List (List Nat)) (block : List Nat) : List Nat :=
  let k (i : Nat) : List Nat := ks.getD i []
  let st := (List.range 13).foldl (fun st i => xorBytes (aesMixT [2, 3, 1, 1] (aesShift (st.map aesSubT))) (k (i + 1))) (xorBytes block (k 0))
  xorBytes (aesShift (st.map aesSubT)) (k 14)
theorem aesEnc_eq (key block : List Nat) : aesEnc key block = aesEncT (aesKeysT key) block := by
  have h1 : aesNextWord = aesNextWordT := by funext ws; unfold aesNextWord aesNextWordT; rw [aesSub_eq]
  have h2 : aesKeys = aesKeysT := by funext k; unfold aesKeys aesKeysT; rw [h1]
  have h3 : aesMix = aesMixT := by funext r s; unfold aesMix aesMixT; rw [aesMul_eq]
  unfold aesEnc aesEncT; rw [h2, h3, aesSub_eq]
theorem xtsEnc_eq : xtsEnc = fun k1 k2 dusn line => BitVec.ofNat 512 (bytesNat ((List.range 4).map fun j =>
    let t := natBytes 16 ((List.range j).foldl (fun t _ => xtsAlpha t) (bytesNat (aesEncT (aesKeysT (natBytes 32 k2.toNat)) (natBytes 16 dusn))))
    xorBytes (aesEncT (aesKeysT (natBytes 32 k1.toNat)) (xorBytes (natBytes 16 (fieldOf line (128 * j) 128)) t)) t).flatten) := by
  funext k1 k2 d l; simp only [xtsEnc, xts, aesEnc_eq]
/-- Steps of the unwrap over the tables. -/
def kwSteps (n : Nat) (ks : List (List Nat)) (l : List Nat) (acc : List Nat × List (List Nat)) : List Nat × List (List Nat) :=
  l.foldl (fun (acc : List Nat × List (List Nat)) s =>
    let t := 6 * n - s
    let i := (t - 1) % n
    let b := aesDecT ks (xorBytes acc.1 (natBytes 8 t).reverse ++ acc.2.getD i [])
    (b.take 8, acc.2.set i (b.drop 8))) acc
theorem kwSteps_append (n : Nat) (ks : List (List Nat)) (l l' : List Nat) (acc : List Nat × List (List Nat)) :
    kwSteps n ks (l ++ l') acc = kwSteps n ks l' (kwSteps n ks l acc) := List.foldl_append
theorem kwUnwrap_eq (n : Nat) (kek : BitVec 256) (w : List Nat) : kwUnwrap n kek w =
    (let r := kwSteps n (aesKeysT (natBytes 32 kek.toNat)) (List.range (6 * n)) (w.take 8, (List.range n).map fun i => (w.drop (8 * (i + 1))).take 8)
     if r.1 = List.replicate 8 0xA6 then some r.2.flatten else none) := by
  simp only [kwUnwrap, kwSteps, aesDec_eq]
  rfl

end Sys2Proof.Machine
end

