-- ==== Sys2Proof/Laws/Ecc.lean ====
section
/-!
SUPPORT. The SECDED codes of R242, whatever their columns are (log 5): single errors are corrected, double errors detected.
-/
namespace Sys2Proof.Machine
set_option Elab.async false

/-- A syndrome of 0 is a correct word. -/
@[simp] theorem eccDecode_zero (n c data : Nat) : eccDecode n c data 0 = .clean := by simp [eccDecode]

/-- An error of a check bit leaves the data. -/
theorem eccDecode_check (n c data p : Nat) (h : p < c) : eccDecode n c data (2 ^ p) = .corrected data := by
  have h1 : ((List.range c).any fun q => 2 ^ p == 2 ^ q) = true := by simp only [List.any_eq_true, List.mem_range]; exact ⟨p, h, by simp⟩
  simp [eccDecode, h1]

theorem oddWeight_xor (c a b : Nat) : oddWeight c (a ^^^ b) = (oddWeight c a ^^ oddWeight c b) := by
  unfold oddWeight
  have key : ∀ (l : List Nat) (x y : Bool), l.foldl (fun b' p => b' ^^ (a ^^^ b).testBit p) (x ^^ y) =
      (l.foldl (fun b' p => b' ^^ a.testBit p) x ^^ l.foldl (fun b' p => b' ^^ b.testBit p) y) := by
    intro l
    induction l with
    | nil => intro x y; rfl
    | cons p l ih =>
      intro x y
      simp only [List.foldl_cons, Nat.testBit_xor]
      rw [show ((x ^^ y) ^^ (a.testBit p ^^ b.testBit p)) = ((x ^^ a.testBit p) ^^ (y ^^ b.testBit p)) by
        cases x <;> cases y <;> cases a.testBit p <;> cases b.testBit p <;> rfl]
      simpa only [Nat.testBit_xor] using ih (x ^^ a.testBit p) (y ^^ b.testBit p)
  simpa using key (List.range c) false false

/-- Distinct points of odd weight are a code. -/
theorem secdedOk_of_odd (n c : Nat) (cols : List Nat) (hl : cols.length = n) (hn : (secdedPoints c cols).Nodup)
    (hb : ∀ a ∈ secdedPoints c cols, a < 2 ^ c ∧ oddWeight c a = true) : SecdedOk n c cols := by
  have hz : oddWeight c 0 = false := by
    unfold oddWeight
    have : ∀ l : List Nat, l.foldl (fun b p => b ^^ (0 : Nat).testBit p) false = false := by
      intro l; induction l with
      | nil => rfl
      | cons p l ih => simp
    exact this _
  refine ⟨hl, hn, fun a ha => ⟨?_, (hb a ha).1⟩, fun a ha b hb' _ hm => ?_⟩
  · rcases Nat.eq_zero_or_pos a with h | h
    · have := (hb a ha).2; rw [h, hz] at this; cases this
    · exact h
  · have h1 := (hb _ hm).2
    rw [oddWeight_xor, (hb a ha).2, (hb b hb').2] at h1; cases h1

/-- The sizes of Table 10.1 have enough columns. -/
def secdedSizes : List (Nat × Nat) := [(36, 7), (64, 8), (128, 9), (480, 10), (40, 7), (32, 7), (256, 10)]

theorem secdedSome_ok (n c : Nat) (h : (n, c) ∈ secdedSizes) : SecdedOk n c (secdedSome n c) := by
  have hu : ∀ c ∈ [7, 8, 9, 10], ∀ p < c, oddWeight c (2 ^ p) = true := by decide +kernel
  have hlen : ∀ q ∈ secdedSizes, (secdedSome q.1 q.2).length = q.1 := by decide +kernel
  have hc : c ∈ [7, 8, 9, 10] := by
    simp only [secdedSizes, List.mem_cons, Prod.mk.injEq, List.not_mem_nil, or_false] at h
    rcases h with h | h | h | h | h | h | h <;> simp [h.2]
  have hsub : ∀ x ∈ secdedSome n c, x ∈ (List.range (2 ^ c)).filter fun x => oddWeight c x && !((List.range c).map (2 ^ ·)).contains x :=
    fun x hx => List.mem_of_mem_take hx
  apply secdedOk_of_odd n c _ (hlen (n, c) h)
  · unfold secdedPoints
    rw [List.nodup_append]
    refine ⟨?_, ?_, ?_⟩
    · exact List.Nodup.map (fun a b h => Nat.pow_right_injective (le_refl 2) h) List.nodup_range
    · exact (List.nodup_range.filter _).sublist (List.take_sublist _ _)
    · intro a ha b hb hab
      have := hsub b hb
      simp only [List.mem_filter, Bool.and_eq_true, Bool.not_eq_true', List.contains_eq_mem, decide_eq_false_iff_not] at this
      exact this.2.2 (hab ▸ ha)
  · intro a ha
    unfold secdedPoints at ha
    rcases List.mem_append.1 ha with ha | ha
    · obtain ⟨p, hp, rfl⟩ := List.mem_map.1 ha
      have hp' := List.mem_range.1 hp
      exact ⟨Nat.pow_lt_pow_right (by decide) hp', hu c hc p hp'⟩
    · have := hsub a ha
      simp only [List.mem_filter, List.mem_range, Bool.and_eq_true] at this
      exact ⟨this.1, this.2.1⟩

/-- The columns of each code of Table 10.1 correct single errors and detect double ones. -/
theorem secdedCols_ok (n c : Nat) (h : (n, c) ∈ secdedSizes) : SecdedOk n c (secdedCols n c) := by
  unfold secdedCols
  simp only
  split
  · assumption
  · exact secdedSome_ok n c h

/-- An error of a data bit is corrected. -/
theorem eccDecode_data (n c data j : Nat) (h : (n, c) ∈ secdedSizes) (hj : j < n) :
    eccDecode n c data ((secdedCols n c).getD j 0) = .corrected (data ^^^ 2 ^ j) := by
  obtain ⟨hl, hn, hp, -⟩ := secdedCols_ok n c h
  have hj' : j < (secdedCols n c).length := by omega
  have hget : (secdedCols n c).getD j 0 = (secdedCols n c)[j] := List.getD_eq_getElem _ _ hj'
  have hmem : (secdedCols n c)[j] ∈ secdedPoints c (secdedCols n c) := List.mem_append_right _ (List.getElem_mem hj')
  have h0 := (hp _ hmem).1
  unfold secdedPoints at hn
  rw [List.nodup_append] at hn
  have hany : ((List.range c).any fun p => (secdedCols n c)[j] == 2 ^ p) = false := by
    simp only [List.any_eq_false, List.mem_range, beq_iff_eq]
    intro p hp' he
    exact hn.2.2 (2 ^ p) (List.mem_map.2 ⟨p, List.mem_range.2 hp', rfl⟩) _ (List.getElem_mem hj') he.symm
  have hfind : (secdedCols n c).findIdx? (· == (secdedCols n c)[j]) = some j := by
    rw [List.findIdx?_eq_some_iff_getElem]
    refine ⟨hj', by simp, fun i hi => ?_⟩
    have : (secdedCols n c)[i] ≠ (secdedCols n c)[j] := fun he => by
      have := (List.Nodup.getElem_inj_iff hn.2.1).1 he
      omega
    simpa using this
  rw [hget]
  unfold eccDecode
  simp only [hany, hfind, if_neg (Nat.pos_iff_ne_zero.1 h0)]
  rfl

/-- Two errors are detected. -/
theorem eccDecode_double (n c data a b : Nat) (h : (n, c) ∈ secdedSizes) (ha : a ∈ secdedPoints c (secdedCols n c))
    (hb : b ∈ secdedPoints c (secdedCols n c)) (hab : a ≠ b) : eccDecode n c data (a ^^^ b) = .uncorrectable := by
  obtain ⟨-, -, -, hd⟩ := secdedCols_ok n c h
  have hm := hd a ha b hb hab
  have h0 : a ^^^ b ≠ 0 := fun he => hab (Nat.xor_eq_zero_iff.1 he)
  unfold secdedPoints at hm
  rw [List.mem_append, not_or] at hm
  have hany : ((List.range c).any fun p => a ^^^ b == 2 ^ p) = false := by
    simp only [List.any_eq_false, List.mem_range, beq_iff_eq]
    intro p hp he
    exact hm.1 (List.mem_map.2 ⟨p, List.mem_range.2 hp, he.symm⟩)
  have hfind : (secdedCols n c).findIdx? (· == a ^^^ b) = none := by
    rw [List.findIdx?_eq_none_iff]
    intro x hx
    simp only [beq_eq_false_iff_ne]
    intro he
    exact hm.2 (he ▸ hx)
  unfold eccDecode
  simp [h0, hany, hfind]

/-- The columns of a Reed-Solomon code correct every error of one symbol. -/
theorem rsSome_ok (n : Nat) (h : n = 4 ∨ n = 8) : RsOk n (rsSome n) := by
  have h1 : ∀ n ∈ [4, 8], ∀ k < n, ∀ e < 256, e ≠ 0 → rsSyn n (rsSome n) k e % 256 = e ∧ 256 ≤ rsSyn n (rsSome n) k e ∧ rsSyn n (rsSome n) k e < 65536 := by
    decide +kernel
  have h2 : ∀ n ∈ [4, 8], ∀ k < n, ∀ j < k, ∀ e < 256, e ≠ 0 → rsSyn n (rsSome n) k e ≠ rsSyn n (rsSome n) j e := by decide +kernel
  have hn : n ∈ [4, 8] := by rcases h with rfl | rfl <;> decide
  have hm : ∀ x ∈ rsErrors n, x.1 < n + 2 ∧ 0 < x.2 ∧ x.2 < 256 := by
    intro x hx
    simp only [rsErrors, List.mem_flatMap, List.mem_range, List.mem_map] at hx
    obtain ⟨k, hk, e, he, rfl⟩ := hx
    exact ⟨hk, by omega, by omega⟩
  have hv : ∀ k e, n ≤ k → k < n + 2 → rsSyn n (rsSome n) k e = if k = n then e else 256 * e := by
    intro k e hk hk'
    rcases (show k = n ∨ k = n + 1 by omega) with rfl | rfl
    · simp [rsSyn]
    · simp [rsSyn]; omega
  refine ⟨by simp [rsSome], ?_, fun x hx => ?_⟩
  · apply List.Nodup.map_on
    · intro x hx y hy he
      obtain ⟨hx1, hx2, hx3⟩ := hm x hx
      obtain ⟨hy1, hy2, hy3⟩ := hm y hy
      obtain ⟨k, e⟩ := x
      obtain ⟨k', e'⟩ := y
      simp only at *
      rcases Nat.lt_or_ge k n with hk | hk <;> rcases Nat.lt_or_ge k' n with hk' | hk'
      · obtain ⟨a1, -, -⟩ := h1 n hn k hk e hx3 (by omega)
        obtain ⟨b1, -, -⟩ := h1 n hn k' hk' e' hy3 (by omega)
        have hee : e = e' := by rw [← a1, ← b1, he]
        subst hee
        rcases Nat.lt_trichotomy k k' with h | h | h
        · exact absurd he.symm (h2 n hn k' hk' k h e hx3 (by omega))
        · rw [h]
        · exact absurd he (h2 n hn k hk k' h e hx3 (by omega))
      · obtain ⟨a1, a2, -⟩ := h1 n hn k hk e hx3 (by omega)
        rw [hv k' e' hk' hy1] at he
        split at he <;> omega
      · obtain ⟨a1, a2, -⟩ := h1 n hn k' hk' e' hy3 (by omega)
        rw [hv k e hk hx1] at he
        split at he <;> omega
      · rw [hv k e hk hx1, hv k' e' hk' hy1] at he
        have : k = k' ∧ e = e' := by split at he <;> split at he <;> omega
        rw [this.1, this.2]
    · unfold rsErrors
      rw [List.nodup_flatMap]
      refine ⟨fun k _ => List.Nodup.map (fun a b h => by simpa using h) List.nodup_range, ?_⟩
      refine List.Pairwise.imp ?_ (List.nodup_range (n := n + 2))
      intro a b hab
      simp only [Function.onFun, List.disjoint_left, List.mem_map, not_exists, not_and]
      rintro _ ⟨e, -, rfl⟩ e' - he
      exact hab (by simpa using congrArg Prod.fst he.symm)
  · obtain ⟨h3, h4, h5⟩ := hm x hx
    rcases Nat.lt_or_ge x.1 n with hk | hk
    · obtain ⟨-, a2, a3⟩ := h1 n hn x.1 hk x.2 h5 (by omega)
      omega
    · rw [hv x.1 x.2 hk h3]; split <;> omega

theorem rsCols_ok (hbm : Bool) : RsOk (rsBytes hbm) (rsCols hbm) := by
  unfold rsCols
  simp only
  split
  · assumption
  · exact rsSome_ok _ (by cases hbm <;> simp [rsBytes])

/-- An error of one symbol is named by its syndrome. -/
theorem rsCorrect_one (hbm : Bool) (k e : Nat) (hk : k < rsBytes hbm + 2) (he : 0 < e) (he' : e < 256) :
    rsCorrect hbm (rsSyn (rsBytes hbm) (rsCols hbm) k e) = some (k, e) := by
  obtain ⟨-, hn, -⟩ := rsCols_ok hbm
  have hm : (k, e) ∈ rsErrors (rsBytes hbm) := by
    simp only [rsErrors, List.mem_flatMap, List.mem_range, List.mem_map]
    exact ⟨k, hk, e - 1, by omega, by simp; omega⟩
  unfold rsCorrect
  cases hf : (rsErrors (rsBytes hbm)).find? fun x => rsSyn (rsBytes hbm) (rsCols hbm) x.1 x.2 == rsSyn (rsBytes hbm) (rsCols hbm) k e with
  | none =>
    have := List.find?_eq_none.1 hf _ hm
    simp at this
  | some x =>
    have h1 := List.mem_of_find?_eq_some hf
    have h2 : rsSyn (rsBytes hbm) (rsCols hbm) x.1 x.2 = rsSyn (rsBytes hbm) (rsCols hbm) k e := by simpa using List.find?_some hf
    rw [List.inj_on_of_nodup_map hn h1 hm h2]

/-- The errors of check bits 0 and 1 together are detected. -/
theorem eccDecode_three (n c data : Nat) (h : (n, c) ∈ secdedSizes) : eccDecode n c data 3 = .uncorrectable := by
  have hc : 2 ≤ c := by
    simp only [secdedSizes, List.mem_cons, Prod.mk.injEq, List.not_mem_nil, or_false] at h
    omega
  have hp : ∀ p < c, 2 ^ p ∈ secdedPoints c (secdedCols n c) :=
    fun p hp => List.mem_append_left _ (List.mem_map.2 ⟨p, List.mem_range.2 hp, rfl⟩)
  exact eccDecode_double n c data 1 2 h (hp 0 (by omega)) (hp 1 (by omega)) (by decide)

end Sys2Proof.Machine
end

