-- ==== Sys2Proof/Laws/Map.lean ====
section
/-!
SUPPORT. Laws of the finite maps: read after write, and that every operation keeps the canonical form.
-/
namespace Sys2Proof.Machine

variable {α : Type}

@[simp] theorem mget_mput_self (m : KMap α) (i : Nat) (v : α) : mget (mput m i v) i = some v := by
  induction m with
  | nil => simp [mput, mget]
  | cons e m ih =>
    obtain ⟨k, w⟩ := e
    by_cases h : i < k
    · simp [mput, mget, h]
    · by_cases h2 : k = i
      · simp [mput, mget, h2]
      · simp [mput, mget, h, h2, ih]

theorem mget_mput_ne (m : KMap α) {i j : Nat} (v : α) (h : j ≠ i) : mget (mput m i v) j = mget m j := by
  induction m with
  | nil => simp [mput, mget, Ne.symm h]
  | cons e m ih =>
    obtain ⟨k, w⟩ := e
    by_cases h1 : i < k
    · simp [mput, mget, h1, Ne.symm h]
    · by_cases h2 : k = i
      · subst h2; simp [mput, mget, Ne.symm h]
      · simp [mput, mget, h1, h2, ih]

theorem mget_mput (m : KMap α) (i j : Nat) (v : α) : mget (mput m i v) j = if j = i then some v else mget m j := by
  split
  · next h => subst h; simp
  · next h => exact mget_mput_ne m v h

@[simp] theorem mget_mdel_self (m : KMap α) (i : Nat) : mget (mdel m i) i = none := by
  induction m with
  | nil => rfl
  | cons e m ih =>
    obtain ⟨k, w⟩ := e
    by_cases h : k = i <;> simp [mdel, mget, h, ih]

theorem mget_mdel_ne (m : KMap α) {i j : Nat} (h : j ≠ i) : mget (mdel m i) j = mget m j := by
  induction m with
  | nil => rfl
  | cons e m ih =>
    obtain ⟨k, w⟩ := e
    by_cases h2 : k = i
    · subst h2; simp [mdel, mget, Ne.symm h, ih]
    · simp [mdel, mget, h2, ih]

/-- Reading a memory cell after writing one. -/
theorem mgetD_mputD [DecidableEq α] (d : α) (m : KMap α) (i j : Nat) (v : α) :
    mgetD d (mputD d m i v) j = if j = i then v else mgetD d m j := by
  unfold mgetD mputD
  by_cases hv : v = d
  · subst hv
    by_cases h : j = i
    · subst h; simp
    · simp [h, mget_mdel_ne m h]
  · simp only [hv, if_false, mget_mput]
    split <;> simp

theorem mput_mem (m : KMap α) (i : Nat) (v : α) : ∀ e ∈ mput m i v, e = (i, v) ∨ e ∈ m := by
  induction m with
  | nil => simp [mput]
  | cons a m ih =>
    obtain ⟨k, w⟩ := a
    intro e he
    unfold mput at he
    split at he
    · simpa using he
    · split at he
      · rcases List.mem_cons.1 he with h | h
        · exact .inl h
        · exact .inr (List.mem_cons_of_mem _ h)
      · rcases List.mem_cons.1 he with h | h
        · exact .inr (h ▸ List.mem_cons_self ..)
        · rcases ih e h with h | h
          · exact .inl h
          · exact .inr (List.mem_cons_of_mem _ h)

theorem mdel_sublist (m : KMap α) (i : Nat) : (mdel m i).Sublist m := by
  induction m with
  | nil => exact .slnil
  | cons a m ih =>
    obtain ⟨k, w⟩ := a
    unfold mdel
    split
    · exact ih.cons _
    · exact ih.cons_cons _

/-- A write keeps the keys in order. -/
theorem mput_sorted {m : KMap α} (h : KMap.sorted m) (i : Nat) (v : α) : KMap.sorted (mput m i v) := by
  induction m with
  | nil => simp [mput, KMap.sorted]
  | cons a m ih =>
    obtain ⟨k, w⟩ := a
    obtain ⟨h1, h2⟩ := List.pairwise_cons.1 h
    unfold mput
    split
    · next hi => exact List.pairwise_cons.2 ⟨fun e he => by
        rcases List.mem_cons.1 he with rfl | he
        · exact hi
        · exact Nat.lt_trans hi (h1 e he), h⟩
    · split
      · next hk => subst hk; exact List.pairwise_cons.2 ⟨fun e he => h1 e he, h2⟩
      · next hi hk =>
        refine List.pairwise_cons.2 ⟨fun e he => ?_, ih h2⟩
        rcases mput_mem m i v e he with rfl | he
        · show k < i; omega
        · exact h1 e he

/-- Removing a key keeps the keys in order. -/
theorem mdel_sorted {m : KMap α} (h : KMap.sorted m) (i : Nat) : KMap.sorted (mdel m i) := h.sublist (mdel_sublist m i)

/-- So does keeping some of the entries. -/
theorem mkeep_sorted {m : KMap α} (h : KMap.sorted m) (p : Nat → Bool) : KMap.sorted (mkeep p m) := h.sublist List.filter_sublist

/-- And changing the values. -/
theorem mmap_sorted {m : KMap α} (h : KMap.sorted m) (f : Nat → α → α) : KMap.sorted (mmap f m) := by
  unfold KMap.sorted mmap
  exact List.pairwise_map.2 h

/-- A memory write keeps the canonical form. -/
theorem mputD_wf [DecidableEq α] {d : α} {m : KMap α} (h : KMap.wf d m) (i : Nat) (v : α) : KMap.wf d (mputD d m i v) := by
  unfold mputD
  split
  · exact ⟨mdel_sorted h.1 i, fun e he => h.2 e ((mdel_sublist m i).subset he)⟩
  · next hv =>
    refine ⟨mput_sorted h.1 i v, fun e he => ?_⟩
    rcases mput_mem m i v e he with rfl | he
    · exact hv
    · exact h.2 e he

/-- The empty memory has the canonical form. -/
theorem nil_wf [DecidableEq α] (d : α) : KMap.wf d ([] : KMap α) := ⟨.nil, fun _ h => nomatch h⟩

end Sys2Proof.Machine
end

