-- ==== Sys2Proof/Laws/State.lean ====
section
/-!
SUPPORT. What each named update of the state leaves alone: one lemma per field and update.
-/
namespace Sys2Proof.Machine

variable (s : State)

/-! ### setReg -/

@[simp] theorem State.setReg_pending (pg off : Nat) (v : Word) : (s.setReg pg off v).pending = s.pending := rfl
@[simp] theorem State.setReg_ns (pg off : Nat) (v : Word) : (s.setReg pg off v).ns = s.ns := rfl
@[simp] theorem State.setReg_free (pg off : Nat) (v : Word) : (s.setReg pg off v).free = s.free := rfl
@[simp] theorem State.setReg_partId (pg off : Nat) (v : Word) : (s.setReg pg off v).partId = s.partId := rfl
@[simp] theorem State.setReg_serialNo (pg off : Nat) (v : Word) : (s.setReg pg off v).serialNo = s.serialNo := rfl
@[simp] theorem State.setReg_fuses (pg off : Nat) (v : Word) : (s.setReg pg off v).fuses = s.fuses := rfl
@[simp] theorem State.setReg_out (pg off : Nat) (v : Word) : (s.setReg pg off v).out = s.out := rfl
@[simp] theorem State.setReg_hiRec (pg off : Nat) (v : Word) : (s.setReg pg off v).hiRec = s.hiRec := rfl
@[simp] theorem State.setReg_design (pg off : Nat) (v : Word) : (s.setReg pg off v).design = s.design := rfl
@[simp] theorem State.setReg_fab (pg off : Nat) (v : Word) : (s.setReg pg off v).fab = s.fab := rfl
@[simp] theorem State.setReg_integ (pg off : Nat) (v : Word) : (s.setReg pg off v).integ = s.integ := rfl
@[simp] theorem State.setReg_engs (pg off : Nat) (v : Word) : (s.setReg pg off v).engs = s.engs := rfl
@[simp] theorem State.setReg_rings (pg off : Nat) (v : Word) : (s.setReg pg off v).rings = s.rings := rfl
@[simp] theorem State.setReg_coh (pg off : Nat) (v : Word) : (s.setReg pg off v).coh = s.coh := rfl
@[simp] theorem State.setReg_dram (pg off : Nat) (v : Word) : (s.setReg pg off v).dram = s.dram := rfl
@[simp] theorem State.setReg_keys (pg off : Nat) (v : Word) : (s.setReg pg off v).keys = s.keys := rfl
@[simp] theorem State.setReg_chk (pg off : Nat) (v : Word) : (s.setReg pg off v).chk = s.chk := rfl
@[simp] theorem State.setReg_mbx (pg off : Nat) (v : Word) : (s.setReg pg off v).mbx = s.mbx := rfl
@[simp] theorem State.setReg_wicks (pg off : Nat) (v : Word) : (s.setReg pg off v).wicks = s.wicks := rfl
@[simp] theorem State.setReg_uci (pg off : Nat) (v : Word) : (s.setReg pg off v).uci = s.uci := rfl
@[simp] theorem State.setReg_lanes (pg off : Nat) (v : Word) : (s.setReg pg off v).lanes = s.lanes := rfl
@[simp] theorem State.setReg_laneGroups (pg off : Nat) (v : Word) : (s.setReg pg off v).laneGroups = s.laneGroups := rfl
@[simp] theorem State.setReg_tq (pg off : Nat) (v : Word) : (s.setReg pg off v).tq = s.tq := rfl
@[simp] theorem State.setReg_fns (pg off : Nat) (v : Word) : (s.setReg pg off v).fns = s.fns := rfl
@[simp] theorem State.setReg_msixPend (pg off : Nat) (v : Word) : (s.setReg pg off v).msixPend = s.msixPend := rfl
@[simp] theorem State.setReg_alarms (pg off : Nat) (v : Word) : (s.setReg pg off v).alarms = s.alarms := rfl
@[simp] theorem State.setReg_levelAlarms (pg off : Nat) (v : Word) : (s.setReg pg off v).levelAlarms = s.levelAlarms := rfl
@[simp] theorem State.setReg_clk (pg off : Nat) (v : Word) : (s.setReg pg off v).clk = s.clk := rfl
@[simp] theorem State.setReg_nv (pg off : Nat) (v : Word) : (s.setReg pg off v).nv = s.nv := rfl
@[simp] theorem State.setReg_boot (pg off : Nat) (v : Word) : (s.setReg pg off v).boot = s.boot := rfl
@[simp] theorem State.setReg_pwr (pg off : Nat) (v : Word) : (s.setReg pg off v).pwr = s.pwr := rfl
@[simp] theorem State.setReg_ember (pg off : Nat) (v : Word) : (s.setReg pg off v).ember = s.ember := rfl
@[simp] theorem State.setReg_pairs (pg off : Nat) (v : Word) : (s.setReg pg off v).pairs = s.pairs := rfl
@[simp] theorem State.setReg_mgmt (pg off : Nat) (v : Word) : (s.setReg pg off v).mgmt = s.mgmt := rfl
@[simp] theorem State.setReg_bist (pg off : Nat) (v : Word) : (s.setReg pg off v).bist = s.bist := rfl
@[simp] theorem State.setReg_host (pg off : Nat) (v : Word) : (s.setReg pg off v).host = s.host := rfl

/-! ### setFld -/

@[simp] theorem State.setFld_pending (pg : Nat) (f : Fld) (n : Nat) : (s.setFld pg f n).pending = s.pending := rfl
@[simp] theorem State.setFld_ns (pg : Nat) (f : Fld) (n : Nat) : (s.setFld pg f n).ns = s.ns := rfl
@[simp] theorem State.setFld_free (pg : Nat) (f : Fld) (n : Nat) : (s.setFld pg f n).free = s.free := rfl
@[simp] theorem State.setFld_partId (pg : Nat) (f : Fld) (n : Nat) : (s.setFld pg f n).partId = s.partId := rfl
@[simp] theorem State.setFld_serialNo (pg : Nat) (f : Fld) (n : Nat) : (s.setFld pg f n).serialNo = s.serialNo := rfl
@[simp] theorem State.setFld_fuses (pg : Nat) (f : Fld) (n : Nat) : (s.setFld pg f n).fuses = s.fuses := rfl
@[simp] theorem State.setFld_out (pg : Nat) (f : Fld) (n : Nat) : (s.setFld pg f n).out = s.out := rfl
@[simp] theorem State.setFld_hiRec (pg : Nat) (f : Fld) (n : Nat) : (s.setFld pg f n).hiRec = s.hiRec := rfl
@[simp] theorem State.setFld_design (pg : Nat) (f : Fld) (n : Nat) : (s.setFld pg f n).design = s.design := rfl
@[simp] theorem State.setFld_fab (pg : Nat) (f : Fld) (n : Nat) : (s.setFld pg f n).fab = s.fab := rfl
@[simp] theorem State.setFld_integ (pg : Nat) (f : Fld) (n : Nat) : (s.setFld pg f n).integ = s.integ := rfl
@[simp] theorem State.setFld_engs (pg : Nat) (f : Fld) (n : Nat) : (s.setFld pg f n).engs = s.engs := rfl
@[simp] theorem State.setFld_rings (pg : Nat) (f : Fld) (n : Nat) : (s.setFld pg f n).rings = s.rings := rfl
@[simp] theorem State.setFld_coh (pg : Nat) (f : Fld) (n : Nat) : (s.setFld pg f n).coh = s.coh := rfl
@[simp] theorem State.setFld_dram (pg : Nat) (f : Fld) (n : Nat) : (s.setFld pg f n).dram = s.dram := rfl
@[simp] theorem State.setFld_keys (pg : Nat) (f : Fld) (n : Nat) : (s.setFld pg f n).keys = s.keys := rfl
@[simp] theorem State.setFld_chk (pg : Nat) (f : Fld) (n : Nat) : (s.setFld pg f n).chk = s.chk := rfl
@[simp] theorem State.setFld_mbx (pg : Nat) (f : Fld) (n : Nat) : (s.setFld pg f n).mbx = s.mbx := rfl
@[simp] theorem State.setFld_wicks (pg : Nat) (f : Fld) (n : Nat) : (s.setFld pg f n).wicks = s.wicks := rfl
@[simp] theorem State.setFld_uci (pg : Nat) (f : Fld) (n : Nat) : (s.setFld pg f n).uci = s.uci := rfl
@[simp] theorem State.setFld_lanes (pg : Nat) (f : Fld) (n : Nat) : (s.setFld pg f n).lanes = s.lanes := rfl
@[simp] theorem State.setFld_laneGroups (pg : Nat) (f : Fld) (n : Nat) : (s.setFld pg f n).laneGroups = s.laneGroups := rfl
@[simp] theorem State.setFld_tq (pg : Nat) (f : Fld) (n : Nat) : (s.setFld pg f n).tq = s.tq := rfl
@[simp] theorem State.setFld_fns (pg : Nat) (f : Fld) (n : Nat) : (s.setFld pg f n).fns = s.fns := rfl
@[simp] theorem State.setFld_msixPend (pg : Nat) (f : Fld) (n : Nat) : (s.setFld pg f n).msixPend = s.msixPend := rfl
@[simp] theorem State.setFld_alarms (pg : Nat) (f : Fld) (n : Nat) : (s.setFld pg f n).alarms = s.alarms := rfl
@[simp] theorem State.setFld_levelAlarms (pg : Nat) (f : Fld) (n : Nat) : (s.setFld pg f n).levelAlarms = s.levelAlarms := rfl
@[simp] theorem State.setFld_clk (pg : Nat) (f : Fld) (n : Nat) : (s.setFld pg f n).clk = s.clk := rfl
@[simp] theorem State.setFld_nv (pg : Nat) (f : Fld) (n : Nat) : (s.setFld pg f n).nv = s.nv := rfl
@[simp] theorem State.setFld_boot (pg : Nat) (f : Fld) (n : Nat) : (s.setFld pg f n).boot = s.boot := rfl
@[simp] theorem State.setFld_pwr (pg : Nat) (f : Fld) (n : Nat) : (s.setFld pg f n).pwr = s.pwr := rfl
@[simp] theorem State.setFld_ember (pg : Nat) (f : Fld) (n : Nat) : (s.setFld pg f n).ember = s.ember := rfl
@[simp] theorem State.setFld_pairs (pg : Nat) (f : Fld) (n : Nat) : (s.setFld pg f n).pairs = s.pairs := rfl
@[simp] theorem State.setFld_mgmt (pg : Nat) (f : Fld) (n : Nat) : (s.setFld pg f n).mgmt = s.mgmt := rfl
@[simp] theorem State.setFld_bist (pg : Nat) (f : Fld) (n : Nat) : (s.setFld pg f n).bist = s.bist := rfl
@[simp] theorem State.setFld_host (pg : Nat) (f : Fld) (n : Nat) : (s.setFld pg f n).host = s.host := rfl

/-! ### setFn -/

@[simp] theorem State.setFn_pending (f : Nat) (v : HostFn) : (s.setFn f v).pending = s.pending := rfl
@[simp] theorem State.setFn_ns (f : Nat) (v : HostFn) : (s.setFn f v).ns = s.ns := rfl
@[simp] theorem State.setFn_free (f : Nat) (v : HostFn) : (s.setFn f v).free = s.free := rfl
@[simp] theorem State.setFn_partId (f : Nat) (v : HostFn) : (s.setFn f v).partId = s.partId := rfl
@[simp] theorem State.setFn_serialNo (f : Nat) (v : HostFn) : (s.setFn f v).serialNo = s.serialNo := rfl
@[simp] theorem State.setFn_fuses (f : Nat) (v : HostFn) : (s.setFn f v).fuses = s.fuses := rfl
@[simp] theorem State.setFn_out (f : Nat) (v : HostFn) : (s.setFn f v).out = s.out := rfl
@[simp] theorem State.setFn_regs (f : Nat) (v : HostFn) : (s.setFn f v).regs = s.regs := rfl
@[simp] theorem State.setFn_hiRec (f : Nat) (v : HostFn) : (s.setFn f v).hiRec = s.hiRec := rfl
@[simp] theorem State.setFn_design (f : Nat) (v : HostFn) : (s.setFn f v).design = s.design := rfl
@[simp] theorem State.setFn_fab (f : Nat) (v : HostFn) : (s.setFn f v).fab = s.fab := rfl
@[simp] theorem State.setFn_integ (f : Nat) (v : HostFn) : (s.setFn f v).integ = s.integ := rfl
@[simp] theorem State.setFn_engs (f : Nat) (v : HostFn) : (s.setFn f v).engs = s.engs := rfl
@[simp] theorem State.setFn_rings (f : Nat) (v : HostFn) : (s.setFn f v).rings = s.rings := rfl
@[simp] theorem State.setFn_coh (f : Nat) (v : HostFn) : (s.setFn f v).coh = s.coh := rfl
@[simp] theorem State.setFn_dram (f : Nat) (v : HostFn) : (s.setFn f v).dram = s.dram := rfl
@[simp] theorem State.setFn_keys (f : Nat) (v : HostFn) : (s.setFn f v).keys = s.keys := rfl
@[simp] theorem State.setFn_chk (f : Nat) (v : HostFn) : (s.setFn f v).chk = s.chk := rfl
@[simp] theorem State.setFn_mbx (f : Nat) (v : HostFn) : (s.setFn f v).mbx = s.mbx := rfl
@[simp] theorem State.setFn_wicks (f : Nat) (v : HostFn) : (s.setFn f v).wicks = s.wicks := rfl
@[simp] theorem State.setFn_uci (f : Nat) (v : HostFn) : (s.setFn f v).uci = s.uci := rfl
@[simp] theorem State.setFn_lanes (f : Nat) (v : HostFn) : (s.setFn f v).lanes = s.lanes := rfl
@[simp] theorem State.setFn_laneGroups (f : Nat) (v : HostFn) : (s.setFn f v).laneGroups = s.laneGroups := rfl
@[simp] theorem State.setFn_tq (f : Nat) (v : HostFn) : (s.setFn f v).tq = s.tq := rfl
@[simp] theorem State.setFn_msixPend (f : Nat) (v : HostFn) : (s.setFn f v).msixPend = s.msixPend := rfl
@[simp] theorem State.setFn_alarms (f : Nat) (v : HostFn) : (s.setFn f v).alarms = s.alarms := rfl
@[simp] theorem State.setFn_levelAlarms (f : Nat) (v : HostFn) : (s.setFn f v).levelAlarms = s.levelAlarms := rfl
@[simp] theorem State.setFn_clk (f : Nat) (v : HostFn) : (s.setFn f v).clk = s.clk := rfl
@[simp] theorem State.setFn_nv (f : Nat) (v : HostFn) : (s.setFn f v).nv = s.nv := rfl
@[simp] theorem State.setFn_boot (f : Nat) (v : HostFn) : (s.setFn f v).boot = s.boot := rfl
@[simp] theorem State.setFn_pwr (f : Nat) (v : HostFn) : (s.setFn f v).pwr = s.pwr := rfl
@[simp] theorem State.setFn_ember (f : Nat) (v : HostFn) : (s.setFn f v).ember = s.ember := rfl
@[simp] theorem State.setFn_pairs (f : Nat) (v : HostFn) : (s.setFn f v).pairs = s.pairs := rfl
@[simp] theorem State.setFn_mgmt (f : Nat) (v : HostFn) : (s.setFn f v).mgmt = s.mgmt := rfl
@[simp] theorem State.setFn_bist (f : Nat) (v : HostFn) : (s.setFn f v).bist = s.bist := rfl
@[simp] theorem State.setFn_host (f : Nat) (v : HostFn) : (s.setFn f v).host = s.host := rfl

/-! ### useFree -/

@[simp] theorem State.useFree_pending : (s.useFree).pending = s.pending := rfl
@[simp] theorem State.useFree_ns : (s.useFree).ns = s.ns := rfl
@[simp] theorem State.useFree_partId : (s.useFree).partId = s.partId := rfl
@[simp] theorem State.useFree_serialNo : (s.useFree).serialNo = s.serialNo := rfl
@[simp] theorem State.useFree_fuses : (s.useFree).fuses = s.fuses := rfl
@[simp] theorem State.useFree_out : (s.useFree).out = s.out := rfl
@[simp] theorem State.useFree_regs : (s.useFree).regs = s.regs := rfl
@[simp] theorem State.useFree_hiRec : (s.useFree).hiRec = s.hiRec := rfl
@[simp] theorem State.useFree_design : (s.useFree).design = s.design := rfl
@[simp] theorem State.useFree_fab : (s.useFree).fab = s.fab := rfl
@[simp] theorem State.useFree_integ : (s.useFree).integ = s.integ := rfl
@[simp] theorem State.useFree_engs : (s.useFree).engs = s.engs := rfl
@[simp] theorem State.useFree_rings : (s.useFree).rings = s.rings := rfl
@[simp] theorem State.useFree_coh : (s.useFree).coh = s.coh := rfl
@[simp] theorem State.useFree_dram : (s.useFree).dram = s.dram := rfl
@[simp] theorem State.useFree_keys : (s.useFree).keys = s.keys := rfl
@[simp] theorem State.useFree_chk : (s.useFree).chk = s.chk := rfl
@[simp] theorem State.useFree_mbx : (s.useFree).mbx = s.mbx := rfl
@[simp] theorem State.useFree_wicks : (s.useFree).wicks = s.wicks := rfl
@[simp] theorem State.useFree_uci : (s.useFree).uci = s.uci := rfl
@[simp] theorem State.useFree_lanes : (s.useFree).lanes = s.lanes := rfl
@[simp] theorem State.useFree_laneGroups : (s.useFree).laneGroups = s.laneGroups := rfl
@[simp] theorem State.useFree_tq : (s.useFree).tq = s.tq := rfl
@[simp] theorem State.useFree_fns : (s.useFree).fns = s.fns := rfl
@[simp] theorem State.useFree_msixPend : (s.useFree).msixPend = s.msixPend := rfl
@[simp] theorem State.useFree_alarms : (s.useFree).alarms = s.alarms := rfl
@[simp] theorem State.useFree_levelAlarms : (s.useFree).levelAlarms = s.levelAlarms := rfl
@[simp] theorem State.useFree_clk : (s.useFree).clk = s.clk := rfl
@[simp] theorem State.useFree_nv : (s.useFree).nv = s.nv := rfl
@[simp] theorem State.useFree_boot : (s.useFree).boot = s.boot := rfl
@[simp] theorem State.useFree_pwr : (s.useFree).pwr = s.pwr := rfl
@[simp] theorem State.useFree_ember : (s.useFree).ember = s.ember := rfl
@[simp] theorem State.useFree_pairs : (s.useFree).pairs = s.pairs := rfl
@[simp] theorem State.useFree_mgmt : (s.useFree).mgmt = s.mgmt := rfl
@[simp] theorem State.useFree_bist : (s.useFree).bist = s.bist := rfl
@[simp] theorem State.useFree_host : (s.useFree).host = s.host := rfl

/-! ### emit -/

@[simp] theorem State.emit_pending (e : Emit) : (s.emit e).pending = s.pending := rfl
@[simp] theorem State.emit_ns (e : Emit) : (s.emit e).ns = s.ns := rfl
@[simp] theorem State.emit_free (e : Emit) : (s.emit e).free = s.free := rfl
@[simp] theorem State.emit_partId (e : Emit) : (s.emit e).partId = s.partId := rfl
@[simp] theorem State.emit_serialNo (e : Emit) : (s.emit e).serialNo = s.serialNo := rfl
@[simp] theorem State.emit_fuses (e : Emit) : (s.emit e).fuses = s.fuses := rfl
@[simp] theorem State.emit_regs (e : Emit) : (s.emit e).regs = s.regs := rfl
@[simp] theorem State.emit_hiRec (e : Emit) : (s.emit e).hiRec = s.hiRec := rfl
@[simp] theorem State.emit_design (e : Emit) : (s.emit e).design = s.design := rfl
@[simp] theorem State.emit_fab (e : Emit) : (s.emit e).fab = s.fab := rfl
@[simp] theorem State.emit_integ (e : Emit) : (s.emit e).integ = s.integ := rfl
@[simp] theorem State.emit_engs (e : Emit) : (s.emit e).engs = s.engs := rfl
@[simp] theorem State.emit_rings (e : Emit) : (s.emit e).rings = s.rings := rfl
@[simp] theorem State.emit_coh (e : Emit) : (s.emit e).coh = s.coh := rfl
@[simp] theorem State.emit_dram (e : Emit) : (s.emit e).dram = s.dram := rfl
@[simp] theorem State.emit_keys (e : Emit) : (s.emit e).keys = s.keys := rfl
@[simp] theorem State.emit_chk (e : Emit) : (s.emit e).chk = s.chk := rfl
@[simp] theorem State.emit_mbx (e : Emit) : (s.emit e).mbx = s.mbx := rfl
@[simp] theorem State.emit_wicks (e : Emit) : (s.emit e).wicks = s.wicks := rfl
@[simp] theorem State.emit_uci (e : Emit) : (s.emit e).uci = s.uci := rfl
@[simp] theorem State.emit_lanes (e : Emit) : (s.emit e).lanes = s.lanes := rfl
@[simp] theorem State.emit_laneGroups (e : Emit) : (s.emit e).laneGroups = s.laneGroups := rfl
@[simp] theorem State.emit_tq (e : Emit) : (s.emit e).tq = s.tq := rfl
@[simp] theorem State.emit_fns (e : Emit) : (s.emit e).fns = s.fns := rfl
@[simp] theorem State.emit_msixPend (e : Emit) : (s.emit e).msixPend = s.msixPend := rfl
@[simp] theorem State.emit_alarms (e : Emit) : (s.emit e).alarms = s.alarms := rfl
@[simp] theorem State.emit_levelAlarms (e : Emit) : (s.emit e).levelAlarms = s.levelAlarms := rfl
@[simp] theorem State.emit_clk (e : Emit) : (s.emit e).clk = s.clk := rfl
@[simp] theorem State.emit_nv (e : Emit) : (s.emit e).nv = s.nv := rfl
@[simp] theorem State.emit_boot (e : Emit) : (s.emit e).boot = s.boot := rfl
@[simp] theorem State.emit_pwr (e : Emit) : (s.emit e).pwr = s.pwr := rfl
@[simp] theorem State.emit_ember (e : Emit) : (s.emit e).ember = s.ember := rfl
@[simp] theorem State.emit_pairs (e : Emit) : (s.emit e).pairs = s.pairs := rfl
@[simp] theorem State.emit_mgmt (e : Emit) : (s.emit e).mgmt = s.mgmt := rfl
@[simp] theorem State.emit_bist (e : Emit) : (s.emit e).bist = s.bist := rfl
@[simp] theorem State.emit_host (e : Emit) : (s.emit e).host = s.host := rfl

/-! ### levelEnd -/

@[simp] theorem State.levelEnd_pending (code unit : Nat) : (s.levelEnd code unit).pending = s.pending := rfl
@[simp] theorem State.levelEnd_ns (code unit : Nat) : (s.levelEnd code unit).ns = s.ns := rfl
@[simp] theorem State.levelEnd_free (code unit : Nat) : (s.levelEnd code unit).free = s.free := rfl
@[simp] theorem State.levelEnd_partId (code unit : Nat) : (s.levelEnd code unit).partId = s.partId := rfl
@[simp] theorem State.levelEnd_serialNo (code unit : Nat) : (s.levelEnd code unit).serialNo = s.serialNo := rfl
@[simp] theorem State.levelEnd_fuses (code unit : Nat) : (s.levelEnd code unit).fuses = s.fuses := rfl
@[simp] theorem State.levelEnd_out (code unit : Nat) : (s.levelEnd code unit).out = s.out := rfl
@[simp] theorem State.levelEnd_regs (code unit : Nat) : (s.levelEnd code unit).regs = s.regs := rfl
@[simp] theorem State.levelEnd_hiRec (code unit : Nat) : (s.levelEnd code unit).hiRec = s.hiRec := rfl
@[simp] theorem State.levelEnd_design (code unit : Nat) : (s.levelEnd code unit).design = s.design := rfl
@[simp] theorem State.levelEnd_fab (code unit : Nat) : (s.levelEnd code unit).fab = s.fab := rfl
@[simp] theorem State.levelEnd_integ (code unit : Nat) : (s.levelEnd code unit).integ = s.integ := rfl
@[simp] theorem State.levelEnd_engs (code unit : Nat) : (s.levelEnd code unit).engs = s.engs := rfl
@[simp] theorem State.levelEnd_rings (code unit : Nat) : (s.levelEnd code unit).rings = s.rings := rfl
@[simp] theorem State.levelEnd_coh (code unit : Nat) : (s.levelEnd code unit).coh = s.coh := rfl
@[simp] theorem State.levelEnd_dram (code unit : Nat) : (s.levelEnd code unit).dram = s.dram := rfl
@[simp] theorem State.levelEnd_keys (code unit : Nat) : (s.levelEnd code unit).keys = s.keys := rfl
@[simp] theorem State.levelEnd_chk (code unit : Nat) : (s.levelEnd code unit).chk = s.chk := rfl
@[simp] theorem State.levelEnd_mbx (code unit : Nat) : (s.levelEnd code unit).mbx = s.mbx := rfl
@[simp] theorem State.levelEnd_wicks (code unit : Nat) : (s.levelEnd code unit).wicks = s.wicks := rfl
@[simp] theorem State.levelEnd_uci (code unit : Nat) : (s.levelEnd code unit).uci = s.uci := rfl
@[simp] theorem State.levelEnd_lanes (code unit : Nat) : (s.levelEnd code unit).lanes = s.lanes := rfl
@[simp] theorem State.levelEnd_laneGroups (code unit : Nat) : (s.levelEnd code unit).laneGroups = s.laneGroups := rfl
@[simp] theorem State.levelEnd_tq (code unit : Nat) : (s.levelEnd code unit).tq = s.tq := rfl
@[simp] theorem State.levelEnd_fns (code unit : Nat) : (s.levelEnd code unit).fns = s.fns := rfl
@[simp] theorem State.levelEnd_msixPend (code unit : Nat) : (s.levelEnd code unit).msixPend = s.msixPend := rfl
@[simp] theorem State.levelEnd_alarms (code unit : Nat) : (s.levelEnd code unit).alarms = s.alarms := rfl
@[simp] theorem State.levelEnd_clk (code unit : Nat) : (s.levelEnd code unit).clk = s.clk := rfl
@[simp] theorem State.levelEnd_nv (code unit : Nat) : (s.levelEnd code unit).nv = s.nv := rfl
@[simp] theorem State.levelEnd_boot (code unit : Nat) : (s.levelEnd code unit).boot = s.boot := rfl
@[simp] theorem State.levelEnd_pwr (code unit : Nat) : (s.levelEnd code unit).pwr = s.pwr := rfl
@[simp] theorem State.levelEnd_ember (code unit : Nat) : (s.levelEnd code unit).ember = s.ember := rfl
@[simp] theorem State.levelEnd_pairs (code unit : Nat) : (s.levelEnd code unit).pairs = s.pairs := rfl
@[simp] theorem State.levelEnd_mgmt (code unit : Nat) : (s.levelEnd code unit).mgmt = s.mgmt := rfl
@[simp] theorem State.levelEnd_bist (code unit : Nat) : (s.levelEnd code unit).bist = s.bist := rfl
@[simp] theorem State.levelEnd_host (code unit : Nat) : (s.levelEnd code unit).host = s.host := rfl

/-! ### setBmWord -/

@[simp] theorem State.setBmWord_pending (m a : Nat) (w : EccWord) : (s.setBmWord m a w).pending = s.pending := rfl
@[simp] theorem State.setBmWord_ns (m a : Nat) (w : EccWord) : (s.setBmWord m a w).ns = s.ns := rfl
@[simp] theorem State.setBmWord_free (m a : Nat) (w : EccWord) : (s.setBmWord m a w).free = s.free := rfl
@[simp] theorem State.setBmWord_partId (m a : Nat) (w : EccWord) : (s.setBmWord m a w).partId = s.partId := rfl
@[simp] theorem State.setBmWord_serialNo (m a : Nat) (w : EccWord) : (s.setBmWord m a w).serialNo = s.serialNo := rfl
@[simp] theorem State.setBmWord_fuses (m a : Nat) (w : EccWord) : (s.setBmWord m a w).fuses = s.fuses := rfl
@[simp] theorem State.setBmWord_out (m a : Nat) (w : EccWord) : (s.setBmWord m a w).out = s.out := rfl
@[simp] theorem State.setBmWord_regs (m a : Nat) (w : EccWord) : (s.setBmWord m a w).regs = s.regs := rfl
@[simp] theorem State.setBmWord_hiRec (m a : Nat) (w : EccWord) : (s.setBmWord m a w).hiRec = s.hiRec := rfl
@[simp] theorem State.setBmWord_design (m a : Nat) (w : EccWord) : (s.setBmWord m a w).design = s.design := rfl
@[simp] theorem State.setBmWord_integ (m a : Nat) (w : EccWord) : (s.setBmWord m a w).integ = s.integ := rfl
@[simp] theorem State.setBmWord_engs (m a : Nat) (w : EccWord) : (s.setBmWord m a w).engs = s.engs := rfl
@[simp] theorem State.setBmWord_rings (m a : Nat) (w : EccWord) : (s.setBmWord m a w).rings = s.rings := rfl
@[simp] theorem State.setBmWord_coh (m a : Nat) (w : EccWord) : (s.setBmWord m a w).coh = s.coh := rfl
@[simp] theorem State.setBmWord_dram (m a : Nat) (w : EccWord) : (s.setBmWord m a w).dram = s.dram := rfl
@[simp] theorem State.setBmWord_keys (m a : Nat) (w : EccWord) : (s.setBmWord m a w).keys = s.keys := rfl
@[simp] theorem State.setBmWord_chk (m a : Nat) (w : EccWord) : (s.setBmWord m a w).chk = s.chk := rfl
@[simp] theorem State.setBmWord_mbx (m a : Nat) (w : EccWord) : (s.setBmWord m a w).mbx = s.mbx := rfl
@[simp] theorem State.setBmWord_wicks (m a : Nat) (w : EccWord) : (s.setBmWord m a w).wicks = s.wicks := rfl
@[simp] theorem State.setBmWord_uci (m a : Nat) (w : EccWord) : (s.setBmWord m a w).uci = s.uci := rfl
@[simp] theorem State.setBmWord_lanes (m a : Nat) (w : EccWord) : (s.setBmWord m a w).lanes = s.lanes := rfl
@[simp] theorem State.setBmWord_laneGroups (m a : Nat) (w : EccWord) : (s.setBmWord m a w).laneGroups = s.laneGroups := rfl
@[simp] theorem State.setBmWord_tq (m a : Nat) (w : EccWord) : (s.setBmWord m a w).tq = s.tq := rfl
@[simp] theorem State.setBmWord_fns (m a : Nat) (w : EccWord) : (s.setBmWord m a w).fns = s.fns := rfl
@[simp] theorem State.setBmWord_msixPend (m a : Nat) (w : EccWord) : (s.setBmWord m a w).msixPend = s.msixPend := rfl
@[simp] theorem State.setBmWord_alarms (m a : Nat) (w : EccWord) : (s.setBmWord m a w).alarms = s.alarms := rfl
@[simp] theorem State.setBmWord_levelAlarms (m a : Nat) (w : EccWord) : (s.setBmWord m a w).levelAlarms = s.levelAlarms := rfl
@[simp] theorem State.setBmWord_clk (m a : Nat) (w : EccWord) : (s.setBmWord m a w).clk = s.clk := rfl
@[simp] theorem State.setBmWord_nv (m a : Nat) (w : EccWord) : (s.setBmWord m a w).nv = s.nv := rfl
@[simp] theorem State.setBmWord_boot (m a : Nat) (w : EccWord) : (s.setBmWord m a w).boot = s.boot := rfl
@[simp] theorem State.setBmWord_pwr (m a : Nat) (w : EccWord) : (s.setBmWord m a w).pwr = s.pwr := rfl
@[simp] theorem State.setBmWord_ember (m a : Nat) (w : EccWord) : (s.setBmWord m a w).ember = s.ember := rfl
@[simp] theorem State.setBmWord_pairs (m a : Nat) (w : EccWord) : (s.setBmWord m a w).pairs = s.pairs := rfl
@[simp] theorem State.setBmWord_mgmt (m a : Nat) (w : EccWord) : (s.setBmWord m a w).mgmt = s.mgmt := rfl
@[simp] theorem State.setBmWord_bist (m a : Nat) (w : EccWord) : (s.setBmWord m a w).bist = s.bist := rfl
@[simp] theorem State.setBmWord_host (m a : Nat) (w : EccWord) : (s.setBmWord m a w).host = s.host := rfl

/-! ### bmDrive -/

@[simp] theorem State.bmDrive_pending (p : Nat) (o : BmOut) : (s.bmDrive p o).pending = s.pending := rfl
@[simp] theorem State.bmDrive_ns (p : Nat) (o : BmOut) : (s.bmDrive p o).ns = s.ns := rfl
@[simp] theorem State.bmDrive_free (p : Nat) (o : BmOut) : (s.bmDrive p o).free = s.free := rfl
@[simp] theorem State.bmDrive_partId (p : Nat) (o : BmOut) : (s.bmDrive p o).partId = s.partId := rfl
@[simp] theorem State.bmDrive_serialNo (p : Nat) (o : BmOut) : (s.bmDrive p o).serialNo = s.serialNo := rfl
@[simp] theorem State.bmDrive_fuses (p : Nat) (o : BmOut) : (s.bmDrive p o).fuses = s.fuses := rfl
@[simp] theorem State.bmDrive_out (p : Nat) (o : BmOut) : (s.bmDrive p o).out = s.out := rfl
@[simp] theorem State.bmDrive_regs (p : Nat) (o : BmOut) : (s.bmDrive p o).regs = s.regs := rfl
@[simp] theorem State.bmDrive_hiRec (p : Nat) (o : BmOut) : (s.bmDrive p o).hiRec = s.hiRec := rfl
@[simp] theorem State.bmDrive_design (p : Nat) (o : BmOut) : (s.bmDrive p o).design = s.design := rfl
@[simp] theorem State.bmDrive_integ (p : Nat) (o : BmOut) : (s.bmDrive p o).integ = s.integ := rfl
@[simp] theorem State.bmDrive_engs (p : Nat) (o : BmOut) : (s.bmDrive p o).engs = s.engs := rfl
@[simp] theorem State.bmDrive_rings (p : Nat) (o : BmOut) : (s.bmDrive p o).rings = s.rings := rfl
@[simp] theorem State.bmDrive_coh (p : Nat) (o : BmOut) : (s.bmDrive p o).coh = s.coh := rfl
@[simp] theorem State.bmDrive_dram (p : Nat) (o : BmOut) : (s.bmDrive p o).dram = s.dram := rfl
@[simp] theorem State.bmDrive_keys (p : Nat) (o : BmOut) : (s.bmDrive p o).keys = s.keys := rfl
@[simp] theorem State.bmDrive_chk (p : Nat) (o : BmOut) : (s.bmDrive p o).chk = s.chk := rfl
@[simp] theorem State.bmDrive_mbx (p : Nat) (o : BmOut) : (s.bmDrive p o).mbx = s.mbx := rfl
@[simp] theorem State.bmDrive_wicks (p : Nat) (o : BmOut) : (s.bmDrive p o).wicks = s.wicks := rfl
@[simp] theorem State.bmDrive_uci (p : Nat) (o : BmOut) : (s.bmDrive p o).uci = s.uci := rfl
@[simp] theorem State.bmDrive_lanes (p : Nat) (o : BmOut) : (s.bmDrive p o).lanes = s.lanes := rfl
@[simp] theorem State.bmDrive_laneGroups (p : Nat) (o : BmOut) : (s.bmDrive p o).laneGroups = s.laneGroups := rfl
@[simp] theorem State.bmDrive_tq (p : Nat) (o : BmOut) : (s.bmDrive p o).tq = s.tq := rfl
@[simp] theorem State.bmDrive_fns (p : Nat) (o : BmOut) : (s.bmDrive p o).fns = s.fns := rfl
@[simp] theorem State.bmDrive_msixPend (p : Nat) (o : BmOut) : (s.bmDrive p o).msixPend = s.msixPend := rfl
@[simp] theorem State.bmDrive_alarms (p : Nat) (o : BmOut) : (s.bmDrive p o).alarms = s.alarms := rfl
@[simp] theorem State.bmDrive_levelAlarms (p : Nat) (o : BmOut) : (s.bmDrive p o).levelAlarms = s.levelAlarms := rfl
@[simp] theorem State.bmDrive_clk (p : Nat) (o : BmOut) : (s.bmDrive p o).clk = s.clk := rfl
@[simp] theorem State.bmDrive_nv (p : Nat) (o : BmOut) : (s.bmDrive p o).nv = s.nv := rfl
@[simp] theorem State.bmDrive_boot (p : Nat) (o : BmOut) : (s.bmDrive p o).boot = s.boot := rfl
@[simp] theorem State.bmDrive_pwr (p : Nat) (o : BmOut) : (s.bmDrive p o).pwr = s.pwr := rfl
@[simp] theorem State.bmDrive_ember (p : Nat) (o : BmOut) : (s.bmDrive p o).ember = s.ember := rfl
@[simp] theorem State.bmDrive_pairs (p : Nat) (o : BmOut) : (s.bmDrive p o).pairs = s.pairs := rfl
@[simp] theorem State.bmDrive_mgmt (p : Nat) (o : BmOut) : (s.bmDrive p o).mgmt = s.mgmt := rfl
@[simp] theorem State.bmDrive_bist (p : Nat) (o : BmOut) : (s.bmDrive p o).bist = s.bist := rfl
@[simp] theorem State.bmDrive_host (p : Nat) (o : BmOut) : (s.bmDrive p o).host = s.host := rfl

/-! ### setEng -/

@[simp] theorem State.setEng_pending (e : Nat) (g : Engine) : (s.setEng e g).pending = s.pending := rfl
@[simp] theorem State.setEng_ns (e : Nat) (g : Engine) : (s.setEng e g).ns = s.ns := rfl
@[simp] theorem State.setEng_free (e : Nat) (g : Engine) : (s.setEng e g).free = s.free := rfl
@[simp] theorem State.setEng_partId (e : Nat) (g : Engine) : (s.setEng e g).partId = s.partId := rfl
@[simp] theorem State.setEng_serialNo (e : Nat) (g : Engine) : (s.setEng e g).serialNo = s.serialNo := rfl
@[simp] theorem State.setEng_fuses (e : Nat) (g : Engine) : (s.setEng e g).fuses = s.fuses := rfl
@[simp] theorem State.setEng_out (e : Nat) (g : Engine) : (s.setEng e g).out = s.out := rfl
@[simp] theorem State.setEng_regs (e : Nat) (g : Engine) : (s.setEng e g).regs = s.regs := rfl
@[simp] theorem State.setEng_hiRec (e : Nat) (g : Engine) : (s.setEng e g).hiRec = s.hiRec := rfl
@[simp] theorem State.setEng_design (e : Nat) (g : Engine) : (s.setEng e g).design = s.design := rfl
@[simp] theorem State.setEng_fab (e : Nat) (g : Engine) : (s.setEng e g).fab = s.fab := rfl
@[simp] theorem State.setEng_integ (e : Nat) (g : Engine) : (s.setEng e g).integ = s.integ := rfl
@[simp] theorem State.setEng_rings (e : Nat) (g : Engine) : (s.setEng e g).rings = s.rings := rfl
@[simp] theorem State.setEng_coh (e : Nat) (g : Engine) : (s.setEng e g).coh = s.coh := rfl
@[simp] theorem State.setEng_dram (e : Nat) (g : Engine) : (s.setEng e g).dram = s.dram := rfl
@[simp] theorem State.setEng_keys (e : Nat) (g : Engine) : (s.setEng e g).keys = s.keys := rfl
@[simp] theorem State.setEng_chk (e : Nat) (g : Engine) : (s.setEng e g).chk = s.chk := rfl
@[simp] theorem State.setEng_mbx (e : Nat) (g : Engine) : (s.setEng e g).mbx = s.mbx := rfl
@[simp] theorem State.setEng_wicks (e : Nat) (g : Engine) : (s.setEng e g).wicks = s.wicks := rfl
@[simp] theorem State.setEng_uci (e : Nat) (g : Engine) : (s.setEng e g).uci = s.uci := rfl
@[simp] theorem State.setEng_lanes (e : Nat) (g : Engine) : (s.setEng e g).lanes = s.lanes := rfl
@[simp] theorem State.setEng_laneGroups (e : Nat) (g : Engine) : (s.setEng e g).laneGroups = s.laneGroups := rfl
@[simp] theorem State.setEng_tq (e : Nat) (g : Engine) : (s.setEng e g).tq = s.tq := rfl
@[simp] theorem State.setEng_fns (e : Nat) (g : Engine) : (s.setEng e g).fns = s.fns := rfl
@[simp] theorem State.setEng_msixPend (e : Nat) (g : Engine) : (s.setEng e g).msixPend = s.msixPend := rfl
@[simp] theorem State.setEng_alarms (e : Nat) (g : Engine) : (s.setEng e g).alarms = s.alarms := rfl
@[simp] theorem State.setEng_levelAlarms (e : Nat) (g : Engine) : (s.setEng e g).levelAlarms = s.levelAlarms := rfl
@[simp] theorem State.setEng_clk (e : Nat) (g : Engine) : (s.setEng e g).clk = s.clk := rfl
@[simp] theorem State.setEng_nv (e : Nat) (g : Engine) : (s.setEng e g).nv = s.nv := rfl
@[simp] theorem State.setEng_boot (e : Nat) (g : Engine) : (s.setEng e g).boot = s.boot := rfl
@[simp] theorem State.setEng_pwr (e : Nat) (g : Engine) : (s.setEng e g).pwr = s.pwr := rfl
@[simp] theorem State.setEng_ember (e : Nat) (g : Engine) : (s.setEng e g).ember = s.ember := rfl
@[simp] theorem State.setEng_pairs (e : Nat) (g : Engine) : (s.setEng e g).pairs = s.pairs := rfl
@[simp] theorem State.setEng_mgmt (e : Nat) (g : Engine) : (s.setEng e g).mgmt = s.mgmt := rfl
@[simp] theorem State.setEng_bist (e : Nat) (g : Engine) : (s.setEng e g).bist = s.bist := rfl
@[simp] theorem State.setEng_host (e : Nat) (g : Engine) : (s.setEng e g).host = s.host := rfl

/-! ### setEngPc -/

@[simp] theorem State.setEngPc_pending (e n : Nat) : (s.setEngPc e n).pending = s.pending := rfl
@[simp] theorem State.setEngPc_ns (e n : Nat) : (s.setEngPc e n).ns = s.ns := rfl
@[simp] theorem State.setEngPc_free (e n : Nat) : (s.setEngPc e n).free = s.free := rfl
@[simp] theorem State.setEngPc_partId (e n : Nat) : (s.setEngPc e n).partId = s.partId := rfl
@[simp] theorem State.setEngPc_serialNo (e n : Nat) : (s.setEngPc e n).serialNo = s.serialNo := rfl
@[simp] theorem State.setEngPc_fuses (e n : Nat) : (s.setEngPc e n).fuses = s.fuses := rfl
@[simp] theorem State.setEngPc_out (e n : Nat) : (s.setEngPc e n).out = s.out := rfl
@[simp] theorem State.setEngPc_hiRec (e n : Nat) : (s.setEngPc e n).hiRec = s.hiRec := rfl
@[simp] theorem State.setEngPc_design (e n : Nat) : (s.setEngPc e n).design = s.design := rfl
@[simp] theorem State.setEngPc_fab (e n : Nat) : (s.setEngPc e n).fab = s.fab := rfl
@[simp] theorem State.setEngPc_integ (e n : Nat) : (s.setEngPc e n).integ = s.integ := rfl
@[simp] theorem State.setEngPc_engs (e n : Nat) : (s.setEngPc e n).engs = s.engs := rfl
@[simp] theorem State.setEngPc_rings (e n : Nat) : (s.setEngPc e n).rings = s.rings := rfl
@[simp] theorem State.setEngPc_coh (e n : Nat) : (s.setEngPc e n).coh = s.coh := rfl
@[simp] theorem State.setEngPc_dram (e n : Nat) : (s.setEngPc e n).dram = s.dram := rfl
@[simp] theorem State.setEngPc_keys (e n : Nat) : (s.setEngPc e n).keys = s.keys := rfl
@[simp] theorem State.setEngPc_chk (e n : Nat) : (s.setEngPc e n).chk = s.chk := rfl
@[simp] theorem State.setEngPc_mbx (e n : Nat) : (s.setEngPc e n).mbx = s.mbx := rfl
@[simp] theorem State.setEngPc_wicks (e n : Nat) : (s.setEngPc e n).wicks = s.wicks := rfl
@[simp] theorem State.setEngPc_uci (e n : Nat) : (s.setEngPc e n).uci = s.uci := rfl
@[simp] theorem State.setEngPc_lanes (e n : Nat) : (s.setEngPc e n).lanes = s.lanes := rfl
@[simp] theorem State.setEngPc_laneGroups (e n : Nat) : (s.setEngPc e n).laneGroups = s.laneGroups := rfl
@[simp] theorem State.setEngPc_tq (e n : Nat) : (s.setEngPc e n).tq = s.tq := rfl
@[simp] theorem State.setEngPc_fns (e n : Nat) : (s.setEngPc e n).fns = s.fns := rfl
@[simp] theorem State.setEngPc_msixPend (e n : Nat) : (s.setEngPc e n).msixPend = s.msixPend := rfl
@[simp] theorem State.setEngPc_alarms (e n : Nat) : (s.setEngPc e n).alarms = s.alarms := rfl
@[simp] theorem State.setEngPc_levelAlarms (e n : Nat) : (s.setEngPc e n).levelAlarms = s.levelAlarms := rfl
@[simp] theorem State.setEngPc_clk (e n : Nat) : (s.setEngPc e n).clk = s.clk := rfl
@[simp] theorem State.setEngPc_nv (e n : Nat) : (s.setEngPc e n).nv = s.nv := rfl
@[simp] theorem State.setEngPc_boot (e n : Nat) : (s.setEngPc e n).boot = s.boot := rfl
@[simp] theorem State.setEngPc_pwr (e n : Nat) : (s.setEngPc e n).pwr = s.pwr := rfl
@[simp] theorem State.setEngPc_ember (e n : Nat) : (s.setEngPc e n).ember = s.ember := rfl
@[simp] theorem State.setEngPc_pairs (e n : Nat) : (s.setEngPc e n).pairs = s.pairs := rfl
@[simp] theorem State.setEngPc_mgmt (e n : Nat) : (s.setEngPc e n).mgmt = s.mgmt := rfl
@[simp] theorem State.setEngPc_bist (e n : Nat) : (s.setEngPc e n).bist = s.bist := rfl
@[simp] theorem State.setEngPc_host (e n : Nat) : (s.setEngPc e n).host = s.host := rfl

/-! ### setProgWord -/

@[simp] theorem State.setProgWord_pending (e i : Nat) (w : ProgWord) : (s.setProgWord e i w).pending = s.pending := rfl
@[simp] theorem State.setProgWord_ns (e i : Nat) (w : ProgWord) : (s.setProgWord e i w).ns = s.ns := rfl
@[simp] theorem State.setProgWord_free (e i : Nat) (w : ProgWord) : (s.setProgWord e i w).free = s.free := rfl
@[simp] theorem State.setProgWord_partId (e i : Nat) (w : ProgWord) : (s.setProgWord e i w).partId = s.partId := rfl
@[simp] theorem State.setProgWord_serialNo (e i : Nat) (w : ProgWord) : (s.setProgWord e i w).serialNo = s.serialNo := rfl
@[simp] theorem State.setProgWord_fuses (e i : Nat) (w : ProgWord) : (s.setProgWord e i w).fuses = s.fuses := rfl
@[simp] theorem State.setProgWord_out (e i : Nat) (w : ProgWord) : (s.setProgWord e i w).out = s.out := rfl
@[simp] theorem State.setProgWord_regs (e i : Nat) (w : ProgWord) : (s.setProgWord e i w).regs = s.regs := rfl
@[simp] theorem State.setProgWord_hiRec (e i : Nat) (w : ProgWord) : (s.setProgWord e i w).hiRec = s.hiRec := rfl
@[simp] theorem State.setProgWord_design (e i : Nat) (w : ProgWord) : (s.setProgWord e i w).design = s.design := rfl
@[simp] theorem State.setProgWord_fab (e i : Nat) (w : ProgWord) : (s.setProgWord e i w).fab = s.fab := rfl
@[simp] theorem State.setProgWord_integ (e i : Nat) (w : ProgWord) : (s.setProgWord e i w).integ = s.integ := rfl
@[simp] theorem State.setProgWord_rings (e i : Nat) (w : ProgWord) : (s.setProgWord e i w).rings = s.rings := rfl
@[simp] theorem State.setProgWord_coh (e i : Nat) (w : ProgWord) : (s.setProgWord e i w).coh = s.coh := rfl
@[simp] theorem State.setProgWord_dram (e i : Nat) (w : ProgWord) : (s.setProgWord e i w).dram = s.dram := rfl
@[simp] theorem State.setProgWord_keys (e i : Nat) (w : ProgWord) : (s.setProgWord e i w).keys = s.keys := rfl
@[simp] theorem State.setProgWord_chk (e i : Nat) (w : ProgWord) : (s.setProgWord e i w).chk = s.chk := rfl
@[simp] theorem State.setProgWord_mbx (e i : Nat) (w : ProgWord) : (s.setProgWord e i w).mbx = s.mbx := rfl
@[simp] theorem State.setProgWord_wicks (e i : Nat) (w : ProgWord) : (s.setProgWord e i w).wicks = s.wicks := rfl
@[simp] theorem State.setProgWord_uci (e i : Nat) (w : ProgWord) : (s.setProgWord e i w).uci = s.uci := rfl
@[simp] theorem State.setProgWord_lanes (e i : Nat) (w : ProgWord) : (s.setProgWord e i w).lanes = s.lanes := rfl
@[simp] theorem State.setProgWord_laneGroups (e i : Nat) (w : ProgWord) : (s.setProgWord e i w).laneGroups = s.laneGroups := rfl
@[simp] theorem State.setProgWord_tq (e i : Nat) (w : ProgWord) : (s.setProgWord e i w).tq = s.tq := rfl
@[simp] theorem State.setProgWord_fns (e i : Nat) (w : ProgWord) : (s.setProgWord e i w).fns = s.fns := rfl
@[simp] theorem State.setProgWord_msixPend (e i : Nat) (w : ProgWord) : (s.setProgWord e i w).msixPend = s.msixPend := rfl
@[simp] theorem State.setProgWord_alarms (e i : Nat) (w : ProgWord) : (s.setProgWord e i w).alarms = s.alarms := rfl
@[simp] theorem State.setProgWord_levelAlarms (e i : Nat) (w : ProgWord) : (s.setProgWord e i w).levelAlarms = s.levelAlarms := rfl
@[simp] theorem State.setProgWord_clk (e i : Nat) (w : ProgWord) : (s.setProgWord e i w).clk = s.clk := rfl
@[simp] theorem State.setProgWord_nv (e i : Nat) (w : ProgWord) : (s.setProgWord e i w).nv = s.nv := rfl
@[simp] theorem State.setProgWord_boot (e i : Nat) (w : ProgWord) : (s.setProgWord e i w).boot = s.boot := rfl
@[simp] theorem State.setProgWord_pwr (e i : Nat) (w : ProgWord) : (s.setProgWord e i w).pwr = s.pwr := rfl
@[simp] theorem State.setProgWord_ember (e i : Nat) (w : ProgWord) : (s.setProgWord e i w).ember = s.ember := rfl
@[simp] theorem State.setProgWord_pairs (e i : Nat) (w : ProgWord) : (s.setProgWord e i w).pairs = s.pairs := rfl
@[simp] theorem State.setProgWord_mgmt (e i : Nat) (w : ProgWord) : (s.setProgWord e i w).mgmt = s.mgmt := rfl
@[simp] theorem State.setProgWord_bist (e i : Nat) (w : ProgWord) : (s.setProgWord e i w).bist = s.bist := rfl
@[simp] theorem State.setProgWord_host (e i : Nat) (w : ProgWord) : (s.setProgWord e i w).host = s.host := rfl

/-! ### setDataWord -/

@[simp] theorem State.setDataWord_pending (e i : Nat) (w : EccWord) : (s.setDataWord e i w).pending = s.pending := rfl
@[simp] theorem State.setDataWord_ns (e i : Nat) (w : EccWord) : (s.setDataWord e i w).ns = s.ns := rfl
@[simp] theorem State.setDataWord_free (e i : Nat) (w : EccWord) : (s.setDataWord e i w).free = s.free := rfl
@[simp] theorem State.setDataWord_partId (e i : Nat) (w : EccWord) : (s.setDataWord e i w).partId = s.partId := rfl
@[simp] theorem State.setDataWord_serialNo (e i : Nat) (w : EccWord) : (s.setDataWord e i w).serialNo = s.serialNo := rfl
@[simp] theorem State.setDataWord_fuses (e i : Nat) (w : EccWord) : (s.setDataWord e i w).fuses = s.fuses := rfl
@[simp] theorem State.setDataWord_out (e i : Nat) (w : EccWord) : (s.setDataWord e i w).out = s.out := rfl
@[simp] theorem State.setDataWord_regs (e i : Nat) (w : EccWord) : (s.setDataWord e i w).regs = s.regs := rfl
@[simp] theorem State.setDataWord_hiRec (e i : Nat) (w : EccWord) : (s.setDataWord e i w).hiRec = s.hiRec := rfl
@[simp] theorem State.setDataWord_design (e i : Nat) (w : EccWord) : (s.setDataWord e i w).design = s.design := rfl
@[simp] theorem State.setDataWord_fab (e i : Nat) (w : EccWord) : (s.setDataWord e i w).fab = s.fab := rfl
@[simp] theorem State.setDataWord_integ (e i : Nat) (w : EccWord) : (s.setDataWord e i w).integ = s.integ := rfl
@[simp] theorem State.setDataWord_rings (e i : Nat) (w : EccWord) : (s.setDataWord e i w).rings = s.rings := rfl
@[simp] theorem State.setDataWord_coh (e i : Nat) (w : EccWord) : (s.setDataWord e i w).coh = s.coh := rfl
@[simp] theorem State.setDataWord_dram (e i : Nat) (w : EccWord) : (s.setDataWord e i w).dram = s.dram := rfl
@[simp] theorem State.setDataWord_keys (e i : Nat) (w : EccWord) : (s.setDataWord e i w).keys = s.keys := rfl
@[simp] theorem State.setDataWord_chk (e i : Nat) (w : EccWord) : (s.setDataWord e i w).chk = s.chk := rfl
@[simp] theorem State.setDataWord_mbx (e i : Nat) (w : EccWord) : (s.setDataWord e i w).mbx = s.mbx := rfl
@[simp] theorem State.setDataWord_wicks (e i : Nat) (w : EccWord) : (s.setDataWord e i w).wicks = s.wicks := rfl
@[simp] theorem State.setDataWord_uci (e i : Nat) (w : EccWord) : (s.setDataWord e i w).uci = s.uci := rfl
@[simp] theorem State.setDataWord_lanes (e i : Nat) (w : EccWord) : (s.setDataWord e i w).lanes = s.lanes := rfl
@[simp] theorem State.setDataWord_laneGroups (e i : Nat) (w : EccWord) : (s.setDataWord e i w).laneGroups = s.laneGroups := rfl
@[simp] theorem State.setDataWord_tq (e i : Nat) (w : EccWord) : (s.setDataWord e i w).tq = s.tq := rfl
@[simp] theorem State.setDataWord_fns (e i : Nat) (w : EccWord) : (s.setDataWord e i w).fns = s.fns := rfl
@[simp] theorem State.setDataWord_msixPend (e i : Nat) (w : EccWord) : (s.setDataWord e i w).msixPend = s.msixPend := rfl
@[simp] theorem State.setDataWord_alarms (e i : Nat) (w : EccWord) : (s.setDataWord e i w).alarms = s.alarms := rfl
@[simp] theorem State.setDataWord_levelAlarms (e i : Nat) (w : EccWord) : (s.setDataWord e i w).levelAlarms = s.levelAlarms := rfl
@[simp] theorem State.setDataWord_clk (e i : Nat) (w : EccWord) : (s.setDataWord e i w).clk = s.clk := rfl
@[simp] theorem State.setDataWord_nv (e i : Nat) (w : EccWord) : (s.setDataWord e i w).nv = s.nv := rfl
@[simp] theorem State.setDataWord_boot (e i : Nat) (w : EccWord) : (s.setDataWord e i w).boot = s.boot := rfl
@[simp] theorem State.setDataWord_pwr (e i : Nat) (w : EccWord) : (s.setDataWord e i w).pwr = s.pwr := rfl
@[simp] theorem State.setDataWord_ember (e i : Nat) (w : EccWord) : (s.setDataWord e i w).ember = s.ember := rfl
@[simp] theorem State.setDataWord_pairs (e i : Nat) (w : EccWord) : (s.setDataWord e i w).pairs = s.pairs := rfl
@[simp] theorem State.setDataWord_mgmt (e i : Nat) (w : EccWord) : (s.setDataWord e i w).mgmt = s.mgmt := rfl
@[simp] theorem State.setDataWord_bist (e i : Nat) (w : EccWord) : (s.setDataWord e i w).bist = s.bist := rfl
@[simp] theorem State.setDataWord_host (e i : Nat) (w : EccWord) : (s.setDataWord e i w).host = s.host := rfl

/-! ### setLanWord -/

@[simp] theorem State.setLanWord_pending (k i : Nat) (w : EccWord) : (s.setLanWord k i w).pending = s.pending := rfl
@[simp] theorem State.setLanWord_ns (k i : Nat) (w : EccWord) : (s.setLanWord k i w).ns = s.ns := rfl
@[simp] theorem State.setLanWord_free (k i : Nat) (w : EccWord) : (s.setLanWord k i w).free = s.free := rfl
@[simp] theorem State.setLanWord_partId (k i : Nat) (w : EccWord) : (s.setLanWord k i w).partId = s.partId := rfl
@[simp] theorem State.setLanWord_serialNo (k i : Nat) (w : EccWord) : (s.setLanWord k i w).serialNo = s.serialNo := rfl
@[simp] theorem State.setLanWord_fuses (k i : Nat) (w : EccWord) : (s.setLanWord k i w).fuses = s.fuses := rfl
@[simp] theorem State.setLanWord_out (k i : Nat) (w : EccWord) : (s.setLanWord k i w).out = s.out := rfl
@[simp] theorem State.setLanWord_regs (k i : Nat) (w : EccWord) : (s.setLanWord k i w).regs = s.regs := rfl
@[simp] theorem State.setLanWord_hiRec (k i : Nat) (w : EccWord) : (s.setLanWord k i w).hiRec = s.hiRec := rfl
@[simp] theorem State.setLanWord_design (k i : Nat) (w : EccWord) : (s.setLanWord k i w).design = s.design := rfl
@[simp] theorem State.setLanWord_fab (k i : Nat) (w : EccWord) : (s.setLanWord k i w).fab = s.fab := rfl
@[simp] theorem State.setLanWord_integ (k i : Nat) (w : EccWord) : (s.setLanWord k i w).integ = s.integ := rfl
@[simp] theorem State.setLanWord_rings (k i : Nat) (w : EccWord) : (s.setLanWord k i w).rings = s.rings := rfl
@[simp] theorem State.setLanWord_coh (k i : Nat) (w : EccWord) : (s.setLanWord k i w).coh = s.coh := rfl
@[simp] theorem State.setLanWord_dram (k i : Nat) (w : EccWord) : (s.setLanWord k i w).dram = s.dram := rfl
@[simp] theorem State.setLanWord_keys (k i : Nat) (w : EccWord) : (s.setLanWord k i w).keys = s.keys := rfl
@[simp] theorem State.setLanWord_chk (k i : Nat) (w : EccWord) : (s.setLanWord k i w).chk = s.chk := rfl
@[simp] theorem State.setLanWord_mbx (k i : Nat) (w : EccWord) : (s.setLanWord k i w).mbx = s.mbx := rfl
@[simp] theorem State.setLanWord_wicks (k i : Nat) (w : EccWord) : (s.setLanWord k i w).wicks = s.wicks := rfl
@[simp] theorem State.setLanWord_uci (k i : Nat) (w : EccWord) : (s.setLanWord k i w).uci = s.uci := rfl
@[simp] theorem State.setLanWord_lanes (k i : Nat) (w : EccWord) : (s.setLanWord k i w).lanes = s.lanes := rfl
@[simp] theorem State.setLanWord_laneGroups (k i : Nat) (w : EccWord) : (s.setLanWord k i w).laneGroups = s.laneGroups := rfl
@[simp] theorem State.setLanWord_tq (k i : Nat) (w : EccWord) : (s.setLanWord k i w).tq = s.tq := rfl
@[simp] theorem State.setLanWord_fns (k i : Nat) (w : EccWord) : (s.setLanWord k i w).fns = s.fns := rfl
@[simp] theorem State.setLanWord_msixPend (k i : Nat) (w : EccWord) : (s.setLanWord k i w).msixPend = s.msixPend := rfl
@[simp] theorem State.setLanWord_alarms (k i : Nat) (w : EccWord) : (s.setLanWord k i w).alarms = s.alarms := rfl
@[simp] theorem State.setLanWord_levelAlarms (k i : Nat) (w : EccWord) : (s.setLanWord k i w).levelAlarms = s.levelAlarms := rfl
@[simp] theorem State.setLanWord_clk (k i : Nat) (w : EccWord) : (s.setLanWord k i w).clk = s.clk := rfl
@[simp] theorem State.setLanWord_nv (k i : Nat) (w : EccWord) : (s.setLanWord k i w).nv = s.nv := rfl
@[simp] theorem State.setLanWord_boot (k i : Nat) (w : EccWord) : (s.setLanWord k i w).boot = s.boot := rfl
@[simp] theorem State.setLanWord_pwr (k i : Nat) (w : EccWord) : (s.setLanWord k i w).pwr = s.pwr := rfl
@[simp] theorem State.setLanWord_ember (k i : Nat) (w : EccWord) : (s.setLanWord k i w).ember = s.ember := rfl
@[simp] theorem State.setLanWord_pairs (k i : Nat) (w : EccWord) : (s.setLanWord k i w).pairs = s.pairs := rfl
@[simp] theorem State.setLanWord_mgmt (k i : Nat) (w : EccWord) : (s.setLanWord k i w).mgmt = s.mgmt := rfl
@[simp] theorem State.setLanWord_bist (k i : Nat) (w : EccWord) : (s.setLanWord k i w).bist = s.bist := rfl
@[simp] theorem State.setLanWord_host (k i : Nat) (w : EccWord) : (s.setLanWord k i w).host = s.host := rfl

/-! ### setTxn -/

@[simp] theorem State.setTxn_pending (t : TxnKey) (x : Txn) : (s.setTxn t x).pending = s.pending := rfl
@[simp] theorem State.setTxn_ns (t : TxnKey) (x : Txn) : (s.setTxn t x).ns = s.ns := rfl
@[simp] theorem State.setTxn_free (t : TxnKey) (x : Txn) : (s.setTxn t x).free = s.free := rfl
@[simp] theorem State.setTxn_partId (t : TxnKey) (x : Txn) : (s.setTxn t x).partId = s.partId := rfl
@[simp] theorem State.setTxn_serialNo (t : TxnKey) (x : Txn) : (s.setTxn t x).serialNo = s.serialNo := rfl
@[simp] theorem State.setTxn_fuses (t : TxnKey) (x : Txn) : (s.setTxn t x).fuses = s.fuses := rfl
@[simp] theorem State.setTxn_out (t : TxnKey) (x : Txn) : (s.setTxn t x).out = s.out := rfl
@[simp] theorem State.setTxn_regs (t : TxnKey) (x : Txn) : (s.setTxn t x).regs = s.regs := rfl
@[simp] theorem State.setTxn_hiRec (t : TxnKey) (x : Txn) : (s.setTxn t x).hiRec = s.hiRec := rfl
@[simp] theorem State.setTxn_design (t : TxnKey) (x : Txn) : (s.setTxn t x).design = s.design := rfl
@[simp] theorem State.setTxn_fab (t : TxnKey) (x : Txn) : (s.setTxn t x).fab = s.fab := rfl
@[simp] theorem State.setTxn_integ (t : TxnKey) (x : Txn) : (s.setTxn t x).integ = s.integ := rfl
@[simp] theorem State.setTxn_engs (t : TxnKey) (x : Txn) : (s.setTxn t x).engs = s.engs := rfl
@[simp] theorem State.setTxn_coh (t : TxnKey) (x : Txn) : (s.setTxn t x).coh = s.coh := rfl
@[simp] theorem State.setTxn_dram (t : TxnKey) (x : Txn) : (s.setTxn t x).dram = s.dram := rfl
@[simp] theorem State.setTxn_keys (t : TxnKey) (x : Txn) : (s.setTxn t x).keys = s.keys := rfl
@[simp] theorem State.setTxn_chk (t : TxnKey) (x : Txn) : (s.setTxn t x).chk = s.chk := rfl
@[simp] theorem State.setTxn_mbx (t : TxnKey) (x : Txn) : (s.setTxn t x).mbx = s.mbx := rfl
@[simp] theorem State.setTxn_wicks (t : TxnKey) (x : Txn) : (s.setTxn t x).wicks = s.wicks := rfl
@[simp] theorem State.setTxn_uci (t : TxnKey) (x : Txn) : (s.setTxn t x).uci = s.uci := rfl
@[simp] theorem State.setTxn_lanes (t : TxnKey) (x : Txn) : (s.setTxn t x).lanes = s.lanes := rfl
@[simp] theorem State.setTxn_laneGroups (t : TxnKey) (x : Txn) : (s.setTxn t x).laneGroups = s.laneGroups := rfl
@[simp] theorem State.setTxn_tq (t : TxnKey) (x : Txn) : (s.setTxn t x).tq = s.tq := rfl
@[simp] theorem State.setTxn_fns (t : TxnKey) (x : Txn) : (s.setTxn t x).fns = s.fns := rfl
@[simp] theorem State.setTxn_msixPend (t : TxnKey) (x : Txn) : (s.setTxn t x).msixPend = s.msixPend := rfl
@[simp] theorem State.setTxn_alarms (t : TxnKey) (x : Txn) : (s.setTxn t x).alarms = s.alarms := rfl
@[simp] theorem State.setTxn_levelAlarms (t : TxnKey) (x : Txn) : (s.setTxn t x).levelAlarms = s.levelAlarms := rfl
@[simp] theorem State.setTxn_clk (t : TxnKey) (x : Txn) : (s.setTxn t x).clk = s.clk := rfl
@[simp] theorem State.setTxn_nv (t : TxnKey) (x : Txn) : (s.setTxn t x).nv = s.nv := rfl
@[simp] theorem State.setTxn_boot (t : TxnKey) (x : Txn) : (s.setTxn t x).boot = s.boot := rfl
@[simp] theorem State.setTxn_pwr (t : TxnKey) (x : Txn) : (s.setTxn t x).pwr = s.pwr := rfl
@[simp] theorem State.setTxn_ember (t : TxnKey) (x : Txn) : (s.setTxn t x).ember = s.ember := rfl
@[simp] theorem State.setTxn_pairs (t : TxnKey) (x : Txn) : (s.setTxn t x).pairs = s.pairs := rfl
@[simp] theorem State.setTxn_mgmt (t : TxnKey) (x : Txn) : (s.setTxn t x).mgmt = s.mgmt := rfl
@[simp] theorem State.setTxn_bist (t : TxnKey) (x : Txn) : (s.setTxn t x).bist = s.bist := rfl
@[simp] theorem State.setTxn_host (t : TxnKey) (x : Txn) : (s.setTxn t x).host = s.host := rfl

/-! ### setDcLine -/

@[simp] theorem State.setDcLine_pending (m line : Nat) (l : DcLine) : (s.setDcLine m line l).pending = s.pending := rfl
@[simp] theorem State.setDcLine_ns (m line : Nat) (l : DcLine) : (s.setDcLine m line l).ns = s.ns := rfl
@[simp] theorem State.setDcLine_free (m line : Nat) (l : DcLine) : (s.setDcLine m line l).free = s.free := rfl
@[simp] theorem State.setDcLine_partId (m line : Nat) (l : DcLine) : (s.setDcLine m line l).partId = s.partId := rfl
@[simp] theorem State.setDcLine_serialNo (m line : Nat) (l : DcLine) : (s.setDcLine m line l).serialNo = s.serialNo := rfl
@[simp] theorem State.setDcLine_fuses (m line : Nat) (l : DcLine) : (s.setDcLine m line l).fuses = s.fuses := rfl
@[simp] theorem State.setDcLine_out (m line : Nat) (l : DcLine) : (s.setDcLine m line l).out = s.out := rfl
@[simp] theorem State.setDcLine_regs (m line : Nat) (l : DcLine) : (s.setDcLine m line l).regs = s.regs := rfl
@[simp] theorem State.setDcLine_hiRec (m line : Nat) (l : DcLine) : (s.setDcLine m line l).hiRec = s.hiRec := rfl
@[simp] theorem State.setDcLine_design (m line : Nat) (l : DcLine) : (s.setDcLine m line l).design = s.design := rfl
@[simp] theorem State.setDcLine_fab (m line : Nat) (l : DcLine) : (s.setDcLine m line l).fab = s.fab := rfl
@[simp] theorem State.setDcLine_integ (m line : Nat) (l : DcLine) : (s.setDcLine m line l).integ = s.integ := rfl
@[simp] theorem State.setDcLine_engs (m line : Nat) (l : DcLine) : (s.setDcLine m line l).engs = s.engs := rfl
@[simp] theorem State.setDcLine_rings (m line : Nat) (l : DcLine) : (s.setDcLine m line l).rings = s.rings := rfl
@[simp] theorem State.setDcLine_dram (m line : Nat) (l : DcLine) : (s.setDcLine m line l).dram = s.dram := rfl
@[simp] theorem State.setDcLine_keys (m line : Nat) (l : DcLine) : (s.setDcLine m line l).keys = s.keys := rfl
@[simp] theorem State.setDcLine_chk (m line : Nat) (l : DcLine) : (s.setDcLine m line l).chk = s.chk := rfl
@[simp] theorem State.setDcLine_mbx (m line : Nat) (l : DcLine) : (s.setDcLine m line l).mbx = s.mbx := rfl
@[simp] theorem State.setDcLine_wicks (m line : Nat) (l : DcLine) : (s.setDcLine m line l).wicks = s.wicks := rfl
@[simp] theorem State.setDcLine_uci (m line : Nat) (l : DcLine) : (s.setDcLine m line l).uci = s.uci := rfl
@[simp] theorem State.setDcLine_lanes (m line : Nat) (l : DcLine) : (s.setDcLine m line l).lanes = s.lanes := rfl
@[simp] theorem State.setDcLine_laneGroups (m line : Nat) (l : DcLine) : (s.setDcLine m line l).laneGroups = s.laneGroups := rfl
@[simp] theorem State.setDcLine_tq (m line : Nat) (l : DcLine) : (s.setDcLine m line l).tq = s.tq := rfl
@[simp] theorem State.setDcLine_fns (m line : Nat) (l : DcLine) : (s.setDcLine m line l).fns = s.fns := rfl
@[simp] theorem State.setDcLine_msixPend (m line : Nat) (l : DcLine) : (s.setDcLine m line l).msixPend = s.msixPend := rfl
@[simp] theorem State.setDcLine_alarms (m line : Nat) (l : DcLine) : (s.setDcLine m line l).alarms = s.alarms := rfl
@[simp] theorem State.setDcLine_levelAlarms (m line : Nat) (l : DcLine) : (s.setDcLine m line l).levelAlarms = s.levelAlarms := rfl
@[simp] theorem State.setDcLine_clk (m line : Nat) (l : DcLine) : (s.setDcLine m line l).clk = s.clk := rfl
@[simp] theorem State.setDcLine_nv (m line : Nat) (l : DcLine) : (s.setDcLine m line l).nv = s.nv := rfl
@[simp] theorem State.setDcLine_boot (m line : Nat) (l : DcLine) : (s.setDcLine m line l).boot = s.boot := rfl
@[simp] theorem State.setDcLine_pwr (m line : Nat) (l : DcLine) : (s.setDcLine m line l).pwr = s.pwr := rfl
@[simp] theorem State.setDcLine_ember (m line : Nat) (l : DcLine) : (s.setDcLine m line l).ember = s.ember := rfl
@[simp] theorem State.setDcLine_pairs (m line : Nat) (l : DcLine) : (s.setDcLine m line l).pairs = s.pairs := rfl
@[simp] theorem State.setDcLine_mgmt (m line : Nat) (l : DcLine) : (s.setDcLine m line l).mgmt = s.mgmt := rfl
@[simp] theorem State.setDcLine_bist (m line : Nat) (l : DcLine) : (s.setDcLine m line l).bist = s.bist := rfl
@[simp] theorem State.setDcLine_host (m line : Nat) (l : DcLine) : (s.setDcLine m line l).host = s.host := rfl

/-! ### setCb -/

@[simp] theorem State.setCb_pending (c : Nat) (f : Fld) (n : Nat) : (s.setCb c f n).pending = s.pending := rfl
@[simp] theorem State.setCb_ns (c : Nat) (f : Fld) (n : Nat) : (s.setCb c f n).ns = s.ns := rfl
@[simp] theorem State.setCb_free (c : Nat) (f : Fld) (n : Nat) : (s.setCb c f n).free = s.free := rfl
@[simp] theorem State.setCb_partId (c : Nat) (f : Fld) (n : Nat) : (s.setCb c f n).partId = s.partId := rfl
@[simp] theorem State.setCb_serialNo (c : Nat) (f : Fld) (n : Nat) : (s.setCb c f n).serialNo = s.serialNo := rfl
@[simp] theorem State.setCb_fuses (c : Nat) (f : Fld) (n : Nat) : (s.setCb c f n).fuses = s.fuses := rfl
@[simp] theorem State.setCb_out (c : Nat) (f : Fld) (n : Nat) : (s.setCb c f n).out = s.out := rfl
@[simp] theorem State.setCb_hiRec (c : Nat) (f : Fld) (n : Nat) : (s.setCb c f n).hiRec = s.hiRec := rfl
@[simp] theorem State.setCb_design (c : Nat) (f : Fld) (n : Nat) : (s.setCb c f n).design = s.design := rfl
@[simp] theorem State.setCb_fab (c : Nat) (f : Fld) (n : Nat) : (s.setCb c f n).fab = s.fab := rfl
@[simp] theorem State.setCb_integ (c : Nat) (f : Fld) (n : Nat) : (s.setCb c f n).integ = s.integ := rfl
@[simp] theorem State.setCb_engs (c : Nat) (f : Fld) (n : Nat) : (s.setCb c f n).engs = s.engs := rfl
@[simp] theorem State.setCb_rings (c : Nat) (f : Fld) (n : Nat) : (s.setCb c f n).rings = s.rings := rfl
@[simp] theorem State.setCb_coh (c : Nat) (f : Fld) (n : Nat) : (s.setCb c f n).coh = s.coh := rfl
@[simp] theorem State.setCb_dram (c : Nat) (f : Fld) (n : Nat) : (s.setCb c f n).dram = s.dram := rfl
@[simp] theorem State.setCb_keys (c : Nat) (f : Fld) (n : Nat) : (s.setCb c f n).keys = s.keys := rfl
@[simp] theorem State.setCb_chk (c : Nat) (f : Fld) (n : Nat) : (s.setCb c f n).chk = s.chk := rfl
@[simp] theorem State.setCb_mbx (c : Nat) (f : Fld) (n : Nat) : (s.setCb c f n).mbx = s.mbx := rfl
@[simp] theorem State.setCb_wicks (c : Nat) (f : Fld) (n : Nat) : (s.setCb c f n).wicks = s.wicks := rfl
@[simp] theorem State.setCb_uci (c : Nat) (f : Fld) (n : Nat) : (s.setCb c f n).uci = s.uci := rfl
@[simp] theorem State.setCb_lanes (c : Nat) (f : Fld) (n : Nat) : (s.setCb c f n).lanes = s.lanes := rfl
@[simp] theorem State.setCb_laneGroups (c : Nat) (f : Fld) (n : Nat) : (s.setCb c f n).laneGroups = s.laneGroups := rfl
@[simp] theorem State.setCb_tq (c : Nat) (f : Fld) (n : Nat) : (s.setCb c f n).tq = s.tq := rfl
@[simp] theorem State.setCb_fns (c : Nat) (f : Fld) (n : Nat) : (s.setCb c f n).fns = s.fns := rfl
@[simp] theorem State.setCb_msixPend (c : Nat) (f : Fld) (n : Nat) : (s.setCb c f n).msixPend = s.msixPend := rfl
@[simp] theorem State.setCb_alarms (c : Nat) (f : Fld) (n : Nat) : (s.setCb c f n).alarms = s.alarms := rfl
@[simp] theorem State.setCb_levelAlarms (c : Nat) (f : Fld) (n : Nat) : (s.setCb c f n).levelAlarms = s.levelAlarms := rfl
@[simp] theorem State.setCb_clk (c : Nat) (f : Fld) (n : Nat) : (s.setCb c f n).clk = s.clk := rfl
@[simp] theorem State.setCb_nv (c : Nat) (f : Fld) (n : Nat) : (s.setCb c f n).nv = s.nv := rfl
@[simp] theorem State.setCb_boot (c : Nat) (f : Fld) (n : Nat) : (s.setCb c f n).boot = s.boot := rfl
@[simp] theorem State.setCb_pwr (c : Nat) (f : Fld) (n : Nat) : (s.setCb c f n).pwr = s.pwr := rfl
@[simp] theorem State.setCb_ember (c : Nat) (f : Fld) (n : Nat) : (s.setCb c f n).ember = s.ember := rfl
@[simp] theorem State.setCb_pairs (c : Nat) (f : Fld) (n : Nat) : (s.setCb c f n).pairs = s.pairs := rfl
@[simp] theorem State.setCb_mgmt (c : Nat) (f : Fld) (n : Nat) : (s.setCb c f n).mgmt = s.mgmt := rfl
@[simp] theorem State.setCb_bist (c : Nat) (f : Fld) (n : Nat) : (s.setCb c f n).bist = s.bist := rfl
@[simp] theorem State.setCb_host (c : Nat) (f : Fld) (n : Nat) : (s.setCb c f n).host = s.host := rfl

/-! ### setSlotState -/

@[simp] theorem State.setSlotState_pending (k n : Nat) : (s.setSlotState k n).pending = s.pending := rfl
@[simp] theorem State.setSlotState_ns (k n : Nat) : (s.setSlotState k n).ns = s.ns := rfl
@[simp] theorem State.setSlotState_free (k n : Nat) : (s.setSlotState k n).free = s.free := rfl
@[simp] theorem State.setSlotState_partId (k n : Nat) : (s.setSlotState k n).partId = s.partId := rfl
@[simp] theorem State.setSlotState_serialNo (k n : Nat) : (s.setSlotState k n).serialNo = s.serialNo := rfl
@[simp] theorem State.setSlotState_fuses (k n : Nat) : (s.setSlotState k n).fuses = s.fuses := rfl
@[simp] theorem State.setSlotState_out (k n : Nat) : (s.setSlotState k n).out = s.out := rfl
@[simp] theorem State.setSlotState_hiRec (k n : Nat) : (s.setSlotState k n).hiRec = s.hiRec := rfl
@[simp] theorem State.setSlotState_design (k n : Nat) : (s.setSlotState k n).design = s.design := rfl
@[simp] theorem State.setSlotState_fab (k n : Nat) : (s.setSlotState k n).fab = s.fab := rfl
@[simp] theorem State.setSlotState_integ (k n : Nat) : (s.setSlotState k n).integ = s.integ := rfl
@[simp] theorem State.setSlotState_engs (k n : Nat) : (s.setSlotState k n).engs = s.engs := rfl
@[simp] theorem State.setSlotState_rings (k n : Nat) : (s.setSlotState k n).rings = s.rings := rfl
@[simp] theorem State.setSlotState_coh (k n : Nat) : (s.setSlotState k n).coh = s.coh := rfl
@[simp] theorem State.setSlotState_dram (k n : Nat) : (s.setSlotState k n).dram = s.dram := rfl
@[simp] theorem State.setSlotState_keys (k n : Nat) : (s.setSlotState k n).keys = s.keys := rfl
@[simp] theorem State.setSlotState_chk (k n : Nat) : (s.setSlotState k n).chk = s.chk := rfl
@[simp] theorem State.setSlotState_mbx (k n : Nat) : (s.setSlotState k n).mbx = s.mbx := rfl
@[simp] theorem State.setSlotState_wicks (k n : Nat) : (s.setSlotState k n).wicks = s.wicks := rfl
@[simp] theorem State.setSlotState_uci (k n : Nat) : (s.setSlotState k n).uci = s.uci := rfl
@[simp] theorem State.setSlotState_lanes (k n : Nat) : (s.setSlotState k n).lanes = s.lanes := rfl
@[simp] theorem State.setSlotState_laneGroups (k n : Nat) : (s.setSlotState k n).laneGroups = s.laneGroups := rfl
@[simp] theorem State.setSlotState_tq (k n : Nat) : (s.setSlotState k n).tq = s.tq := rfl
@[simp] theorem State.setSlotState_fns (k n : Nat) : (s.setSlotState k n).fns = s.fns := rfl
@[simp] theorem State.setSlotState_msixPend (k n : Nat) : (s.setSlotState k n).msixPend = s.msixPend := rfl
@[simp] theorem State.setSlotState_alarms (k n : Nat) : (s.setSlotState k n).alarms = s.alarms := rfl
@[simp] theorem State.setSlotState_levelAlarms (k n : Nat) : (s.setSlotState k n).levelAlarms = s.levelAlarms := rfl
@[simp] theorem State.setSlotState_clk (k n : Nat) : (s.setSlotState k n).clk = s.clk := rfl
@[simp] theorem State.setSlotState_nv (k n : Nat) : (s.setSlotState k n).nv = s.nv := rfl
@[simp] theorem State.setSlotState_boot (k n : Nat) : (s.setSlotState k n).boot = s.boot := rfl
@[simp] theorem State.setSlotState_pwr (k n : Nat) : (s.setSlotState k n).pwr = s.pwr := rfl
@[simp] theorem State.setSlotState_ember (k n : Nat) : (s.setSlotState k n).ember = s.ember := rfl
@[simp] theorem State.setSlotState_pairs (k n : Nat) : (s.setSlotState k n).pairs = s.pairs := rfl
@[simp] theorem State.setSlotState_mgmt (k n : Nat) : (s.setSlotState k n).mgmt = s.mgmt := rfl
@[simp] theorem State.setSlotState_bist (k n : Nat) : (s.setSlotState k n).bist = s.bist := rfl
@[simp] theorem State.setSlotState_host (k n : Nat) : (s.setSlotState k n).host = s.host := rfl

/-! ### setLane -/

@[simp] theorem State.setLane_pending (l : Nat) (x : Lane) : (s.setLane l x).pending = s.pending := rfl
@[simp] theorem State.setLane_ns (l : Nat) (x : Lane) : (s.setLane l x).ns = s.ns := rfl
@[simp] theorem State.setLane_free (l : Nat) (x : Lane) : (s.setLane l x).free = s.free := rfl
@[simp] theorem State.setLane_partId (l : Nat) (x : Lane) : (s.setLane l x).partId = s.partId := rfl
@[simp] theorem State.setLane_serialNo (l : Nat) (x : Lane) : (s.setLane l x).serialNo = s.serialNo := rfl
@[simp] theorem State.setLane_fuses (l : Nat) (x : Lane) : (s.setLane l x).fuses = s.fuses := rfl
@[simp] theorem State.setLane_out (l : Nat) (x : Lane) : (s.setLane l x).out = s.out := rfl
@[simp] theorem State.setLane_regs (l : Nat) (x : Lane) : (s.setLane l x).regs = s.regs := rfl
@[simp] theorem State.setLane_hiRec (l : Nat) (x : Lane) : (s.setLane l x).hiRec = s.hiRec := rfl
@[simp] theorem State.setLane_design (l : Nat) (x : Lane) : (s.setLane l x).design = s.design := rfl
@[simp] theorem State.setLane_fab (l : Nat) (x : Lane) : (s.setLane l x).fab = s.fab := rfl
@[simp] theorem State.setLane_integ (l : Nat) (x : Lane) : (s.setLane l x).integ = s.integ := rfl
@[simp] theorem State.setLane_engs (l : Nat) (x : Lane) : (s.setLane l x).engs = s.engs := rfl
@[simp] theorem State.setLane_rings (l : Nat) (x : Lane) : (s.setLane l x).rings = s.rings := rfl
@[simp] theorem State.setLane_coh (l : Nat) (x : Lane) : (s.setLane l x).coh = s.coh := rfl
@[simp] theorem State.setLane_dram (l : Nat) (x : Lane) : (s.setLane l x).dram = s.dram := rfl
@[simp] theorem State.setLane_keys (l : Nat) (x : Lane) : (s.setLane l x).keys = s.keys := rfl
@[simp] theorem State.setLane_chk (l : Nat) (x : Lane) : (s.setLane l x).chk = s.chk := rfl
@[simp] theorem State.setLane_mbx (l : Nat) (x : Lane) : (s.setLane l x).mbx = s.mbx := rfl
@[simp] theorem State.setLane_wicks (l : Nat) (x : Lane) : (s.setLane l x).wicks = s.wicks := rfl
@[simp] theorem State.setLane_uci (l : Nat) (x : Lane) : (s.setLane l x).uci = s.uci := rfl
@[simp] theorem State.setLane_laneGroups (l : Nat) (x : Lane) : (s.setLane l x).laneGroups = s.laneGroups := rfl
@[simp] theorem State.setLane_tq (l : Nat) (x : Lane) : (s.setLane l x).tq = s.tq := rfl
@[simp] theorem State.setLane_fns (l : Nat) (x : Lane) : (s.setLane l x).fns = s.fns := rfl
@[simp] theorem State.setLane_msixPend (l : Nat) (x : Lane) : (s.setLane l x).msixPend = s.msixPend := rfl
@[simp] theorem State.setLane_alarms (l : Nat) (x : Lane) : (s.setLane l x).alarms = s.alarms := rfl
@[simp] theorem State.setLane_levelAlarms (l : Nat) (x : Lane) : (s.setLane l x).levelAlarms = s.levelAlarms := rfl
@[simp] theorem State.setLane_clk (l : Nat) (x : Lane) : (s.setLane l x).clk = s.clk := rfl
@[simp] theorem State.setLane_nv (l : Nat) (x : Lane) : (s.setLane l x).nv = s.nv := rfl
@[simp] theorem State.setLane_boot (l : Nat) (x : Lane) : (s.setLane l x).boot = s.boot := rfl
@[simp] theorem State.setLane_pwr (l : Nat) (x : Lane) : (s.setLane l x).pwr = s.pwr := rfl
@[simp] theorem State.setLane_ember (l : Nat) (x : Lane) : (s.setLane l x).ember = s.ember := rfl
@[simp] theorem State.setLane_pairs (l : Nat) (x : Lane) : (s.setLane l x).pairs = s.pairs := rfl
@[simp] theorem State.setLane_mgmt (l : Nat) (x : Lane) : (s.setLane l x).mgmt = s.mgmt := rfl
@[simp] theorem State.setLane_bist (l : Nat) (x : Lane) : (s.setLane l x).bist = s.bist := rfl
@[simp] theorem State.setLane_host (l : Nat) (x : Lane) : (s.setLane l x).host = s.host := rfl

/-! ### setSpan -/

@[simp] theorem State.setSpan_pending (sp : Nat) (x : SpanState) : (s.setSpan sp x).pending = s.pending := rfl
@[simp] theorem State.setSpan_ns (sp : Nat) (x : SpanState) : (s.setSpan sp x).ns = s.ns := rfl
@[simp] theorem State.setSpan_free (sp : Nat) (x : SpanState) : (s.setSpan sp x).free = s.free := rfl
@[simp] theorem State.setSpan_partId (sp : Nat) (x : SpanState) : (s.setSpan sp x).partId = s.partId := rfl
@[simp] theorem State.setSpan_serialNo (sp : Nat) (x : SpanState) : (s.setSpan sp x).serialNo = s.serialNo := rfl
@[simp] theorem State.setSpan_fuses (sp : Nat) (x : SpanState) : (s.setSpan sp x).fuses = s.fuses := rfl
@[simp] theorem State.setSpan_out (sp : Nat) (x : SpanState) : (s.setSpan sp x).out = s.out := rfl
@[simp] theorem State.setSpan_regs (sp : Nat) (x : SpanState) : (s.setSpan sp x).regs = s.regs := rfl
@[simp] theorem State.setSpan_hiRec (sp : Nat) (x : SpanState) : (s.setSpan sp x).hiRec = s.hiRec := rfl
@[simp] theorem State.setSpan_design (sp : Nat) (x : SpanState) : (s.setSpan sp x).design = s.design := rfl
@[simp] theorem State.setSpan_fab (sp : Nat) (x : SpanState) : (s.setSpan sp x).fab = s.fab := rfl
@[simp] theorem State.setSpan_integ (sp : Nat) (x : SpanState) : (s.setSpan sp x).integ = s.integ := rfl
@[simp] theorem State.setSpan_engs (sp : Nat) (x : SpanState) : (s.setSpan sp x).engs = s.engs := rfl
@[simp] theorem State.setSpan_rings (sp : Nat) (x : SpanState) : (s.setSpan sp x).rings = s.rings := rfl
@[simp] theorem State.setSpan_coh (sp : Nat) (x : SpanState) : (s.setSpan sp x).coh = s.coh := rfl
@[simp] theorem State.setSpan_dram (sp : Nat) (x : SpanState) : (s.setSpan sp x).dram = s.dram := rfl
@[simp] theorem State.setSpan_keys (sp : Nat) (x : SpanState) : (s.setSpan sp x).keys = s.keys := rfl
@[simp] theorem State.setSpan_chk (sp : Nat) (x : SpanState) : (s.setSpan sp x).chk = s.chk := rfl
@[simp] theorem State.setSpan_mbx (sp : Nat) (x : SpanState) : (s.setSpan sp x).mbx = s.mbx := rfl
@[simp] theorem State.setSpan_wicks (sp : Nat) (x : SpanState) : (s.setSpan sp x).wicks = s.wicks := rfl
@[simp] theorem State.setSpan_uci (sp : Nat) (x : SpanState) : (s.setSpan sp x).uci = s.uci := rfl
@[simp] theorem State.setSpan_lanes (sp : Nat) (x : SpanState) : (s.setSpan sp x).lanes = s.lanes := rfl
@[simp] theorem State.setSpan_laneGroups (sp : Nat) (x : SpanState) : (s.setSpan sp x).laneGroups = s.laneGroups := rfl
@[simp] theorem State.setSpan_fns (sp : Nat) (x : SpanState) : (s.setSpan sp x).fns = s.fns := rfl
@[simp] theorem State.setSpan_msixPend (sp : Nat) (x : SpanState) : (s.setSpan sp x).msixPend = s.msixPend := rfl
@[simp] theorem State.setSpan_alarms (sp : Nat) (x : SpanState) : (s.setSpan sp x).alarms = s.alarms := rfl
@[simp] theorem State.setSpan_levelAlarms (sp : Nat) (x : SpanState) : (s.setSpan sp x).levelAlarms = s.levelAlarms := rfl
@[simp] theorem State.setSpan_clk (sp : Nat) (x : SpanState) : (s.setSpan sp x).clk = s.clk := rfl
@[simp] theorem State.setSpan_nv (sp : Nat) (x : SpanState) : (s.setSpan sp x).nv = s.nv := rfl
@[simp] theorem State.setSpan_boot (sp : Nat) (x : SpanState) : (s.setSpan sp x).boot = s.boot := rfl
@[simp] theorem State.setSpan_pwr (sp : Nat) (x : SpanState) : (s.setSpan sp x).pwr = s.pwr := rfl
@[simp] theorem State.setSpan_ember (sp : Nat) (x : SpanState) : (s.setSpan sp x).ember = s.ember := rfl
@[simp] theorem State.setSpan_pairs (sp : Nat) (x : SpanState) : (s.setSpan sp x).pairs = s.pairs := rfl
@[simp] theorem State.setSpan_mgmt (sp : Nat) (x : SpanState) : (s.setSpan sp x).mgmt = s.mgmt := rfl
@[simp] theorem State.setSpan_bist (sp : Nat) (x : SpanState) : (s.setSpan sp x).bist = s.bist := rfl
@[simp] theorem State.setSpan_host (sp : Nat) (x : SpanState) : (s.setSpan sp x).host = s.host := rfl

/-! ### setQueue -/

@[simp] theorem State.setQueue_pending (q : Nat) (x : LinkQueue) : (s.setQueue q x).pending = s.pending := rfl
@[simp] theorem State.setQueue_ns (q : Nat) (x : LinkQueue) : (s.setQueue q x).ns = s.ns := rfl
@[simp] theorem State.setQueue_free (q : Nat) (x : LinkQueue) : (s.setQueue q x).free = s.free := rfl
@[simp] theorem State.setQueue_partId (q : Nat) (x : LinkQueue) : (s.setQueue q x).partId = s.partId := rfl
@[simp] theorem State.setQueue_serialNo (q : Nat) (x : LinkQueue) : (s.setQueue q x).serialNo = s.serialNo := rfl
@[simp] theorem State.setQueue_fuses (q : Nat) (x : LinkQueue) : (s.setQueue q x).fuses = s.fuses := rfl
@[simp] theorem State.setQueue_out (q : Nat) (x : LinkQueue) : (s.setQueue q x).out = s.out := rfl
@[simp] theorem State.setQueue_regs (q : Nat) (x : LinkQueue) : (s.setQueue q x).regs = s.regs := rfl
@[simp] theorem State.setQueue_hiRec (q : Nat) (x : LinkQueue) : (s.setQueue q x).hiRec = s.hiRec := rfl
@[simp] theorem State.setQueue_design (q : Nat) (x : LinkQueue) : (s.setQueue q x).design = s.design := rfl
@[simp] theorem State.setQueue_fab (q : Nat) (x : LinkQueue) : (s.setQueue q x).fab = s.fab := rfl
@[simp] theorem State.setQueue_integ (q : Nat) (x : LinkQueue) : (s.setQueue q x).integ = s.integ := rfl
@[simp] theorem State.setQueue_engs (q : Nat) (x : LinkQueue) : (s.setQueue q x).engs = s.engs := rfl
@[simp] theorem State.setQueue_rings (q : Nat) (x : LinkQueue) : (s.setQueue q x).rings = s.rings := rfl
@[simp] theorem State.setQueue_coh (q : Nat) (x : LinkQueue) : (s.setQueue q x).coh = s.coh := rfl
@[simp] theorem State.setQueue_dram (q : Nat) (x : LinkQueue) : (s.setQueue q x).dram = s.dram := rfl
@[simp] theorem State.setQueue_keys (q : Nat) (x : LinkQueue) : (s.setQueue q x).keys = s.keys := rfl
@[simp] theorem State.setQueue_chk (q : Nat) (x : LinkQueue) : (s.setQueue q x).chk = s.chk := rfl
@[simp] theorem State.setQueue_mbx (q : Nat) (x : LinkQueue) : (s.setQueue q x).mbx = s.mbx := rfl
@[simp] theorem State.setQueue_wicks (q : Nat) (x : LinkQueue) : (s.setQueue q x).wicks = s.wicks := rfl
@[simp] theorem State.setQueue_uci (q : Nat) (x : LinkQueue) : (s.setQueue q x).uci = s.uci := rfl
@[simp] theorem State.setQueue_lanes (q : Nat) (x : LinkQueue) : (s.setQueue q x).lanes = s.lanes := rfl
@[simp] theorem State.setQueue_laneGroups (q : Nat) (x : LinkQueue) : (s.setQueue q x).laneGroups = s.laneGroups := rfl
@[simp] theorem State.setQueue_fns (q : Nat) (x : LinkQueue) : (s.setQueue q x).fns = s.fns := rfl
@[simp] theorem State.setQueue_msixPend (q : Nat) (x : LinkQueue) : (s.setQueue q x).msixPend = s.msixPend := rfl
@[simp] theorem State.setQueue_alarms (q : Nat) (x : LinkQueue) : (s.setQueue q x).alarms = s.alarms := rfl
@[simp] theorem State.setQueue_levelAlarms (q : Nat) (x : LinkQueue) : (s.setQueue q x).levelAlarms = s.levelAlarms := rfl
@[simp] theorem State.setQueue_clk (q : Nat) (x : LinkQueue) : (s.setQueue q x).clk = s.clk := rfl
@[simp] theorem State.setQueue_nv (q : Nat) (x : LinkQueue) : (s.setQueue q x).nv = s.nv := rfl
@[simp] theorem State.setQueue_boot (q : Nat) (x : LinkQueue) : (s.setQueue q x).boot = s.boot := rfl
@[simp] theorem State.setQueue_pwr (q : Nat) (x : LinkQueue) : (s.setQueue q x).pwr = s.pwr := rfl
@[simp] theorem State.setQueue_ember (q : Nat) (x : LinkQueue) : (s.setQueue q x).ember = s.ember := rfl
@[simp] theorem State.setQueue_pairs (q : Nat) (x : LinkQueue) : (s.setQueue q x).pairs = s.pairs := rfl
@[simp] theorem State.setQueue_mgmt (q : Nat) (x : LinkQueue) : (s.setQueue q x).mgmt = s.mgmt := rfl
@[simp] theorem State.setQueue_bist (q : Nat) (x : LinkQueue) : (s.setQueue q x).bist = s.bist := rfl
@[simp] theorem State.setQueue_host (q : Nat) (x : LinkQueue) : (s.setQueue q x).host = s.host := rfl

/-! ### setNet -/

@[simp] theorem State.setNet_pending (n : Net) : (s.setNet n).pending = s.pending := rfl
@[simp] theorem State.setNet_ns (n : Net) : (s.setNet n).ns = s.ns := rfl
@[simp] theorem State.setNet_free (n : Net) : (s.setNet n).free = s.free := rfl
@[simp] theorem State.setNet_partId (n : Net) : (s.setNet n).partId = s.partId := rfl
@[simp] theorem State.setNet_serialNo (n : Net) : (s.setNet n).serialNo = s.serialNo := rfl
@[simp] theorem State.setNet_fuses (n : Net) : (s.setNet n).fuses = s.fuses := rfl
@[simp] theorem State.setNet_out (n : Net) : (s.setNet n).out = s.out := rfl
@[simp] theorem State.setNet_regs (n : Net) : (s.setNet n).regs = s.regs := rfl
@[simp] theorem State.setNet_hiRec (n : Net) : (s.setNet n).hiRec = s.hiRec := rfl
@[simp] theorem State.setNet_design (n : Net) : (s.setNet n).design = s.design := rfl
@[simp] theorem State.setNet_fab (n : Net) : (s.setNet n).fab = s.fab := rfl
@[simp] theorem State.setNet_integ (n : Net) : (s.setNet n).integ = s.integ := rfl
@[simp] theorem State.setNet_engs (n : Net) : (s.setNet n).engs = s.engs := rfl
@[simp] theorem State.setNet_rings (n : Net) : (s.setNet n).rings = s.rings := rfl
@[simp] theorem State.setNet_coh (n : Net) : (s.setNet n).coh = s.coh := rfl
@[simp] theorem State.setNet_dram (n : Net) : (s.setNet n).dram = s.dram := rfl
@[simp] theorem State.setNet_keys (n : Net) : (s.setNet n).keys = s.keys := rfl
@[simp] theorem State.setNet_chk (n : Net) : (s.setNet n).chk = s.chk := rfl
@[simp] theorem State.setNet_mbx (n : Net) : (s.setNet n).mbx = s.mbx := rfl
@[simp] theorem State.setNet_wicks (n : Net) : (s.setNet n).wicks = s.wicks := rfl
@[simp] theorem State.setNet_uci (n : Net) : (s.setNet n).uci = s.uci := rfl
@[simp] theorem State.setNet_lanes (n : Net) : (s.setNet n).lanes = s.lanes := rfl
@[simp] theorem State.setNet_laneGroups (n : Net) : (s.setNet n).laneGroups = s.laneGroups := rfl
@[simp] theorem State.setNet_fns (n : Net) : (s.setNet n).fns = s.fns := rfl
@[simp] theorem State.setNet_msixPend (n : Net) : (s.setNet n).msixPend = s.msixPend := rfl
@[simp] theorem State.setNet_alarms (n : Net) : (s.setNet n).alarms = s.alarms := rfl
@[simp] theorem State.setNet_levelAlarms (n : Net) : (s.setNet n).levelAlarms = s.levelAlarms := rfl
@[simp] theorem State.setNet_clk (n : Net) : (s.setNet n).clk = s.clk := rfl
@[simp] theorem State.setNet_nv (n : Net) : (s.setNet n).nv = s.nv := rfl
@[simp] theorem State.setNet_boot (n : Net) : (s.setNet n).boot = s.boot := rfl
@[simp] theorem State.setNet_pwr (n : Net) : (s.setNet n).pwr = s.pwr := rfl
@[simp] theorem State.setNet_ember (n : Net) : (s.setNet n).ember = s.ember := rfl
@[simp] theorem State.setNet_pairs (n : Net) : (s.setNet n).pairs = s.pairs := rfl
@[simp] theorem State.setNet_mgmt (n : Net) : (s.setNet n).mgmt = s.mgmt := rfl
@[simp] theorem State.setNet_bist (n : Net) : (s.setNet n).bist = s.bist := rfl
@[simp] theorem State.setNet_host (n : Net) : (s.setNet n).host = s.host := rfl

/-! ### setUciMod -/

@[simp] theorem State.setUciMod_pending (u : Nat) (x : UciState) : (s.setUciMod u x).pending = s.pending := rfl
@[simp] theorem State.setUciMod_ns (u : Nat) (x : UciState) : (s.setUciMod u x).ns = s.ns := rfl
@[simp] theorem State.setUciMod_free (u : Nat) (x : UciState) : (s.setUciMod u x).free = s.free := rfl
@[simp] theorem State.setUciMod_partId (u : Nat) (x : UciState) : (s.setUciMod u x).partId = s.partId := rfl
@[simp] theorem State.setUciMod_serialNo (u : Nat) (x : UciState) : (s.setUciMod u x).serialNo = s.serialNo := rfl
@[simp] theorem State.setUciMod_fuses (u : Nat) (x : UciState) : (s.setUciMod u x).fuses = s.fuses := rfl
@[simp] theorem State.setUciMod_out (u : Nat) (x : UciState) : (s.setUciMod u x).out = s.out := rfl
@[simp] theorem State.setUciMod_regs (u : Nat) (x : UciState) : (s.setUciMod u x).regs = s.regs := rfl
@[simp] theorem State.setUciMod_hiRec (u : Nat) (x : UciState) : (s.setUciMod u x).hiRec = s.hiRec := rfl
@[simp] theorem State.setUciMod_design (u : Nat) (x : UciState) : (s.setUciMod u x).design = s.design := rfl
@[simp] theorem State.setUciMod_fab (u : Nat) (x : UciState) : (s.setUciMod u x).fab = s.fab := rfl
@[simp] theorem State.setUciMod_integ (u : Nat) (x : UciState) : (s.setUciMod u x).integ = s.integ := rfl
@[simp] theorem State.setUciMod_engs (u : Nat) (x : UciState) : (s.setUciMod u x).engs = s.engs := rfl
@[simp] theorem State.setUciMod_rings (u : Nat) (x : UciState) : (s.setUciMod u x).rings = s.rings := rfl
@[simp] theorem State.setUciMod_coh (u : Nat) (x : UciState) : (s.setUciMod u x).coh = s.coh := rfl
@[simp] theorem State.setUciMod_dram (u : Nat) (x : UciState) : (s.setUciMod u x).dram = s.dram := rfl
@[simp] theorem State.setUciMod_keys (u : Nat) (x : UciState) : (s.setUciMod u x).keys = s.keys := rfl
@[simp] theorem State.setUciMod_chk (u : Nat) (x : UciState) : (s.setUciMod u x).chk = s.chk := rfl
@[simp] theorem State.setUciMod_mbx (u : Nat) (x : UciState) : (s.setUciMod u x).mbx = s.mbx := rfl
@[simp] theorem State.setUciMod_wicks (u : Nat) (x : UciState) : (s.setUciMod u x).wicks = s.wicks := rfl
@[simp] theorem State.setUciMod_lanes (u : Nat) (x : UciState) : (s.setUciMod u x).lanes = s.lanes := rfl
@[simp] theorem State.setUciMod_laneGroups (u : Nat) (x : UciState) : (s.setUciMod u x).laneGroups = s.laneGroups := rfl
@[simp] theorem State.setUciMod_tq (u : Nat) (x : UciState) : (s.setUciMod u x).tq = s.tq := rfl
@[simp] theorem State.setUciMod_fns (u : Nat) (x : UciState) : (s.setUciMod u x).fns = s.fns := rfl
@[simp] theorem State.setUciMod_msixPend (u : Nat) (x : UciState) : (s.setUciMod u x).msixPend = s.msixPend := rfl
@[simp] theorem State.setUciMod_alarms (u : Nat) (x : UciState) : (s.setUciMod u x).alarms = s.alarms := rfl
@[simp] theorem State.setUciMod_levelAlarms (u : Nat) (x : UciState) : (s.setUciMod u x).levelAlarms = s.levelAlarms := rfl
@[simp] theorem State.setUciMod_clk (u : Nat) (x : UciState) : (s.setUciMod u x).clk = s.clk := rfl
@[simp] theorem State.setUciMod_nv (u : Nat) (x : UciState) : (s.setUciMod u x).nv = s.nv := rfl
@[simp] theorem State.setUciMod_boot (u : Nat) (x : UciState) : (s.setUciMod u x).boot = s.boot := rfl
@[simp] theorem State.setUciMod_pwr (u : Nat) (x : UciState) : (s.setUciMod u x).pwr = s.pwr := rfl
@[simp] theorem State.setUciMod_ember (u : Nat) (x : UciState) : (s.setUciMod u x).ember = s.ember := rfl
@[simp] theorem State.setUciMod_pairs (u : Nat) (x : UciState) : (s.setUciMod u x).pairs = s.pairs := rfl
@[simp] theorem State.setUciMod_mgmt (u : Nat) (x : UciState) : (s.setUciMod u x).mgmt = s.mgmt := rfl
@[simp] theorem State.setUciMod_bist (u : Nat) (x : UciState) : (s.setUciMod u x).bist = s.bist := rfl
@[simp] theorem State.setUciMod_host (u : Nat) (x : UciState) : (s.setUciMod u x).host = s.host := rfl

/-! ### setUciState -/

@[simp] theorem State.setUciState_pending (u n : Nat) : (s.setUciState u n).pending = s.pending := rfl
@[simp] theorem State.setUciState_ns (u n : Nat) : (s.setUciState u n).ns = s.ns := rfl
@[simp] theorem State.setUciState_free (u n : Nat) : (s.setUciState u n).free = s.free := rfl
@[simp] theorem State.setUciState_partId (u n : Nat) : (s.setUciState u n).partId = s.partId := rfl
@[simp] theorem State.setUciState_serialNo (u n : Nat) : (s.setUciState u n).serialNo = s.serialNo := rfl
@[simp] theorem State.setUciState_fuses (u n : Nat) : (s.setUciState u n).fuses = s.fuses := rfl
@[simp] theorem State.setUciState_out (u n : Nat) : (s.setUciState u n).out = s.out := rfl
@[simp] theorem State.setUciState_hiRec (u n : Nat) : (s.setUciState u n).hiRec = s.hiRec := rfl
@[simp] theorem State.setUciState_design (u n : Nat) : (s.setUciState u n).design = s.design := rfl
@[simp] theorem State.setUciState_fab (u n : Nat) : (s.setUciState u n).fab = s.fab := rfl
@[simp] theorem State.setUciState_integ (u n : Nat) : (s.setUciState u n).integ = s.integ := rfl
@[simp] theorem State.setUciState_engs (u n : Nat) : (s.setUciState u n).engs = s.engs := rfl
@[simp] theorem State.setUciState_rings (u n : Nat) : (s.setUciState u n).rings = s.rings := rfl
@[simp] theorem State.setUciState_coh (u n : Nat) : (s.setUciState u n).coh = s.coh := rfl
@[simp] theorem State.setUciState_dram (u n : Nat) : (s.setUciState u n).dram = s.dram := rfl
@[simp] theorem State.setUciState_keys (u n : Nat) : (s.setUciState u n).keys = s.keys := rfl
@[simp] theorem State.setUciState_chk (u n : Nat) : (s.setUciState u n).chk = s.chk := rfl
@[simp] theorem State.setUciState_mbx (u n : Nat) : (s.setUciState u n).mbx = s.mbx := rfl
@[simp] theorem State.setUciState_wicks (u n : Nat) : (s.setUciState u n).wicks = s.wicks := rfl
@[simp] theorem State.setUciState_uci (u n : Nat) : (s.setUciState u n).uci = s.uci := rfl
@[simp] theorem State.setUciState_lanes (u n : Nat) : (s.setUciState u n).lanes = s.lanes := rfl
@[simp] theorem State.setUciState_laneGroups (u n : Nat) : (s.setUciState u n).laneGroups = s.laneGroups := rfl
@[simp] theorem State.setUciState_tq (u n : Nat) : (s.setUciState u n).tq = s.tq := rfl
@[simp] theorem State.setUciState_fns (u n : Nat) : (s.setUciState u n).fns = s.fns := rfl
@[simp] theorem State.setUciState_msixPend (u n : Nat) : (s.setUciState u n).msixPend = s.msixPend := rfl
@[simp] theorem State.setUciState_alarms (u n : Nat) : (s.setUciState u n).alarms = s.alarms := rfl
@[simp] theorem State.setUciState_levelAlarms (u n : Nat) : (s.setUciState u n).levelAlarms = s.levelAlarms := rfl
@[simp] theorem State.setUciState_clk (u n : Nat) : (s.setUciState u n).clk = s.clk := rfl
@[simp] theorem State.setUciState_nv (u n : Nat) : (s.setUciState u n).nv = s.nv := rfl
@[simp] theorem State.setUciState_boot (u n : Nat) : (s.setUciState u n).boot = s.boot := rfl
@[simp] theorem State.setUciState_pwr (u n : Nat) : (s.setUciState u n).pwr = s.pwr := rfl
@[simp] theorem State.setUciState_ember (u n : Nat) : (s.setUciState u n).ember = s.ember := rfl
@[simp] theorem State.setUciState_pairs (u n : Nat) : (s.setUciState u n).pairs = s.pairs := rfl
@[simp] theorem State.setUciState_mgmt (u n : Nat) : (s.setUciState u n).mgmt = s.mgmt := rfl
@[simp] theorem State.setUciState_bist (u n : Nat) : (s.setUciState u n).bist = s.bist := rfl
@[simp] theorem State.setUciState_host (u n : Nat) : (s.setUciState u n).host = s.host := rfl

/-! ### setNvBlock -/

@[simp] theorem State.setNvBlock_pending (b : Nat) (x : NvBlock) : (s.setNvBlock b x).pending = s.pending := rfl
@[simp] theorem State.setNvBlock_ns (b : Nat) (x : NvBlock) : (s.setNvBlock b x).ns = s.ns := rfl
@[simp] theorem State.setNvBlock_free (b : Nat) (x : NvBlock) : (s.setNvBlock b x).free = s.free := rfl
@[simp] theorem State.setNvBlock_partId (b : Nat) (x : NvBlock) : (s.setNvBlock b x).partId = s.partId := rfl
@[simp] theorem State.setNvBlock_serialNo (b : Nat) (x : NvBlock) : (s.setNvBlock b x).serialNo = s.serialNo := rfl
@[simp] theorem State.setNvBlock_fuses (b : Nat) (x : NvBlock) : (s.setNvBlock b x).fuses = s.fuses := rfl
@[simp] theorem State.setNvBlock_out (b : Nat) (x : NvBlock) : (s.setNvBlock b x).out = s.out := rfl
@[simp] theorem State.setNvBlock_regs (b : Nat) (x : NvBlock) : (s.setNvBlock b x).regs = s.regs := rfl
@[simp] theorem State.setNvBlock_hiRec (b : Nat) (x : NvBlock) : (s.setNvBlock b x).hiRec = s.hiRec := rfl
@[simp] theorem State.setNvBlock_design (b : Nat) (x : NvBlock) : (s.setNvBlock b x).design = s.design := rfl
@[simp] theorem State.setNvBlock_fab (b : Nat) (x : NvBlock) : (s.setNvBlock b x).fab = s.fab := rfl
@[simp] theorem State.setNvBlock_integ (b : Nat) (x : NvBlock) : (s.setNvBlock b x).integ = s.integ := rfl
@[simp] theorem State.setNvBlock_engs (b : Nat) (x : NvBlock) : (s.setNvBlock b x).engs = s.engs := rfl
@[simp] theorem State.setNvBlock_rings (b : Nat) (x : NvBlock) : (s.setNvBlock b x).rings = s.rings := rfl
@[simp] theorem State.setNvBlock_coh (b : Nat) (x : NvBlock) : (s.setNvBlock b x).coh = s.coh := rfl
@[simp] theorem State.setNvBlock_dram (b : Nat) (x : NvBlock) : (s.setNvBlock b x).dram = s.dram := rfl
@[simp] theorem State.setNvBlock_keys (b : Nat) (x : NvBlock) : (s.setNvBlock b x).keys = s.keys := rfl
@[simp] theorem State.setNvBlock_chk (b : Nat) (x : NvBlock) : (s.setNvBlock b x).chk = s.chk := rfl
@[simp] theorem State.setNvBlock_mbx (b : Nat) (x : NvBlock) : (s.setNvBlock b x).mbx = s.mbx := rfl
@[simp] theorem State.setNvBlock_wicks (b : Nat) (x : NvBlock) : (s.setNvBlock b x).wicks = s.wicks := rfl
@[simp] theorem State.setNvBlock_uci (b : Nat) (x : NvBlock) : (s.setNvBlock b x).uci = s.uci := rfl
@[simp] theorem State.setNvBlock_lanes (b : Nat) (x : NvBlock) : (s.setNvBlock b x).lanes = s.lanes := rfl
@[simp] theorem State.setNvBlock_laneGroups (b : Nat) (x : NvBlock) : (s.setNvBlock b x).laneGroups = s.laneGroups := rfl
@[simp] theorem State.setNvBlock_tq (b : Nat) (x : NvBlock) : (s.setNvBlock b x).tq = s.tq := rfl
@[simp] theorem State.setNvBlock_fns (b : Nat) (x : NvBlock) : (s.setNvBlock b x).fns = s.fns := rfl
@[simp] theorem State.setNvBlock_msixPend (b : Nat) (x : NvBlock) : (s.setNvBlock b x).msixPend = s.msixPend := rfl
@[simp] theorem State.setNvBlock_alarms (b : Nat) (x : NvBlock) : (s.setNvBlock b x).alarms = s.alarms := rfl
@[simp] theorem State.setNvBlock_levelAlarms (b : Nat) (x : NvBlock) : (s.setNvBlock b x).levelAlarms = s.levelAlarms := rfl
@[simp] theorem State.setNvBlock_clk (b : Nat) (x : NvBlock) : (s.setNvBlock b x).clk = s.clk := rfl
@[simp] theorem State.setNvBlock_boot (b : Nat) (x : NvBlock) : (s.setNvBlock b x).boot = s.boot := rfl
@[simp] theorem State.setNvBlock_pwr (b : Nat) (x : NvBlock) : (s.setNvBlock b x).pwr = s.pwr := rfl
@[simp] theorem State.setNvBlock_ember (b : Nat) (x : NvBlock) : (s.setNvBlock b x).ember = s.ember := rfl
@[simp] theorem State.setNvBlock_pairs (b : Nat) (x : NvBlock) : (s.setNvBlock b x).pairs = s.pairs := rfl
@[simp] theorem State.setNvBlock_mgmt (b : Nat) (x : NvBlock) : (s.setNvBlock b x).mgmt = s.mgmt := rfl
@[simp] theorem State.setNvBlock_bist (b : Nat) (x : NvBlock) : (s.setNvBlock b x).bist = s.bist := rfl
@[simp] theorem State.setNvBlock_host (b : Nat) (x : NvBlock) : (s.setNvBlock b x).host = s.host := rfl

/-! ### setFlips -/

@[simp] theorem State.setFlips_pending (m f : Nat) (d : BitVec 1920) (c : BitVec 47) : (s.setFlips m f d c).pending = s.pending := rfl
@[simp] theorem State.setFlips_ns (m f : Nat) (d : BitVec 1920) (c : BitVec 47) : (s.setFlips m f d c).ns = s.ns := rfl
@[simp] theorem State.setFlips_free (m f : Nat) (d : BitVec 1920) (c : BitVec 47) : (s.setFlips m f d c).free = s.free := rfl
@[simp] theorem State.setFlips_partId (m f : Nat) (d : BitVec 1920) (c : BitVec 47) : (s.setFlips m f d c).partId = s.partId := rfl
@[simp] theorem State.setFlips_serialNo (m f : Nat) (d : BitVec 1920) (c : BitVec 47) : (s.setFlips m f d c).serialNo = s.serialNo := rfl
@[simp] theorem State.setFlips_fuses (m f : Nat) (d : BitVec 1920) (c : BitVec 47) : (s.setFlips m f d c).fuses = s.fuses := rfl
@[simp] theorem State.setFlips_out (m f : Nat) (d : BitVec 1920) (c : BitVec 47) : (s.setFlips m f d c).out = s.out := rfl
@[simp] theorem State.setFlips_regs (m f : Nat) (d : BitVec 1920) (c : BitVec 47) : (s.setFlips m f d c).regs = s.regs := rfl
@[simp] theorem State.setFlips_hiRec (m f : Nat) (d : BitVec 1920) (c : BitVec 47) : (s.setFlips m f d c).hiRec = s.hiRec := rfl
@[simp] theorem State.setFlips_design (m f : Nat) (d : BitVec 1920) (c : BitVec 47) : (s.setFlips m f d c).design = s.design := rfl
@[simp] theorem State.setFlips_fab (m f : Nat) (d : BitVec 1920) (c : BitVec 47) : (s.setFlips m f d c).fab = s.fab := rfl
@[simp] theorem State.setFlips_engs (m f : Nat) (d : BitVec 1920) (c : BitVec 47) : (s.setFlips m f d c).engs = s.engs := rfl
@[simp] theorem State.setFlips_rings (m f : Nat) (d : BitVec 1920) (c : BitVec 47) : (s.setFlips m f d c).rings = s.rings := rfl
@[simp] theorem State.setFlips_coh (m f : Nat) (d : BitVec 1920) (c : BitVec 47) : (s.setFlips m f d c).coh = s.coh := rfl
@[simp] theorem State.setFlips_dram (m f : Nat) (d : BitVec 1920) (c : BitVec 47) : (s.setFlips m f d c).dram = s.dram := rfl
@[simp] theorem State.setFlips_keys (m f : Nat) (d : BitVec 1920) (c : BitVec 47) : (s.setFlips m f d c).keys = s.keys := rfl
@[simp] theorem State.setFlips_chk (m f : Nat) (d : BitVec 1920) (c : BitVec 47) : (s.setFlips m f d c).chk = s.chk := rfl
@[simp] theorem State.setFlips_mbx (m f : Nat) (d : BitVec 1920) (c : BitVec 47) : (s.setFlips m f d c).mbx = s.mbx := rfl
@[simp] theorem State.setFlips_wicks (m f : Nat) (d : BitVec 1920) (c : BitVec 47) : (s.setFlips m f d c).wicks = s.wicks := rfl
@[simp] theorem State.setFlips_uci (m f : Nat) (d : BitVec 1920) (c : BitVec 47) : (s.setFlips m f d c).uci = s.uci := rfl
@[simp] theorem State.setFlips_lanes (m f : Nat) (d : BitVec 1920) (c : BitVec 47) : (s.setFlips m f d c).lanes = s.lanes := rfl
@[simp] theorem State.setFlips_laneGroups (m f : Nat) (d : BitVec 1920) (c : BitVec 47) : (s.setFlips m f d c).laneGroups = s.laneGroups := rfl
@[simp] theorem State.setFlips_tq (m f : Nat) (d : BitVec 1920) (c : BitVec 47) : (s.setFlips m f d c).tq = s.tq := rfl
@[simp] theorem State.setFlips_fns (m f : Nat) (d : BitVec 1920) (c : BitVec 47) : (s.setFlips m f d c).fns = s.fns := rfl
@[simp] theorem State.setFlips_msixPend (m f : Nat) (d : BitVec 1920) (c : BitVec 47) : (s.setFlips m f d c).msixPend = s.msixPend := rfl
@[simp] theorem State.setFlips_alarms (m f : Nat) (d : BitVec 1920) (c : BitVec 47) : (s.setFlips m f d c).alarms = s.alarms := rfl
@[simp] theorem State.setFlips_levelAlarms (m f : Nat) (d : BitVec 1920) (c : BitVec 47) : (s.setFlips m f d c).levelAlarms = s.levelAlarms := rfl
@[simp] theorem State.setFlips_clk (m f : Nat) (d : BitVec 1920) (c : BitVec 47) : (s.setFlips m f d c).clk = s.clk := rfl
@[simp] theorem State.setFlips_nv (m f : Nat) (d : BitVec 1920) (c : BitVec 47) : (s.setFlips m f d c).nv = s.nv := rfl
@[simp] theorem State.setFlips_boot (m f : Nat) (d : BitVec 1920) (c : BitVec 47) : (s.setFlips m f d c).boot = s.boot := rfl
@[simp] theorem State.setFlips_pwr (m f : Nat) (d : BitVec 1920) (c : BitVec 47) : (s.setFlips m f d c).pwr = s.pwr := rfl
@[simp] theorem State.setFlips_ember (m f : Nat) (d : BitVec 1920) (c : BitVec 47) : (s.setFlips m f d c).ember = s.ember := rfl
@[simp] theorem State.setFlips_pairs (m f : Nat) (d : BitVec 1920) (c : BitVec 47) : (s.setFlips m f d c).pairs = s.pairs := rfl
@[simp] theorem State.setFlips_mgmt (m f : Nat) (d : BitVec 1920) (c : BitVec 47) : (s.setFlips m f d c).mgmt = s.mgmt := rfl
@[simp] theorem State.setFlips_bist (m f : Nat) (d : BitVec 1920) (c : BitVec 47) : (s.setFlips m f d c).bist = s.bist := rfl
@[simp] theorem State.setFlips_host (m f : Nat) (d : BitVec 1920) (c : BitVec 47) : (s.setFlips m f d c).host = s.host := rfl

/-! ### setDemand -/

@[simp] theorem State.setDemand_pending (m n : Nat) : (s.setDemand m n).pending = s.pending := rfl
@[simp] theorem State.setDemand_ns (m n : Nat) : (s.setDemand m n).ns = s.ns := rfl
@[simp] theorem State.setDemand_free (m n : Nat) : (s.setDemand m n).free = s.free := rfl
@[simp] theorem State.setDemand_partId (m n : Nat) : (s.setDemand m n).partId = s.partId := rfl
@[simp] theorem State.setDemand_serialNo (m n : Nat) : (s.setDemand m n).serialNo = s.serialNo := rfl
@[simp] theorem State.setDemand_fuses (m n : Nat) : (s.setDemand m n).fuses = s.fuses := rfl
@[simp] theorem State.setDemand_out (m n : Nat) : (s.setDemand m n).out = s.out := rfl
@[simp] theorem State.setDemand_regs (m n : Nat) : (s.setDemand m n).regs = s.regs := rfl
@[simp] theorem State.setDemand_hiRec (m n : Nat) : (s.setDemand m n).hiRec = s.hiRec := rfl
@[simp] theorem State.setDemand_design (m n : Nat) : (s.setDemand m n).design = s.design := rfl
@[simp] theorem State.setDemand_fab (m n : Nat) : (s.setDemand m n).fab = s.fab := rfl
@[simp] theorem State.setDemand_integ (m n : Nat) : (s.setDemand m n).integ = s.integ := rfl
@[simp] theorem State.setDemand_engs (m n : Nat) : (s.setDemand m n).engs = s.engs := rfl
@[simp] theorem State.setDemand_rings (m n : Nat) : (s.setDemand m n).rings = s.rings := rfl
@[simp] theorem State.setDemand_coh (m n : Nat) : (s.setDemand m n).coh = s.coh := rfl
@[simp] theorem State.setDemand_dram (m n : Nat) : (s.setDemand m n).dram = s.dram := rfl
@[simp] theorem State.setDemand_keys (m n : Nat) : (s.setDemand m n).keys = s.keys := rfl
@[simp] theorem State.setDemand_chk (m n : Nat) : (s.setDemand m n).chk = s.chk := rfl
@[simp] theorem State.setDemand_mbx (m n : Nat) : (s.setDemand m n).mbx = s.mbx := rfl
@[simp] theorem State.setDemand_wicks (m n : Nat) : (s.setDemand m n).wicks = s.wicks := rfl
@[simp] theorem State.setDemand_uci (m n : Nat) : (s.setDemand m n).uci = s.uci := rfl
@[simp] theorem State.setDemand_lanes (m n : Nat) : (s.setDemand m n).lanes = s.lanes := rfl
@[simp] theorem State.setDemand_laneGroups (m n : Nat) : (s.setDemand m n).laneGroups = s.laneGroups := rfl
@[simp] theorem State.setDemand_tq (m n : Nat) : (s.setDemand m n).tq = s.tq := rfl
@[simp] theorem State.setDemand_fns (m n : Nat) : (s.setDemand m n).fns = s.fns := rfl
@[simp] theorem State.setDemand_msixPend (m n : Nat) : (s.setDemand m n).msixPend = s.msixPend := rfl
@[simp] theorem State.setDemand_alarms (m n : Nat) : (s.setDemand m n).alarms = s.alarms := rfl
@[simp] theorem State.setDemand_levelAlarms (m n : Nat) : (s.setDemand m n).levelAlarms = s.levelAlarms := rfl
@[simp] theorem State.setDemand_clk (m n : Nat) : (s.setDemand m n).clk = s.clk := rfl
@[simp] theorem State.setDemand_nv (m n : Nat) : (s.setDemand m n).nv = s.nv := rfl
@[simp] theorem State.setDemand_boot (m n : Nat) : (s.setDemand m n).boot = s.boot := rfl
@[simp] theorem State.setDemand_ember (m n : Nat) : (s.setDemand m n).ember = s.ember := rfl
@[simp] theorem State.setDemand_pairs (m n : Nat) : (s.setDemand m n).pairs = s.pairs := rfl
@[simp] theorem State.setDemand_mgmt (m n : Nat) : (s.setDemand m n).mgmt = s.mgmt := rfl
@[simp] theorem State.setDemand_bist (m n : Nat) : (s.setDemand m n).bist = s.bist := rfl
@[simp] theorem State.setDemand_host (m n : Nat) : (s.setDemand m n).host = s.host := rfl

/-! ### setCfgState -/

@[simp] theorem State.setCfgState_pending (n : Nat) : (s.setCfgState n).pending = s.pending := rfl
@[simp] theorem State.setCfgState_ns (n : Nat) : (s.setCfgState n).ns = s.ns := rfl
@[simp] theorem State.setCfgState_free (n : Nat) : (s.setCfgState n).free = s.free := rfl
@[simp] theorem State.setCfgState_partId (n : Nat) : (s.setCfgState n).partId = s.partId := rfl
@[simp] theorem State.setCfgState_serialNo (n : Nat) : (s.setCfgState n).serialNo = s.serialNo := rfl
@[simp] theorem State.setCfgState_fuses (n : Nat) : (s.setCfgState n).fuses = s.fuses := rfl
@[simp] theorem State.setCfgState_out (n : Nat) : (s.setCfgState n).out = s.out := rfl
@[simp] theorem State.setCfgState_hiRec (n : Nat) : (s.setCfgState n).hiRec = s.hiRec := rfl
@[simp] theorem State.setCfgState_design (n : Nat) : (s.setCfgState n).design = s.design := rfl
@[simp] theorem State.setCfgState_fab (n : Nat) : (s.setCfgState n).fab = s.fab := rfl
@[simp] theorem State.setCfgState_integ (n : Nat) : (s.setCfgState n).integ = s.integ := rfl
@[simp] theorem State.setCfgState_engs (n : Nat) : (s.setCfgState n).engs = s.engs := rfl
@[simp] theorem State.setCfgState_rings (n : Nat) : (s.setCfgState n).rings = s.rings := rfl
@[simp] theorem State.setCfgState_coh (n : Nat) : (s.setCfgState n).coh = s.coh := rfl
@[simp] theorem State.setCfgState_dram (n : Nat) : (s.setCfgState n).dram = s.dram := rfl
@[simp] theorem State.setCfgState_keys (n : Nat) : (s.setCfgState n).keys = s.keys := rfl
@[simp] theorem State.setCfgState_chk (n : Nat) : (s.setCfgState n).chk = s.chk := rfl
@[simp] theorem State.setCfgState_mbx (n : Nat) : (s.setCfgState n).mbx = s.mbx := rfl
@[simp] theorem State.setCfgState_wicks (n : Nat) : (s.setCfgState n).wicks = s.wicks := rfl
@[simp] theorem State.setCfgState_uci (n : Nat) : (s.setCfgState n).uci = s.uci := rfl
@[simp] theorem State.setCfgState_lanes (n : Nat) : (s.setCfgState n).lanes = s.lanes := rfl
@[simp] theorem State.setCfgState_laneGroups (n : Nat) : (s.setCfgState n).laneGroups = s.laneGroups := rfl
@[simp] theorem State.setCfgState_tq (n : Nat) : (s.setCfgState n).tq = s.tq := rfl
@[simp] theorem State.setCfgState_fns (n : Nat) : (s.setCfgState n).fns = s.fns := rfl
@[simp] theorem State.setCfgState_msixPend (n : Nat) : (s.setCfgState n).msixPend = s.msixPend := rfl
@[simp] theorem State.setCfgState_alarms (n : Nat) : (s.setCfgState n).alarms = s.alarms := rfl
@[simp] theorem State.setCfgState_levelAlarms (n : Nat) : (s.setCfgState n).levelAlarms = s.levelAlarms := rfl
@[simp] theorem State.setCfgState_clk (n : Nat) : (s.setCfgState n).clk = s.clk := rfl
@[simp] theorem State.setCfgState_nv (n : Nat) : (s.setCfgState n).nv = s.nv := rfl
@[simp] theorem State.setCfgState_boot (n : Nat) : (s.setCfgState n).boot = s.boot := rfl
@[simp] theorem State.setCfgState_pwr (n : Nat) : (s.setCfgState n).pwr = s.pwr := rfl
@[simp] theorem State.setCfgState_ember (n : Nat) : (s.setCfgState n).ember = s.ember := rfl
@[simp] theorem State.setCfgState_pairs (n : Nat) : (s.setCfgState n).pairs = s.pairs := rfl
@[simp] theorem State.setCfgState_mgmt (n : Nat) : (s.setCfgState n).mgmt = s.mgmt := rfl
@[simp] theorem State.setCfgState_bist (n : Nat) : (s.setCfgState n).bist = s.bist := rfl
@[simp] theorem State.setCfgState_host (n : Nat) : (s.setCfgState n).host = s.host := rfl

end Sys2Proof.Machine
end

