-- ==== Sys2Proof/Laws/Regs.lean ====
section
/-!
SUPPORT. Registers and fields: read after write.
-/
namespace Sys2Proof.Machine

/-! ### Bit fields -/

theorem fieldOf_testBit {w : Nat} (v : BitVec w) (lo n i : Nat) : (fieldOf v lo n).testBit i = (decide (i < n) && v.getLsbD (lo + i)) := by
  simp only [fieldOf, Nat.testBit_mod_two_pow, Nat.testBit_shiftRight, BitVec.getLsbD]

theorem withField_getLsbD {w : Nat} (v : BitVec w) (lo n x i : Nat) :
    (withField v lo n x).getLsbD i = if lo ≤ i ∧ i < lo + n ∧ i < w then (x % 2 ^ n).testBit (i - lo) else v.getLsbD i := by
  unfold withField
  simp only [BitVec.getLsbD_or, BitVec.getLsbD_and, BitVec.getLsbD_not, BitVec.getLsbD_shiftLeft, BitVec.getLsbD_ofNat,
    Nat.testBit_two_pow_sub_one, Nat.testBit_mod_two_pow]
  by_cases hw : i < w
  · by_cases h1 : lo ≤ i
    · have h4 : i - lo < w := by omega
      by_cases h2 : i < lo + n
      · have h3 : i - lo < n := by omega
        simp [hw, h1, h2, h3, h4, Nat.not_lt.2 h1]
      · have h3 : ¬ i - lo < n := by omega
        simp [hw, h2, h3]
    · have h2 : i < lo := by omega
      simp [hw, h1, h2]
  · simp [hw, BitVec.getLsbD_of_ge v i (by omega)]

/-- A field reads back what was written into it. -/
theorem fieldOf_withField_self {w : Nat} (v : BitVec w) {lo n : Nat} (x : Nat) (h : lo + n ≤ w) :
    fieldOf (withField v lo n x) lo n = x % 2 ^ n := by
  apply Nat.eq_of_testBit_eq
  intro i
  rw [fieldOf_testBit, withField_getLsbD]
  by_cases hi : i < n
  · have : lo + i < w := by omega
    simp [hi, this]
  · simp [hi, Nat.testBit_mod_two_pow]

/-- A field does not change when a field beside it is written. -/
theorem fieldOf_withField_ne {w : Nat} (v : BitVec w) {lo n lo' n' : Nat} (x : Nat) (h : lo' + n' ≤ lo ∨ lo + n ≤ lo') :
    fieldOf (withField v lo n x) lo' n' = fieldOf v lo' n' := by
  apply Nat.eq_of_testBit_eq
  intro i
  rw [fieldOf_testBit, fieldOf_testBit, withField_getLsbD]
  by_cases hi : i < n'
  · have : ¬ (lo ≤ lo' + i ∧ lo' + i < lo + n ∧ lo' + i < w) := by omega
    simp [this]
  · simp [hi]

theorem fieldOf_lt {w : Nat} (v : BitVec w) (lo n : Nat) : fieldOf v lo n < 2 ^ n := Nat.mod_lt _ (Nat.two_pow_pos n)

/-! ### Registers -/

variable (s : State)

@[simp] theorem State.regReset_setReg (pg off : Nat) (v : Word) (pg' off' : Nat) :
    (s.setReg pg off v).regReset pg' off' = s.regReset pg' off' := rfl

/-- Reading a register after writing one. -/
theorem State.reg_setReg (pg off : Nat) (v : Word) (pg' off' : Nat) :
    (s.setReg pg off v).reg pg' off' = if regKey pg' off' = regKey pg off then v else s.reg pg' off' := by
  unfold State.reg
  simp only [State.setReg, mget_mput]
  split
  · rfl
  · rfl

@[simp] theorem State.reg_setReg_self (pg off : Nat) (v : Word) : (s.setReg pg off v).reg pg off = v := by simp [State.reg_setReg]

theorem State.reg_setReg_ne {pg off : Nat} (v : Word) {pg' off' : Nat} (h : regKey pg' off' ≠ regKey pg off) :
    (s.setReg pg off v).reg pg' off' = s.reg pg' off' := by simp [State.reg_setReg, h]

/-- Reading a register after writing a field. -/
theorem State.reg_setFld (pg : Nat) (f : Fld) (n pg' off' : Nat) :
    (s.setFld pg f n).reg pg' off' =
      if regKey pg' off' = regKey pg f.off then withField (s.reg pg f.off) f.lo f.width n else s.reg pg' off' := by
  simp [State.setFld, State.reg_setReg]

/-- A field reads back what was written into it. -/
theorem State.fld_setFld_self (pg : Nat) (f : Fld) (n : Nat) (h : f.lo + f.width ≤ 32) :
    (s.setFld pg f n).fld pg f = n % 2 ^ f.width := by
  simp [State.fld, State.reg_setFld, fieldOf_withField_self _ _ h]

/-- A field of another register does not change. -/
theorem State.fld_setFld_ne {pg : Nat} {f : Fld} (n : Nat) {pg' : Nat} {g : Fld} (h : regKey pg' g.off ≠ regKey pg f.off) :
    (s.setFld pg f n).fld pg' g = s.fld pg' g := by
  simp [State.fld, State.reg_setFld, h]

/-- Nor does a field beside it in the same register. -/
theorem State.fld_setFld_beside (pg : Nat) {f g : Fld} (n : Nat) (ho : g.off = f.off) (h : g.lo + g.width ≤ f.lo ∨ f.lo + f.width ≤ g.lo) :
    (s.setFld pg f n).fld pg g = s.fld pg g := by
  simp [State.fld, State.reg_setFld, ho, fieldOf_withField_ne _ _ h]

end Sys2Proof.Machine
end

