-- ==== Sys2Proof/Laws/Events.lean ====
section
/-!
SUPPORT. What events, trouble counters, MSI-X vectors and alarms do to the state: their own registers, what is sent out and what is pending,
and nothing else.
-/
namespace Sys2Proof.Machine

/-! ### Keys of registers -/

theorem regKey_ne {pg off pg' off' : Nat} (h : pg ≠ pg') (ho : off < 4096) (ho' : off' < 4096) : regKey pg off ≠ regKey pg' off' := by
  unfold regKey; omega

theorem regKey_ne_off {pg off off' : Nat} (h : off / 4 ≠ off' / 4) : regKey pg off ≠ regKey pg off' := by
  unfold regKey; omega

/-! ### One change of registers, output and pending vectors -/

/-- Nothing but registers of the pages `p`, what is sent out and the pending vectors differs. -/
def EventsOnly (p : Nat → Prop) (s t : State) : Prop :=
  { t with regs := s.regs, out := s.out, msixPend := s.msixPend } = s ∧
    ∀ pg off, off < 4096 → ¬ p pg → mget t.regs (regKey pg off) = mget s.regs (regKey pg off)

theorem EventsOnly.refl (p : Nat → Prop) (s : State) : EventsOnly p s s := ⟨rfl, fun _ _ _ _ => rfl⟩

theorem EventsOnly.trans {p : Nat → Prop} {s t u : State} (h : EventsOnly p s t) (g : EventsOnly p t u) : EventsOnly p s u := by
  refine ⟨?_, fun pg off ho hp => (g.2 pg off ho hp).trans (h.2 pg off ho hp)⟩
  exact (congrArg (fun x : State => { x with regs := s.regs, out := s.out, msixPend := s.msixPend }) g.1).trans h.1

theorem EventsOnly.mono {p q : Nat → Prop} {s t : State} (h : EventsOnly p s t) (hpq : ∀ pg, p pg → q pg) : EventsOnly q s t :=
  ⟨h.1, fun pg off ho hq => h.2 pg off ho fun hp => hq (hpq pg hp)⟩

theorem EventsOnly.pending {p : Nat → Prop} {s t : State} (h : EventsOnly p s t) : t.pending = s.pending := (congrArg State.pending h.1 :)
theorem EventsOnly.ns {p : Nat → Prop} {s t : State} (h : EventsOnly p s t) : t.ns = s.ns := (congrArg State.ns h.1 :)
theorem EventsOnly.free {p : Nat → Prop} {s t : State} (h : EventsOnly p s t) : t.free = s.free := (congrArg State.free h.1 :)
theorem EventsOnly.partId {p : Nat → Prop} {s t : State} (h : EventsOnly p s t) : t.partId = s.partId := (congrArg State.partId h.1 :)
theorem EventsOnly.serialNo {p : Nat → Prop} {s t : State} (h : EventsOnly p s t) : t.serialNo = s.serialNo := (congrArg State.serialNo h.1 :)
theorem EventsOnly.fuses {p : Nat → Prop} {s t : State} (h : EventsOnly p s t) : t.fuses = s.fuses := (congrArg State.fuses h.1 :)
theorem EventsOnly.hiRec {p : Nat → Prop} {s t : State} (h : EventsOnly p s t) : t.hiRec = s.hiRec := (congrArg State.hiRec h.1 :)
theorem EventsOnly.design {p : Nat → Prop} {s t : State} (h : EventsOnly p s t) : t.design = s.design := (congrArg State.design h.1 :)
theorem EventsOnly.fab {p : Nat → Prop} {s t : State} (h : EventsOnly p s t) : t.fab = s.fab := (congrArg State.fab h.1 :)
theorem EventsOnly.integ {p : Nat → Prop} {s t : State} (h : EventsOnly p s t) : t.integ = s.integ := (congrArg State.integ h.1 :)
theorem EventsOnly.engs {p : Nat → Prop} {s t : State} (h : EventsOnly p s t) : t.engs = s.engs := (congrArg State.engs h.1 :)
theorem EventsOnly.rings {p : Nat → Prop} {s t : State} (h : EventsOnly p s t) : t.rings = s.rings := (congrArg State.rings h.1 :)
theorem EventsOnly.coh {p : Nat → Prop} {s t : State} (h : EventsOnly p s t) : t.coh = s.coh := (congrArg State.coh h.1 :)
theorem EventsOnly.dram {p : Nat → Prop} {s t : State} (h : EventsOnly p s t) : t.dram = s.dram := (congrArg State.dram h.1 :)
theorem EventsOnly.keys {p : Nat → Prop} {s t : State} (h : EventsOnly p s t) : t.keys = s.keys := (congrArg State.keys h.1 :)
theorem EventsOnly.chk {p : Nat → Prop} {s t : State} (h : EventsOnly p s t) : t.chk = s.chk := (congrArg State.chk h.1 :)
theorem EventsOnly.mbx {p : Nat → Prop} {s t : State} (h : EventsOnly p s t) : t.mbx = s.mbx := (congrArg State.mbx h.1 :)
theorem EventsOnly.wicks {p : Nat → Prop} {s t : State} (h : EventsOnly p s t) : t.wicks = s.wicks := (congrArg State.wicks h.1 :)
theorem EventsOnly.uci {p : Nat → Prop} {s t : State} (h : EventsOnly p s t) : t.uci = s.uci := (congrArg State.uci h.1 :)
theorem EventsOnly.lanes {p : Nat → Prop} {s t : State} (h : EventsOnly p s t) : t.lanes = s.lanes := (congrArg State.lanes h.1 :)
theorem EventsOnly.laneGroups {p : Nat → Prop} {s t : State} (h : EventsOnly p s t) : t.laneGroups = s.laneGroups := (congrArg State.laneGroups h.1 :)
theorem EventsOnly.tq {p : Nat → Prop} {s t : State} (h : EventsOnly p s t) : t.tq = s.tq := (congrArg State.tq h.1 :)
theorem EventsOnly.fns {p : Nat → Prop} {s t : State} (h : EventsOnly p s t) : t.fns = s.fns := (congrArg State.fns h.1 :)
theorem EventsOnly.alarms {p : Nat → Prop} {s t : State} (h : EventsOnly p s t) : t.alarms = s.alarms := (congrArg State.alarms h.1 :)
theorem EventsOnly.levelAlarms {p : Nat → Prop} {s t : State} (h : EventsOnly p s t) : t.levelAlarms = s.levelAlarms := (congrArg State.levelAlarms h.1 :)
theorem EventsOnly.clk {p : Nat → Prop} {s t : State} (h : EventsOnly p s t) : t.clk = s.clk := (congrArg State.clk h.1 :)
theorem EventsOnly.nv {p : Nat → Prop} {s t : State} (h : EventsOnly p s t) : t.nv = s.nv := (congrArg State.nv h.1 :)
theorem EventsOnly.boot {p : Nat → Prop} {s t : State} (h : EventsOnly p s t) : t.boot = s.boot := (congrArg State.boot h.1 :)
theorem EventsOnly.pwr {p : Nat → Prop} {s t : State} (h : EventsOnly p s t) : t.pwr = s.pwr := (congrArg State.pwr h.1 :)
theorem EventsOnly.ember {p : Nat → Prop} {s t : State} (h : EventsOnly p s t) : t.ember = s.ember := (congrArg State.ember h.1 :)
theorem EventsOnly.pairs {p : Nat → Prop} {s t : State} (h : EventsOnly p s t) : t.pairs = s.pairs := (congrArg State.pairs h.1 :)
theorem EventsOnly.mgmt {p : Nat → Prop} {s t : State} (h : EventsOnly p s t) : t.mgmt = s.mgmt := (congrArg State.mgmt h.1 :)
theorem EventsOnly.bist {p : Nat → Prop} {s t : State} (h : EventsOnly p s t) : t.bist = s.bist := (congrArg State.bist h.1 :)
theorem EventsOnly.host {p : Nat → Prop} {s t : State} (h : EventsOnly p s t) : t.host = s.host := (congrArg State.host h.1 :)

theorem EventsOnly.reg {p : Nat → Prop} {s t : State} (h : EventsOnly p s t) {pg off : Nat} (ho : off < 4096) (hp : ¬ p pg) :
    t.reg pg off = s.reg pg off := by
  unfold State.reg State.regReset
  rw [h.2 pg off ho hp, h.fuses, h.design, h.partId, h.serialNo]

theorem EventsOnly.fld {p : Nat → Prop} {s t : State} (h : EventsOnly p s t) {pg : Nat} {f : Fld} (ho : f.off < 4096) (hp : ¬ p pg) :
    t.fld pg f = s.fld pg f := by
  unfold State.fld; rw [h.reg ho hp]

/-! ### What each does -/

theorem eventsOnly_setReg (p : Nat → Prop) (s : State) (pg off : Nat) (v : Word) (hp : p pg) (ho : off < 4096) :
    EventsOnly p s (s.setReg pg off v) := by
  refine ⟨rfl, fun pg' off' ho' hp' => ?_⟩
  have : regKey pg' off' ≠ regKey pg off := regKey_ne (fun e => hp' (e ▸ hp)) ho' ho
  simp [State.setReg, mget_mput_ne _ _ this]

theorem eventsOnly_setFld (p : Nat → Prop) (s : State) (pg : Nat) (f : Fld) (n : Nat) (hp : p pg) (ho : f.off < 4096) :
    EventsOnly p s (s.setFld pg f n) := eventsOnly_setReg p s pg f.off _ hp ho

/-- A trouble counter counts in its own page. -/
theorem eventsOnly_trbRaw (s : State) (pg : Nat) {k : Nat} (hk : k < 8) : EventsOnly (· = pg) s (s.trbRaw pg k) := by
  unfold State.trbRaw
  simp only []
  split
  · have h1 : EventsOnly (· = pg) s (s.setFld pg (Fld.PG_TRB_CNT k) (s.fld pg (Fld.PG_TRB_CNT k) + 1)) :=
      eventsOnly_setFld _ _ _ _ _ rfl (by simp [Fld.PG_TRB_CNT]; omega)
    split
    · exact h1.trans (eventsOnly_setFld _ _ _ _ _ rfl (by decide))
    · exact h1
  · exact .refl _ _

/-- A trigger of a vector sends it, leaves it pending, or counts in the host link's page. -/
theorem eventsOnly_msix (s : State) (g : Nat) : EventsOnly (· = Pg.hostLnk) s (s.msix g) := by
  unfold State.msix
  split
  · exact eventsOnly_trbRaw s Pg.hostLnk (by decide)
  · simp only []
    split
    · exact eventsOnly_trbRaw s Pg.hostLnk (by decide)
    · split
      · exact ⟨rfl, fun _ _ _ _ => rfl⟩
      · split
        · exact .refl _ _
        · exact ⟨rfl, fun _ _ _ _ => rfl⟩

theorem eventsOnly_routeEvt (s : State) (pg : Nat) : EventsOnly (· = Pg.hostLnk) s (s.routeEvt pg) := by
  unfold State.routeEvt
  generalize List.range 64 = l
  induction l generalizing s with
  | nil => exact .refl _ _
  | cons r l ih =>
    simp only [List.foldl_cons]
    split
    · exact (eventsOnly_msix s _).trans (ih _)
    · exact ih s

theorem eventsOnly_evtEdge (a s : State) (pg : Nat) : EventsOnly (· = Pg.hostLnk) s (a.evtEdge s pg) := by
  unfold State.evtEdge
  split
  · exact eventsOnly_routeEvt s pg
  · exact .refl _ _

/-- An event: its bit, and the vectors that the page's routes raise. -/
theorem eventsOnly_raise (s : State) (pg : Nat) (f : Fld) (hf : f.off < 4096) :
    EventsOnly (fun q => q = pg ∨ q = Pg.hostLnk) s (s.raise pg f) :=
  (eventsOnly_setFld _ s pg f 1 (.inl rfl) hf).trans ((eventsOnly_evtEdge s _ pg).mono fun _ h => .inr h)

/-- A counted event. -/
theorem eventsOnly_trb (s : State) (pg : Nat) {k : Nat} (hk : k < 8) :
    EventsOnly (fun q => q = pg ∨ q = Pg.hostLnk) s (s.trb pg k) :=
  ((eventsOnly_trbRaw s pg hk).mono fun _ h => .inl h).trans ((eventsOnly_evtEdge s _ pg).mono fun _ h => .inr h)

/-! ### The values -/

/-- A register of another page than the host link's is not touched by a route. -/
theorem State.evtEdge_reg (a s : State) (p : Nat) {pg off : Nat} (ho : off < 4096) (hp : pg ≠ Pg.hostLnk) :
    (a.evtEdge s p).reg pg off = s.reg pg off := (eventsOnly_evtEdge a s p).reg ho hp

theorem State.evtEdge_fld (a s : State) (p : Nat) {pg : Nat} {f : Fld} (ho : f.off < 4096) (hp : pg ≠ Pg.hostLnk) :
    (a.evtEdge s p).fld pg f = s.fld pg f := (eventsOnly_evtEdge a s p).fld ho hp

/-- A trouble counter counts one more until it stands at 0xFFFF (R459). -/
theorem State.trb_fld_self (s : State) {pg k : Nat} (hk : k < 8) (hp : pg ≠ Pg.hostLnk) :
    (s.trb pg k).fld pg (Fld.PG_TRB_CNT k) =
      if s.fld pg (Fld.PG_TRB_CNT k) < 0xFFFF then s.fld pg (Fld.PG_TRB_CNT k) + 1 else s.fld pg (Fld.PG_TRB_CNT k) := by
  have ho : (Fld.PG_TRB_CNT k).off < 4096 := by simp [Fld.PG_TRB_CNT]; omega
  have hne : regKey pg (Fld.PG_TRB_CNT k).off ≠ regKey pg Fld.PG_PG_EVT_TRB_SAT.off := by
    apply regKey_ne_off; simp [Fld.PG_TRB_CNT, Fld.PG_PG_EVT_TRB_SAT]; omega
  have hself : ∀ n, n < 2 ^ 16 → (s.setFld pg (Fld.PG_TRB_CNT k) n).fld pg (Fld.PG_TRB_CNT k) = n := fun n hn => by
    rw [State.fld_setFld_self _ _ _ _ (by simp [Fld.PG_TRB_CNT])]; exact Nat.mod_eq_of_lt hn
  unfold State.trb
  rw [State.evtEdge_fld _ _ _ ho hp]
  unfold State.trbRaw
  simp only []
  split
  · next h =>
    split
    · rw [State.fld_setFld_ne _ _ hne, hself _ (by omega)]
    · rw [hself _ (by omega)]
  · rfl

/-- A raised event reads 1. -/
theorem State.raise_fld_self (s : State) {pg : Nat} (f : Fld) (hp : pg ≠ Pg.hostLnk) (hf : f.off < 4096) (hw : f.width = 1) (hl : f.lo < 32) :
    (s.raise pg f).fld pg f = 1 := by
  unfold State.raise
  rw [State.evtEdge_fld _ _ _ hf hp, State.fld_setFld_self _ _ _ _ (by omega)]; simp [hw]

end Sys2Proof.Machine
end

