-- ==== Sys2Proof/Laws/Issue.lean ====
section
/-!
SUPPORT. How a slot instruction ends (R93 to R97, R108): it is done, it stops the engine, its guard skips it, its bundle stalls, or it does not issue.
-/
namespace Sys2Proof.Machine
open Sys2Proof

/-- `State.issue` where the engine issues this slot, one of the instruction's own, and the program holds the instruction's word. -/
theorem State.issue_eq {s : State} {x : Issue} {slots : List Nat} {op : BitVec 6} {body : BitVec 22} (act : State → SlotRes)
    (h0 : x.slot.val ∈ slots) (h1 : s.engIssues x.eng = true) (h2 : (s.eng x.eng).slot = x.slot.val)
    (h3 : s.progSlot x.eng x.slot = slotWord op x.guard x.pg body) :
    s.issue slots x op body act =
      (if x.slot.val = 0 ∧ (s.eng x.eng).hold = true then s.setEng x.eng { s.eng x.eng with hold := false }
       else match (if x.slot.val = 0 then s.fetchBundle x.eng else (none, s)) with
         | (some code, s1) => s1.engStop x.eng code
         | (none, s1) =>
           if x.slot.val = 0 ∧ s.bundleStalls x.eng = true then s
           else if x.guard = true ∧ (!(s.eng x.eng).core.pVal x.pg.toNat) = true then s1.slotDone x.eng x.slot
           else match act s1 with
             | .done s2 => s2.slotDone x.eng x.slot
             | .fault code => s1.engStop x.eng code) := by
  unfold State.issue
  rw [if_neg (by simp [h0, h1, h2]), if_neg (by simp [h3])]
  split
  · rfl
  · generalize (if x.slot.val = 0 then s.fetchBundle x.eng else (none, s)) = z
    obtain ⟨f, s1⟩ := z
    cases f <;> rfl

/-- What is left of `State.issue` once the instruction stands next, the fetch has passed and the bundle does not stall. -/
theorem State.issue_ready {s : State} {x : Issue} {slots : List Nat} {op : BitVec 6} {body : BitVec 22} (act : State → SlotRes)
    (hr : SlotReady s x slots op body) :
    s.issue slots x op body act =
      (if x.guard = true ∧ (s.eng x.eng).core.pVal x.pg.toNat = false then (fetched s x).slotDone x.eng x.slot
       else match act (fetched s x) with
         | .done u => u.slotDone x.eng x.slot
         | .fault code => (fetched s x).engStop x.eng code) := by
  obtain ⟨h0, h1, h2, h3, h4⟩ := hr
  rw [State.issue_eq act h0 h1 h2 h3]
  unfold fetched
  by_cases hz : x.slot.val = 0
  · obtain ⟨hh, hf, hs⟩ := h4 hz
    rcases hfb : s.fetchBundle x.eng with ⟨f, s1⟩
    rw [hfb] at hf
    simp only at hf
    subst hf
    rw [if_neg (by simp [hh]), if_pos hz, if_pos hz]
    simp only [hs, Bool.false_eq_true, and_false, if_false, Bool.not_eq_true']
  · rw [if_neg (by simp [hz]), if_neg hz, if_neg hz]
    simp only [hz, false_and, if_false, Bool.not_eq_true']

theorem State.issue_done {s : State} {x : Issue} {slots : List Nat} {op : BitVec 6} {body : BitVec 22} {act : State → SlotRes} {u : State}
    (hr : SlotReady s x slots op body) (ho : SlotOpen s x) (ha : act (fetched s x) = .done u) :
    s.issue slots x op body act = u.slotDone x.eng x.slot := by
  rw [State.issue_ready act hr, if_neg (by rintro ⟨a, b⟩; rw [ho a] at b; cases b), ha]

theorem State.issue_fault {s : State} {x : Issue} {slots : List Nat} {op : BitVec 6} {body : BitVec 22} {act : State → SlotRes} {code : Nat}
    (hr : SlotReady s x slots op body) (ho : SlotOpen s x) (ha : act (fetched s x) = .fault code) :
    s.issue slots x op body act = (fetched s x).engStop x.eng code := by
  rw [State.issue_ready act hr, if_neg (by rintro ⟨a, b⟩; rw [ho a] at b; cases b), ha]

/-- A slot whose guard is 0 does nothing of its own (R94). -/
theorem State.issue_skip {s : State} {x : Issue} {slots : List Nat} {op : BitVec 6} {body : BitVec 22} (act : State → SlotRes)
    (hr : SlotReady s x slots op body) (hg : x.guard = true) (hp : (s.eng x.eng).core.pVal x.pg.toNat = false) :
    s.issue slots x op body act = (fetched s x).slotDone x.eng x.slot := by
  rw [State.issue_ready act hr, if_pos ⟨hg, hp⟩]

/-- Nothing issues where the engine does not, where another slot is due, or in a slot that is not the instruction's. -/
theorem State.issue_idle {s : State} {x : Issue} {slots : List Nat} (op : BitVec 6) (body : BitVec 22) (act : State → SlotRes)
    (h : x.slot.val ∉ slots ∨ s.engIssues x.eng = false ∨ (s.eng x.eng).slot ≠ x.slot.val) : s.issue slots x op body act = s := by
  unfold State.issue
  rcases h with h | h | h <;> simp [h]

/-- A bundle whose checks at slot 0 fail stops the engine (R95, R96). -/
theorem State.issue_refused {s : State} {x : Issue} {slots : List Nat} {op : BitVec 6} {body : BitVec 22} (act : State → SlotRes) {code : Nat}
    (h : x.slot.val ∈ slots) (h1 : s.engIssues x.eng = true) (h2 : (s.eng x.eng).slot = x.slot.val)
    (h3 : s.progSlot x.eng x.slot = slotWord op x.guard x.pg body)
    (h0 : x.slot.val = 0) (hh : (s.eng x.eng).hold = false) (hf : (s.fetchBundle x.eng).1 = some code) :
    s.issue slots x op body act = (s.fetchBundle x.eng).2.engStop x.eng code := by
  rw [State.issue_eq act h h1 h2 h3, if_neg (by simp [hh]), if_pos h0]
  rcases hfb : s.fetchBundle x.eng with ⟨f, s1⟩
  rw [hfb] at hf
  simp only at hf
  subst hf
  rfl

/-- A bundle that must wait has not issued: the state stays (R108). -/
theorem State.issue_stalled {s : State} {x : Issue} {slots : List Nat} {op : BitVec 6} {body : BitVec 22} (act : State → SlotRes)
    (h : x.slot.val ∈ slots) (h1 : s.engIssues x.eng = true) (h2 : (s.eng x.eng).slot = x.slot.val)
    (h3 : s.progSlot x.eng x.slot = slotWord op x.guard x.pg body)
    (h0 : x.slot.val = 0) (hh : (s.eng x.eng).hold = false) (hf : (s.fetchBundle x.eng).1 = none) (hs : s.bundleStalls x.eng = true) :
    s.issue slots x op body act = s := by
  rw [State.issue_eq act h h1 h2 h3, if_neg (by simp [hh]), if_pos h0]
  rcases hfb : s.fetchBundle x.eng with ⟨f, s1⟩
  rw [hfb] at hf
  simp only at hf
  subst hf
  simp [h0, hs]

end Sys2Proof.Machine
end

