-- ==== Sys2Proof/Laws/Window.lean ====
section
/-!
SUPPORT. The page of each page number (Table 19.1), and what an accepted write of a full word does: the register is stored, then its effect follows (R11, R471).
-/
namespace Sys2Proof.Machine
set_option Elab.async false
open Sys2Proof

/-! ### Page numbers -/

theorem pageOf_dev0 : pageOf Pg.dev0 = some (.dev0, 0) := by decide +kernel
theorem pageOf_cfg : pageOf Pg.cfg = some (.cfg, 0) := by decide +kernel
theorem pageOf_cfgh : pageOf Pg.cfgh = some (.cfgh, 0) := by decide +kernel
theorem pageOf_nvs : pageOf Pg.nvs = some (.nvs, 0) := by decide +kernel
theorem pageOf_clkRef : pageOf Pg.clkRef = some (.clkRef, 0) := by decide +kernel
theorem pageOf_clkMl : pageOf Pg.clkMl = some (.clkMl, 0) := by decide +kernel
theorem pageOf_clkCtl : pageOf Pg.clkCtl = some (.clkCtl, 0) := by decide +kernel
theorem pageOf_pwr : pageOf Pg.pwr = some (.pwr, 0) := by decide +kernel
theorem pageOf_thm : pageOf Pg.thm = some (.thm, 0) := by decide +kernel
theorem pageOf_rst : pageOf Pg.rst = some (.rst, 0) := by decide +kernel
theorem pageOf_emb : pageOf Pg.emb = some (.emb, 0) := by decide +kernel
theorem pageOf_key : pageOf Pg.key = some (.key, 0) := by decide +kernel
theorem pageOf_alm : pageOf Pg.alm = some (.alm, 0) := by decide +kernel
theorem pageOf_dir : pageOf Pg.dir = some (.dir, 0) := by decide +kernel
theorem pageOf_ime : pageOf Pg.ime = some (.ime, 0) := by decide +kernel
theorem pageOf_eccMnt : pageOf Pg.eccMnt = some (.eccMnt, 0) := by decide +kernel
theorem pageOf_eccDram : pageOf Pg.eccDram = some (.eccDram, 0) := by decide +kernel
theorem pageOf_repair : pageOf Pg.repair = some (.repair, 0) := by decide +kernel
theorem pageOf_dlkH : pageOf Pg.dlkH = some (.dlkH, 0) := by decide +kernel
theorem pageOf_uci : pageOf Pg.uci = some (.uci, 0) := by decide +kernel
theorem pageOf_tq : pageOf Pg.tq = some (.tq, 0) := by decide +kernel
theorem pageOf_tqExp : pageOf Pg.tqExp = some (.tqExp, 0) := by decide +kernel
theorem pageOf_host : pageOf Pg.host = some (.host, 0) := by decide +kernel
theorem pageOf_hostLnk : pageOf Pg.hostLnk = some (.hostLnk, 0) := by decide +kernel
theorem pageOf_i2ct : pageOf Pg.i2ct = some (.i2ct, 0) := by decide +kernel
theorem pageOf_usbd : pageOf Pg.usbd = some (.usbd, 0) := by decide +kernel
theorem pageOf_jtg : pageOf Pg.jtg = some (.jtg, 0) := by decide +kernel
theorem pageOf_mbx : pageOf Pg.mbx = some (.mbx, 0) := by decide +kernel
theorem pageOf_bist : pageOf Pg.bist = some (.bist, 0) := by decide +kernel
theorem pageOf_atb : pageOf Pg.atb = some (.atb, 0) := by decide +kernel
theorem pageOf_stop : ∀ i : Fin 64, pageOf (Pg.stop i) = some (.stop, i.val) := by decide +kernel
theorem pageOf_sc : ∀ i : Fin 32, pageOf (Pg.sc i) = some (.sc, i.val) := by decide +kernel
theorem pageOf_dc : ∀ i : Fin 8, pageOf (Pg.dc i) = some (.dc, i.val) := by decide +kernel
theorem pageOf_scrub : ∀ i : Fin 8, pageOf (Pg.scrub i) = some (.scrub, i.val) := by decide +kernel
theorem pageOf_eccF : ∀ i : Fin 8, pageOf (Pg.eccF i) = some (.eccF, i.val) := by decide +kernel
theorem pageOf_chk : ∀ i : Fin 16, pageOf (Pg.chk i) = some (.chk, i.val) := by decide +kernel
theorem pageOf_dlk : ∀ i : Fin 8, pageOf (Pg.dlk i) = some (.dlk, i.val) := by decide +kernel
theorem pageOf_uciM : ∀ i : Fin 4, pageOf (Pg.uciM i) = some (.uciM, i.val) := by decide +kernel
theorem pageOf_fabCtl : ∀ i : Fin 8, pageOf (Pg.fabCtl i) = some (.fabCtl, i.val) := by decide +kernel
theorem pageOf_fabXng : ∀ i : Fin 8, pageOf (Pg.fabXng i) = some (.fabXng, i.val) := by decide +kernel
theorem pageOf_fabMem : ∀ i : Fin 8, pageOf (Pg.fabMem i) = some (.fabMem, i.val) := by decide +kernel
theorem pageOf_fabSlt : ∀ i : Fin 8, pageOf (Pg.fabSlt i) = some (.fabSlt, i.val) := by decide +kernel
theorem pageOf_engCtl : ∀ i : Fin 96, pageOf (Pg.engCtl i) = some (.engCtl, i.val) := by decide +kernel
theorem pageOf_engSr : ∀ i : Fin 96, pageOf (Pg.engSr i) = some (.engSr, i.val) := by decide +kernel
theorem pageOf_lan : ∀ i : Fin 24, pageOf (Pg.lan i) = some (.lan, i.val) := by decide +kernel
theorem pageOf_lane : ∀ i : Fin 192, pageOf (Pg.lane i) = some (.lane, i.val) := by decide +kernel
theorem pageOf_span : ∀ i : Fin 24, pageOf (Pg.span i) = some (.tqSpan, i.val) := by decide +kernel
theorem pageOf_keySlt : ∀ i : Fin 4, pageOf (Pg.keySlt i) = some (.keySlt, i.val) := by decide +kernel
theorem pageOf_hbmStk : ∀ i : Fin 4, pageOf (Pg.hbmStk i) = some (.hbmStk, i.val) := by decide +kernel
theorem pageOf_ddrCtl : ∀ i : Fin 4, pageOf (Pg.ddrCtl i) = some (.ddrCtl, i.val) := by decide +kernel
theorem pageOf_ddrRmt : ∀ i : Fin 4, pageOf (Pg.ddrRmt i) = some (.ddrRmt, i.val) := by decide +kernel
theorem pageOf_fabPrt : ∀ (m p : Fin 8), pageOf (Pg.fabPrt m p) = some (.fabPrt, 8 * m.val + p.val) := by decide +kernel
theorem pageOf_hbmPc : ∀ (m : Fin 4) (p : Fin 8), pageOf (Pg.hbmPc m p) = some (.hbmPc, 8 * m.val + p.val) := by decide +kernel

/-! ### Populated pages -/

/-- Every page but those of the UCIe site is populated on every part. -/
theorem State.page_of {s : State} {pg i : Nat} {k : PageKind} (h : pageOf pg = some (k, i)) (hk : k ≠ .uci) (hm : k ≠ .uciM) (hs : k = .stop → i < 60) :
    s.page pg = some (k, i) := by
  unfold State.page
  rw [h]
  have h1 : (k == .uci) = false := by simpa using hk
  have h2 : (k == .uciM) = false := by simpa using hm
  have h3 : (k == .stop && decide (60 ≤ i)) = false := by
    rcases hb : (k == PageKind.stop) with _ | _
    · rfl
    · have := hs (by simpa using hb); simp; omega
  simp [h1, h2, h3]

/-- A page that accepts a write is populated. -/
theorem accepts_page {s : State} {a pg off : Nat} {v : Word} (h : Accepts s a pg off v) {k : PageKind} {i : Nat} (hp : pageOf pg = some (k, i)) :
    s.page pg = some (k, i) := by
  have hw := h.2
  unfold State.writeReason at hw
  split at hw
  · cases hw
  · split at hw
    · cases hw
    · split at hw
      · cases hw
      · next k' i' heq =>
        unfold State.page at heq ⊢
        rw [hp] at heq ⊢
        simp only at heq ⊢
        split at heq
        · cases heq
        · rw [if_neg (by assumption)]

/-! ### Accepted writes -/

/-- What an accepted write leaves before the page's event output is looked at. -/
def State.stored (s : State) (a : Nat) (k : PageKind) (i pg off : Nat) (r : RegDef) (v : Word) : State :=
  effAll a k i pg off v (s.reg pg off) (if storedElsewhere k off then s else s.setReg pg off (r.store k (s.reg pg off) v))

/-- A full-word write that is accepted stores the register and does its effect. -/
theorem State.put_accepted {s : State} {a pg off : Nat} {v : Word} (h : Accepts s a pg off v) {k : PageKind} {i n : Nat} {r : RegDef}
    (hp : pageOf pg = some (k, i)) (hr : regAt k i off = some (r, n)) (ho : off % 4 = 0) (he : off ≠ Reg.PG_PG_EVT) (he' : off ≠ Reg.PG_PG_EVT_EN) :
    s.put a pg off v = s.stored a k i pg off r v := by
  have hoff : off / 4 * 4 = off := by omega
  unfold State.put State.winWrite State.winWriteWith
  simp only [hoff, h.1, Bool.not_true, Bool.false_eq_true, if_false, h.2]
  unfold State.winAccept State.stored
  have hn : ¬ (off = Reg.PG_PG_EVT ∨ off = Reg.PG_PG_EVT_EN) := by simp [he, he']
  simp only [accepts_page h hp, hr, hn, if_false]

end Sys2Proof.Machine
end

