-- ==== Sys2Proof/Tests/Slice0.lean ====
section
/-!
SUPPORT. Tests: an ill-formed command for each check of WellFormed.lean; for every statement states and operands that meet its hypotheses, clause by
clause, with the effect that a step has there; worked examples and check values of the spec.
-/
namespace Sys2Proof.Tests
set_option Elab.async false
open Sys2Proof Machine

/-! ### Helpers -/

/-- The state that a command leaves; the state itself where it answers none. -/
def after (c : Instr) (s : State) : State := match exec c s with | .next t => t | _ => s

/-- Register fields set. -/
def flds (l : List (Nat × Fld × Nat)) (s : State) : State := l.foldl (fun s e => s.setFld e.1 e.2.1 e.2.2) s

/-- The device in user operation: user logic enabled, the firmware running, die 0 configured. -/
def user : State :=
  flds [(Pg.cfg, Fld.CFG_CFG_STAT_USER_EN, 1), (Pg.cfg, Fld.CFG_CFG_STAT_STATE, 6), (Pg.mbx, Fld.MBX_MBX_INFO_FW_RUN, 1),
    (Pg.fabCtl 0, Fld.FABCTL_DIE_STAT_PWR_STATE, 3),
    (Pg.fabCtl 0, Fld.FABCTL_CREG_ACTIVE_ACTIVE, 0xFFFF), (Pg.fabCtl 0, Fld.FABCTL_DIE_STAT_CFG_DONE, 1)] State.reset

/-- Agent 1 holds a page's lock. -/
def locked (pg : Nat) (s : State) : State := flds [(pg, Fld.PG_PG_LOCK_HELD, 1), (pg, Fld.PG_PG_LOCK_OWNER, 1)] s

/-- `Accepts` as a test. -/
def takes (s : State) (a pg off : Nat) (v : Word) : Bool := s.reaches a pg && decide (s.writeReason a pg off 0xF v = none)
theorem takes_accepts {s : State} {a pg off : Nat} {v : Word} (h : takes s a pg off v = true) : Accepts s a pg off v := by
  simpa [takes, Accepts] using h

/-! ### Well-formed commands -/

theorem test_wf_ok : (Instr.haltCommand 0x01 3).wellFormed = true := by decide
theorem test_wf_agent : (Instr.haltCommand 0x06 3).agentOk = false := by decide
theorem test_wf_tag : (Instr.rdata ⟨0, .mgmt, 16⟩).tagOk = false := by decide
theorem test_wf_mem : (Instr.blockMemoryRead ⟨0, true, 256, false, 0, .later⟩).memOk = false := by decide
theorem test_wf_addr : (Instr.rd 0 0 ⟨0x0400000000000000, 0, 0, 0, 0, 0⟩).addrOk = false := by decide
theorem test_wf_size : (Instr.mailboxResponse 0 7 []).sizeOk = false := by decide

/-! ### Block and deep memories (FabricMemories), ring ports (RingPorts) -/

def mp : MemPort := ⟨0, false, 5, false, 2047, .later⟩
/-- A single port memory, every lane written: the word holds the data. Without its clock region's gate nothing happens. -/
theorem test_block_memory_write : user.memUp mp = true ∧ mp.mayWrite (user.bmMode mp.memNo) = true ∧ user.bmCycle mp.memNo = {} ∧
    (after (.blockMemoryWrite mp 0xF 0x123456789 none) user).bmWord mp.memNo 2047 = .ok 0x123456789 ∧
    (flds [(Pg.fabCtl 0, Fld.FABCTL_CREG_ACTIVE_ACTIVE, 0xFFFE)] user).memUp mp = false := by decide +kernel
/-- Some lanes clear: the word waits for the merge of the next cycle (R42), in which the port is refused. -/
theorem test_block_memory_merge : let t := after (.blockMemoryWrite mp 0x1 0x123456789 none) user
    let u := after (.blockMemoryWrite { mp with cyc := .next } 0xF 5 none) t
    t.bmWord mp.memNo 2047 = .ok 0 ∧ (t.bmCycle mp.memNo).merges = [⟨false, 2047, .ok 0x189⟩] ∧
      (mget u.fab.bmOut mp.portNo).map BmOut.pwcoll = some true ∧ u.bmWord mp.memNo 2047 = .ok 0x189 ∧
      u.fld (Pg.fabMem 0) (Fld.PG_TRB_CNT 4) = 1 := by decide +kernel
/-- The wide form writes two words; the FIFO form appends, and a full one takes none. -/
theorem test_block_memory_wide : let s : State := { user with design.bmMode := [(5, .wide)] }
    let t := after (.blockMemoryWrite { mp with addr := 1023 } 0xFF 0xABCDEF0123456789A none) s
    s.bmMode mp.memNo = .wide ∧ MemPort.mayWrite { mp with addr := 1023 } .wide = true ∧ (t.bmWord 5 2046).data = 0x23456789A ∧ (t.bmWord 5 2047).data = 0xABCDEF01 := by decide +kernel
theorem test_block_memory_fifo : let s : State := { user with design.bmMode := [(5, .fifo)], fab.bmFifo := [(5, ⟨2047, 2⟩)] }
    let full : State := { s with fab.bmFifo := [(5, ⟨0, 2048⟩)] }
    let t := after (.blockMemoryWrite { mp with addr := 0 } 0xF 7 none) s
    mgetD ⟨0, 0⟩ t.fab.bmFifo 5 = ⟨2047, 3⟩ ∧ t.bmWord 5 1 = .ok 7 ∧ (after (.blockMemoryWrite { mp with addr := 0 } 0xF 7 none) full).fab.bm = [] := by decide +kernel
/-- A corrected read drives the corrected data with SBE and counts; an uncorrectable one drives the word as it stands with DBE (R43). -/
theorem test_block_memory_read : let s := user.setBmWord 5 9 ⟨0x5, (user.bmWord 5 9).syn ^^^ 1⟩
    let t := after (.blockMemoryRead { mp with addr := 9 }) s
    s.memUp { mp with addr := 9 } = true ∧ MemPort.mayRead { mp with addr := 9 } .single = true ∧ s.isRaw 1 0 5 = false ∧
        bmDecode false (s.bmWord 5 9) = .corrected 5 ∧ mget t.fab.bmOut mp.portNo = some ⟨5, true, false, false, false⟩ ∧
      t.fld (Pg.fabMem 0) (Fld.PG_TRB_CNT 0) = 1 := by decide +kernel
/-- Some words are uncorrectable, whatever the code's columns are (log 5): two check bits in error. -/
theorem test_bad_word : bmDecode false ⟨0, 3⟩ = .uncorrectable ∧ bmDecode true ⟨0, 3⟩ = .uncorrectable :=
  ⟨eccDecode_three 36 7 0 (by decide), eccDecode_three 64 8 0 (by decide)⟩
theorem test_write_back : user.bmWbOn mp = true ∧ let s : State := { user with fab.writeBack := [(10, [(9, .ok 5)])] }
    (after (.correctedWordWriteBack mp) s).bmWord 5 9 = .ok 5 ∧ mget (after (.correctedWordWriteBack mp) s).fab.writeBack 10 = none := by decide +kernel

/-- A ring port of die 0, initiator, uncached: it takes a read and a posted write, answers a duplicate tag itself, and starts a fence. -/
def port0 (mode : Nat) : State := flds [(portPg 0, Fld.FABPRT_PORT_CTRL_ENABLE, 1), (portPg 0, Fld.FABPRT_PORT_CTRL_MODE, mode),
  (portPg 0, Fld.FABPRT_RSP_SLOTS_FREE, 3), (Pg.stop (portAt 0).1, Fld.STOP_IF_STAT_STATE, 2 ^ (4 * (portAt 0).2))] user
def req0 : EpReq := ⟨0x1000, 1, 7, 0, 0, 0⟩
theorem test_port_request : let s := port0 1
    s.portActive 0 = true ∧ s.mayIssue (portAt 0).1 (portAt 0).2 = true ∧ s.bit (portPg 0) Fld.FABPRT_PORT_CTRL_CACHED = false ∧
    (let t := after (.fabricPortRequest 0 .rd req0) s
     t.fld (portPg 0) Fld.FABPRT_RSP_SLOTS_FREE = 2 ∧ mgetD [] t.fab.outTags 0 = [7] ∧ (t.epQ (ifKey (portAt 0).1 (portAt 0).2) (s.queueOf (portAt 0).1 (portAt 0).2 .rd 0x1000)).length = 1) := by decide +kernel
theorem test_port_duplicate : let s : State := { port0 1 with fab.outTags := [(0, [7])] }
    (mgetD [] (after (.fabricPortRequest 0 .rd req0) s).fab.rsp 0) = [⟨true, 7, .busError, 0⟩] := by decide +kernel
theorem test_port_posted : ((after (.fabricPortRequest 0 .wrp req0) (port0 1)).epQ (ifKey (portAt 0).1 (portAt 0).2) ((port0 1).queueOf (portAt 0).1 (portAt 0).2 .wrp 0x1000)).length = 1 := by decide +kernel
theorem test_port_fence : mget (after (.fabricPortRequest 0 .fence req0) (port0 1)).rings.fences (ifKey (portAt 0).1 (portAt 0).2) = some (some 7) := by decide +kernel
theorem test_response_accept : let s := (flds [(portPg 0, Fld.FABPRT_OUTSTANDING_COUNT, 1), (portPg 0, Fld.FABPRT_PORT_CTRL_ENABLE, 1)]
      { port0 1 with fab.rsp := [(0, [⟨false, 7, .ok, 5⟩])], fab.outTags := [(0, [7])], fab.disabling := [0] })
    let t := after (.responseAccept 0) s
    s.dieUp 0 = true ∧ t.out = [.portRsp 0 7 .ok 5] ∧ t.fld (portPg 0) Fld.FABPRT_OUTSTANDING_COUNT = 0 ∧ t.fld (portPg 0) Fld.FABPRT_PORT_CTRL_ENABLE = 0 := by decide +kernel
/-- A target request: answered by the fabric, or late. -/
def tk0 : TxnKey := ⟨20, .req, 4⟩
def tx0 (dst ifc : Nat) (ph : Phase) : Txn := ⟨0, 9, 0, .rd, 0x1000, 0, 0, 1, 0, 0, dst, ifc, 0, 0, ph, false, 1, 0, true⟩
def tgt0 : State := { port0 2 with fab.tgt := [(0, [(3, ⟨tk0, false, false⟩)])], rings.txns := [(tk0.no, tx0 (portAt 0).1 (portAt 0).2 .delivered)] }
theorem test_target_response : ((after (.targetResponse 0 3 .ok 6) tgt0).txn tk0).map Txn.phase = some (.answered .ok 6) := by decide +kernel
theorem test_target_timeout : let t := after (.targetTimeout 0 3) tgt0
    (t.txn tk0).map Txn.phase = some (.answered .busError 0) ∧ t.fld (portPg 0) (Fld.PG_TRB_CNT 1) = 1 ∧
      (after (.targetResponse 0 3 .ok 6) t).fld (portPg 0) (Fld.PG_TRB_CNT 1) = 2 := by decide +kernel

/-! ### User logic (FabricMemories): a site register behind a LUT, a held one, resets; a wire of a crossing group -/

/-- Site 1 of die 0: LUT 0 inverts register 0; the second bank has its clock enable off and an asynchronous reset `r`. Its clock is FCLK 3. -/
def site1 (r : Bool) : Site := ⟨[⟨1, false, [.reg 1 0]⟩], 0xFF00, ⟨.fclk 3, .const true, .const false, false⟩, ⟨.fclk 3, .const false, .const r, true⟩, .const false, none⟩
def grp01 : XGroup := ⟨0, 1, 2, 2, 3, none, [(5, .reg 1 0)]⟩
def logic (r : Bool) : State := flds [(Pg.clkMl, Fld.ML_CFG_FREQ_KHZ 3, 1000000), (Pg.clkMl, Fld.ML_STAT_STATE 3, 2)]
  { user with design.sites := [(1, site1 r)], design.groups := [grp01], design.cregs := [(0, [.fclk 3])], fab.userRegs := [(1, 0)] }
theorem test_site_register : let s := logic false
    s.slotLive 0 0 = true ∧ s.slotEdge 0 0 (.fclk 3) = true ∧ KMap.sorted s.design.sites ∧ s.siteRegs 0 1 = 0 ∧
    (({ s with fab := s.logicEdges } : State).siteRegs 0 1) = 3 ∧
    (({ logic true with fab := (logic true).logicEdges } : State).siteRegs 0 1) = 0xFF03 := by decide +kernel
theorem test_crossing : let s : State := { logic false with fab.userRegs := [(1, 1)], fab.xing := [(grp01.key 5, ⟨2, false⟩)] }
    grp01.ok = true ∧ s.xClamped 0 1 = false ∧ s.loopEdge 3 = true ∧
    (({ s with fab := s.logicEdges } : State).xReg (grp01.key 5)) = ⟨5, true⟩ := by decide +kernel
theorem test_logic_step : (match step (logic false) with | .next t => t.siteRegs 0 1 == 3 && t.ns == 1 | _ => false) = true := by decide +kernel
/-- A lane in TEST at 32 Gb/s flips one bit of every sixteen in rate mode: two in a nanosecond. -/
theorem test_rate_errors : (let s := flds [(Pg.lane 191, Fld.LN_INJ_MODE, 3), (Pg.lane 191, Fld.LN_INJ_RATE_EXP, 4), (Pg.lane 191, Fld.LN_STAT_STATE, 6), (Pg.lane 191, Fld.LN_RATE_KBPS, 32000000)] State.reset
    match step s with | .next t => decide (t.out = [.lane 191 (.inject 1), .lane 191 (.inject 1)]) | _ => false) = true := by decide +kernel

/-! ### Arithmetic slices (SliceEdge, SliceResetAndColumnExponent) -/

def sl0 (j : Fin 16) : SliceId := ⟨0, 0, 0, j⟩
def sliceSt (p : Pipe) : State :=
  { user with design.slices := [(0, ⟨p, true, true, 4, 16, 17⟩)], design.columns := [(0, ⟨true, true, 0xFFFF⟩)] }
def sIn (a d : BitVec 24) (b : BitVec 20) (c : BitVec 48) (op : BitVec 8) : SliceIn := ⟨true, a, d, b, c, op, false⟩
/-- P takes A·B + C, Q its floor by 2^4; a value outside 16 bits saturates with OVF. -/
theorem test_slice : let t := after (.sliceOperation (sl0 0) (sIn 3 0 5 100 0x10)) (sliceSt .minimal)
    (sliceSt .minimal).slotUp 0 0 = true ∧ (t.slice 0).p = 115 ∧ (t.slice 0).q = 7 ∧ (t.slice 0).ovf = false := by decide +kernel
theorem test_slice_saturates : let t := after (.sliceOperation (sl0 0) (sIn 0x7FFFFF 0 0x7FFFF 0 0)) (sliceSt .minimal)
    (t.slice 0).q = 32767 ∧ (t.slice 0).ovf = true ∧ (t.slice 0).wrap = false := by decide +kernel
/-- The pre-adder D - A, kept and saturated. -/
theorem test_slice_preadder : let t := after (.sliceOperation (sl0 0) (sIn 0x800000 0x7FFFFF 1 0 0x60)) (sliceSt .minimal)
    (t.slice 0).x = 0x7FFFFF ∧ (t.slice 0).ovf = true := by decide +kernel
/-- With every register stage in use the first product reaches P at the fourth edge. -/
theorem test_slice_pipelined : let f := fun s => after (.sliceOperation (sl0 0) (sIn 3 0 5 0 0)) s
    let t := f (f (f (sliceSt .full)))
    (t.slice 0).m = 15 ∧ (t.slice 0).p = 0 ∧ ((f t).slice 0).p = 15 := by decide +kernel
theorem test_slice_reset : let t := after (.sliceReset (sl0 0) (sIn 3 0 5 9 0x10)) (after (.sliceOperation (sl0 0) (sIn 3 0 5 100 0x10)) (sliceSt .minimal))
    (t.slice 0).p = 0 ∧ (t.slice 0).c0 = 9 ∧ mgetD 0 t.fab.cexp 0 = 47 := by decide +kernel
/-- The column's exponent: the least of the selected LSC, no more than before in RUN mode. -/
theorem test_column_exponent : let s := { sliceSt .minimal with fab.cexp := [(0, 9)] }
    mgetD 0 (after (.sliceOperation (sl0 0) (sIn 0 0 0 0 0)) s).fab.cexp 0 = 0 := by decide +kernel
/-- Table 03.5: the floor of P / 16, without and with a bias in C. -/
theorem test_narrowing :
    let q := fun (p : Int) (c : BitVec 48) =>
      ((after (.sliceOperation (sl0 0) (sIn (BitVec.ofInt 24 p) 0 1 c 0x10)) (sliceSt .minimal)).slice 0).q.toInt
    [40, -40, -33, 23].map (fun p => (q p 0, q p 8, q p 7)) = [(2, 3, 2), (-3, -2, -3), (-3, -2, -2), (1, 1, 1)] := by decide +kernel
/-- The example of R74: P = 589,824 with s = 4, w = 16. -/
theorem test_narrowing_range :
    let f := fun sat => (after (.sliceOperation (sl0 0) (sIn 0 0 0 0x90000 0x10))
      { user with design.slices := [(0, ⟨.minimal, true, sat, 4, 16, 17⟩)] }).slice 0
    (f true).q.toInt = 32767 ∧ (f false).q.toInt = -28672 ∧ (f true).ovf = true ∧ (f false).ovfNow = true := by decide +kernel
/-- Table 03.6: P and Q after reset, PIPE = FULL, C held at 264. -/
theorem test_table_03_6 :
    let i := sIn 100 0 3 264 0x10
    let f := fun s => after (.sliceOperation (sl0 0) i) s
    let t0 := [(), (), ()].foldl (fun s _ => after (.sliceReset (sl0 0) i) s) (sliceSt .full)
    let pq := fun (s : State) => ((s.slice 0).p.toNat, (s.slice 0).q.toNat)
    [pq t0, pq (f t0), pq (f (f t0)), pq (f (f (f t0))), pq (f (f (f (f t0)))), pq (f (f (f (f (f t0)))))] =
      [(0, 0), (264, 0), (264, 16), (264, 16), (564, 16), (564, 35)] := by decide +kernel

/-! ### Slot instructions of the signal engines (statements of chapter 04) -/

/-- Engine 0 runs; bundle 0 holds the word in the slot, which is the next one, and the registers are `c`. -/
def engAt (slot : Fin 4) (w : Word) (c : EngCore) : State :=
  let s := flds [(Pg.lan 0, Fld.LAN_LAN_STAT_PWR, 1), (Pg.clkMl, Fld.ML_STAT_STATE 32, 2), (Pg.engCtl 0, Fld.ENG_STATUS_STATE, 2)] user
  (s.setEng 0 { Engine.reset with core := c, next := c, slot := slot }).setProgWord 0 0 ⟨BitVec.ofNat 128 (w.toNat * 2 ^ (96 - 32 * slot.val)), 0⟩
def ix (slot : Fin 4) : Issue := ⟨0, slot, false, 0⟩
/-- The registers that the instruction has written. -/
def ran (slot : Fin 4) (op : BitVec 6) (body : BitVec 22) (i : Instr) (c : EngCore) : EngCore := ((after i (engAt slot (slotWord op false 0 body) c)).eng 0).next

def cR : EngCore := ((EngCore.reset.setS 1 7).setS 2 5).setS 3 0x80000001
def fR (d a b f : Nat) : FmtR := ⟨BitVec.ofNat 5 d, BitVec.ofNat 5 a, BitVec.ofNat 5 b, BitVec.ofNat 7 f⟩
/-- SlotReady and SlotOpen hold where the helpers put the engine, with the guard clear, and with it set and its predicate true. -/
theorem test_slot_ready : SlotReady (engAt 0 (slotWord 0x01 false 0 (fR 4 1 2 0).enc) cR) (ix 0) [0] 0x01 (fR 4 1 2 0).enc ∧
    SlotOpen (engAt 0 (slotWord 0x01 false 0 (fR 4 1 2 0).enc) cR) (ix 0) := by unfold SlotReady SlotOpen; decide +kernel
theorem test_slot_ready_guarded : let c : EngCore := { cR with p := 2 }
    let s := engAt 2 (slotWord 0x10 true 1 0) c
    SlotReady s ⟨0, 2, true, 1⟩ [2] 0x10 0 ∧ SlotOpen s ⟨0, 2, true, 1⟩ := by unfold SlotReady SlotOpen; decide +kernel
theorem test_scalar :
    (ran 0 0x01 (fR 4 1 2 0).enc (.add (ix 0) (fR 4 1 2 0)) cR).sVal 4 = 12 ∧ (ran 0 0x02 (fR 4 2 1 0).enc (.sub (ix 0) (fR 4 2 1 0)) cR).sVal 4 = 0xFFFFFFFE ∧
    (ran 0 0x03 (fR 4 1 2 0).enc (.andR (ix 0) (fR 4 1 2 0)) cR).sVal 4 = 5 ∧ (ran 0 0x04 (fR 4 1 2 0).enc (.orR (ix 0) (fR 4 1 2 0)) cR).sVal 4 = 7 ∧
    (ran 0 0x05 (fR 4 1 2 0).enc (.xorR (ix 0) (fR 4 1 2 0)) cR).sVal 4 = 2 ∧ (ran 0 0x06 (fR 4 3 2 0).enc (.shl (ix 0) (fR 4 3 2 0)) cR).sVal 4 = 32 ∧
    (ran 0 0x07 (fR 4 3 2 0).enc (.shr (ix 0) (fR 4 3 2 0)) cR).sVal 4 = 0x04000000 ∧ (ran 0 0x08 (fR 4 3 2 0).enc (.sra (ix 0) (fR 4 3 2 0)) cR).sVal 4 = 0xFC000000 ∧
    (ran 0 0x09 (fR 4 1 3 0).enc (.mul (ix 0) (fR 4 1 3 0)) cR).sVal 4 = 0x80000007 := by decide +kernel
theorem test_scalar_imm :
    (ran 0 0x0A (FmtI.mk 4 1 0xFFF).enc (.addi (ix 0) ⟨4, 1, 0xFFF⟩) cR).sVal 4 = 6 ∧ (ran 0 0x0B (FmtL.mk 4 0x10000).enc (.movi (ix 0) ⟨4, 0x10000⟩) cR).sVal 4 = 0xFFFF0000 ∧
    (ran 0 0x0C (FmtL.mk 1 0x1234).enc (.movh (ix 0) ⟨1, 0x1234⟩) cR).sVal 1 = 0x12340007 := by decide +kernel
theorem test_predicates :
    (ran 0 0x0D (fR 3 3 1 2).enc (.cmp (ix 0) (fR 3 3 1 2)) cR).pVal 3 = true ∧ (ran 0 0x0E (fR 3 1 2 0).enc (.pop (ix 0) (fR 3 1 2 0)) { cR with p := 6 }).pVal 3 = true ∧
    (ran 0 0x0E (fR 3 1 2 2).enc (.pop (ix 0) (fR 3 1 2 2)) { cR with p := 6 }).pVal 3 = false := by decide +kernel
theorem test_exponents :
    (ran 0 0x0F (FmtI.mk 2 0 0xFFF).enc (.sete (ix 0) ⟨2, 0, 0xFFF⟩) cR).eVal 2 = 0xFF ∧
    (let c := ran 0 0x10 (FmtI.mk 2 1 100).enc (.eadd (ix 0) ⟨2, 1, 100⟩) (cR.setE 1 100); c.eVal 2 = 127 ∧ (c.srVal 0).getLsbD 3 = true) ∧
    (ran 0 0x11 (fR 2 0 1 0).enc (.emin (ix 0) (fR 2 0 1 0)) ((cR.setE 0 5).setE 1 0xFE)).eVal 2 = 0xFE ∧
    (ran 0 0x12 (fR 4 1 0 0).enc (.mfe (ix 0) (fR 4 1 0 0)) (cR.setE 1 0xFE)).sVal 4 = 0xFFFFFFFE ∧
    (let c := ran 0 0x13 (fR 2 3 0 0).enc (.mte (ix 0) (fR 2 3 0 0)) cR; c.eVal 2 = 0x80 ∧ (c.srVal 0).getLsbD 3 = true) ∧
    (ran 0 0x16 (fR 1 2 0 0).enc (.setbx (ix 0) (fR 1 2 0 0)) (cR.setE 2 0x12)).srVal 0x0C = 0x1200 := by decide +kernel
theorem test_special_registers :
    (ran 0 0x14 (FmtI.mk 4 0 0x13).enc (.mfsr (ix 0) ⟨4, 0, 0x13⟩) cR).sVal 4 = 0 ∧ (ran 0 0x15 (FmtI.mk 0 1 0x0F).enc (.mtsr (ix 0) ⟨0, 1, 0x0F⟩) cR).srVal 0x0F = 7 ∧
    ((ran 0 0x15 (FmtI.mk 0 1 0x13).enc (.mtsr (ix 0) ⟨0, 1, 0x13⟩) cR).srVal 0).getLsbD 3 = true ∧
    (ran 0 0x1E (fR 0 0 0 0).enc (.clrrb (ix 0) (fR 0 0 0 0)) (cR.setSr 2 5)).srVal 2 = 0 := by decide +kernel
theorem test_control_flow :
    ((after (.br (ix 0) ⟨0x123, 0⟩) (engAt 0 (slotWord 0x18 false 0 (FmtB.mk 0x123 0).enc) cR)).eng 0).branch = some 0x123 ∧
    (ran 0 0x19 (FmtB.mk 0x123 0).enc (.call (ix 0) ⟨0x123, 0⟩) cR).sVal 31 = 1 ∧
    ((after (.ret (ix 0) (fR 0 0 0 0)) (engAt 0 (slotWord 0x1A false 0 (fR 0 0 0 0).enc) (cR.setS 31 9))).eng 0).branch = some 9 ∧
    ((after (.halt (ix 0) (fR 0 0 0 0)) (engAt 0 (slotWord 0x1F false 0 (fR 0 0 0 0).enc) cR)).eng 0).haltAfter = true ∧
    ((after (.nop (ix 0)) (engAt 0 (slotWord 0 false 0 0) cR)).eng 0).slot = 1 := by decide +kernel
theorem test_loops :
    (let t := after (.loop (ix 0) ⟨1, 100, 2⟩) (engAt 0 (slotWord 0x1C false 0 (FmtP.mk 1 100 2).enc) cR); (t.eng 0).next.srVal 3 = 99 ∧ (t.eng 0).loopStart = some (false, 1, 3)) ∧
    ((after (.loop (ix 0) ⟨1, 0, 2⟩) (engAt 0 (slotWord 0x1C false 0 (FmtP.mk 1 0 2).enc) cR)).eng 0).skip = some 4 ∧
    (after (.loop (ix 0) ⟨1, 5, 2⟩) (engAt 0 (slotWord 0x1C false 0 (FmtP.mk 1 5 2).enc) { cR with lv0 := some false, lv1 := some false })).fld (Pg.engCtl 0) Fld.ENG_STATUS_FAULT = 6 ∧
    (let t := after (.loopr (ix 0) ⟨0, 0x0F0, 1⟩) (engAt 0 (slotWord 0x1D false 0 (FmtP.mk 0 0x0F0 1).enc) cR)
     (t.eng 0).next.srVal 3 = 6 ∧ (t.eng 0).next.srVal 5 = 7 ∧ (t.eng 0).next.p = 1) := by decide +kernel
/-- VLD and LDW read data memory, stores wait for the bundle's end; an address outside the map and one not aligned are faults. -/
def dataAt (slot : Fin 4) (op : BitVec 6) (f : FmtM) (c : EngCore) : State := (engAt slot (slotWord op false 0 f.enc) c).setDataWord 0 1 (.ok 0xAABBCCDD00112233)
theorem test_loads :
    ((after (.vld (ix 1) ⟨5, 9, 0⟩) (dataAt 1 0x01 ⟨5, 9, 0⟩ cR)).eng 0).next.vVal 5 = 0xAABBCCDD001122330000000000000000 ∧
    (let c := ((after (.vldi (ix 1) ⟨5, 9, 1⟩) (dataAt 1 0x02 ⟨5, 9, 1⟩ cR)).eng 0).next; c.vVal 5 = 0xAABBCCDD001122330000000000000000 ∧ c.sVal 9 = 64) ∧
    ((after (.ldw (ix 1) ⟨5, 9, 3⟩) (dataAt 1 0x05 ⟨5, 9, 3⟩ cR)).eng 0).next.sVal 5 = 0xAABBCCDD ∧
    (after (.ldw (ix 1) ⟨5, 1, 0⟩) (dataAt 1 0x05 ⟨5, 1, 0⟩ cR)).fld (Pg.engCtl 0) Fld.ENG_STATUS_FAULT = 3 ∧
    (after (.vld (ix 1) ⟨5, 9, 0⟩) (dataAt 1 0x01 ⟨5, 9, 0⟩ (cR.setS 9 0x40000))).fld (Pg.engCtl 0) Fld.ENG_STATUS_FAULT = 2 := by decide +kernel
theorem test_stores :
    ((after (.vst (ix 1) ⟨5, 9, 0x7FF⟩) (dataAt 1 0x03 ⟨5, 9, 0x7FF⟩ (cR.setS 9 64))).eng 0).stores = [⟨0, true, 0⟩] ∧
    (let g := (after (.vsti (ix 1) ⟨5, 9, 1⟩) (dataAt 1 0x04 ⟨5, 9, 1⟩ cR)).eng 0; g.stores = [⟨0, true, 0⟩] ∧ g.next.sVal 9 = 64) ∧
    ((after (.stw (ix 1) ⟨1, 9, 1⟩) (dataAt 1 0x06 ⟨1, 9, 1⟩ cR)).eng 0).stores = [⟨4, false, 7⟩] := by decide +kernel
/-- Streams. -/
theorem test_streams :
    (let s := engAt 2 (slotWord 0x10 false 0 (FmtT.mk 5 1 0 0 0).enc) cR
     let g := (after (.sin (ix 2) ⟨5, 1, 0, 0, 0⟩) (s.setEng 0 { s.eng 0 with in1 := [⟨77, 0x2⟩] })).eng 0
     g.next.vVal 5 = 77 ∧ g.next.srVal 0x0E = 2 ∧ g.pops = [1] ∧ s.bundleStalls 0 = true ∧ (s.setEng 0 { s.eng 0 with in1 := [⟨77, 0x2⟩] }).bundleStalls 0 = false) ∧
    ((after (.sout (ix 2) ⟨5, 0, 0, 0, 0⟩) (engAt 2 (slotWord 0x11 false 0 (FmtT.mk 5 0 0 0 0).enc) cR)).eng 0).beats.length = 1 ∧
    ((after (.shiftin (ix 2) ⟨16, 0, 7, 3, 0⟩) (engAt 2 (slotWord 0x12 false 0 (FmtT.mk 16 0 7 3 0).enc) cR)).eng 0).shiftStart =
      some ⟨16, 0, 8, 4, [16, 17, 18, 19, 20, 21, 22, 23], []⟩ := by decide +kernel
def shiftSt : State := let s := engAt 0 0 (cR.setVPhys 3 30 |>.setVPhys 4 40)
  s.setEng 0 { s.eng 0 with shift := some ⟨2, 1, 3, 1, [2, 3, 4], [⟨55, 9⟩]⟩ }
theorem test_shift_update : let g := (after (.shiftinWindowUpdate 0) shiftSt).eng 0
    g.shift = none ∧ mgetD 0 g.core.v 2 = 30 ∧ mgetD 0 g.core.v 3 = 40 ∧ mgetD 0 g.core.v 4 = 55 ∧ g.core.srVal 0x0E = 9 := by decide +kernel
theorem test_input_beat : let s := shiftSt.setEng 0 { shiftSt.eng 0 with shift := some ⟨2, 1, 3, 1, [2, 3, 4], []⟩ }
    s.dieUp 0 = true ∧ ((after (.inputBeat 0 1 5 6) s).eng 0).in1 = [] ∧ ((after (.inputBeat 0 1 5 6) s).eng 0).shift.map Shift.beats = some [⟨5, 6⟩] ∧
      ((after (.inputBeat 0 0 5 6) s).eng 0).in0 = [⟨5, 6⟩] := by decide +kernel
theorem test_output_beat : let s := shiftSt.setEng 0 { shiftSt.eng 0 with out0 := [⟨5, 6⟩] }
    (after (.outputBeat 0 0) s).out = [.beat 0 0 ⟨5, 6⟩] ∧ ((after (.outputBeat 0 0) s).eng 0).out0 = [] := by decide +kernel

/-- Vectors of type H: elements 0x0123, 0xFF80, 0x0040, 0xFC00 and zeros (the example of R102). -/
def vH : Line := 0xFC000040FF800123
def cV : EngCore := ((EngCore.reset.setVPhys 1 vH).setVPhys 2 0x0002000200020002).setS 6 3
def vRun (op : BitVec 6) (i : Issue → FmtV → Instr) (f : FmtV) (c : EngCore) : EngCore := ran 3 op f.enc (i (ix 3) f) c
/-- Slot 3 ends the bundle, so what it wrote is in the registers. -/
def vEnd (op : BitVec 6) (i : Issue → FmtV → Instr) (f : FmtV) (c : EngCore) : EngCore := ((after (i (ix 3) f) (engAt 3 (slotWord op false 0 f.enc) c)).eng 0).core
theorem test_vectors :
    (vEnd 0x01 .vadd ⟨3, 1, 2, 0, 0, 0⟩ cV).vVal 3 = 0xFC020042FF820125 ∧ (vEnd 0x02 .vsub ⟨3, 1, 2, 0, 0, 0⟩ cV).vVal 3 = 0xFBFE003EFF7E0121 ∧
    (vEnd 0x03 .vand ⟨3, 1, 2, 0, 0, 0⟩ cV).vVal 3 = 0x0000000000000002 ∧ (vEnd 0x04 .vor ⟨3, 1, 2, 0, 0, 0⟩ cV).vVal 3 = 0xFC020042FF820123 ∧
    (vEnd 0x05 .vxor ⟨3, 1, 1, 0, 0, 0⟩ cV).vVal 3 = 0 ∧ (vEnd 0x06 .vmax ⟨3, 1, 2, 0, 0, 0⟩ cV).vVal 3 = 0x0002004000020123 ∧
    (vEnd 0x07 .vmin ⟨3, 1, 2, 0, 0, 0⟩ cV).vVal 3 = 0xFC000002FF800002 := by decide +kernel
theorem test_vector_shifts :
    (let c := vEnd 0x08 .vshl ⟨3, 1, 6, 0, 1, 0⟩ cV; c.vVal 3 = 0x80001000E00048C0 ∧ (c.srVal 0).getLsbD 1 = true) ∧
    (vEnd 0x09 .vsra ⟨3, 1, 4, 0, 0, 0⟩ cV).vVal 3 = 0xFFC00004FFF80012 ∧ (vEnd 0x0A .vmul ⟨3, 1, 1, 0, 0, 0⟩ cV).vVal 3 = 0x0020000000000002 ∧
    ((vEnd 0x0B .vbcst ⟨3, 6, 0, 1, 0, 0⟩ cV).vVal 3).extractLsb' 0 64 = 0x0000000300000003 := by decide +kernel
/-- VEXP gives E2 = 5, and VSCALE by it turns −1,024 into −32,768 without a flag; VNORM's two results. -/
theorem test_vexp : let c := vEnd 0x0D .vexp ⟨2, 1, 0, 0, 0, 0⟩ cV
    let t := vEnd 0x0F .vscale ⟨3, 1, 2, 0, 1, 0⟩ c
    c.eVal 2 = 5 ∧ (t.vVal 3).extractLsb' 48 16 = 0x8000 ∧ t.srVal 0 = 0 ∧
      ((vEnd 0x0C .vnorm ⟨3, 1, 4, 0, 0, 0⟩ cV).vVal 4).extractLsb' 0 64 = 0x0005000800080006 := by decide +kernel
theorem test_accumulators :
    let k := fun (op : BitVec 6) (i : Issue → FmtK → Instr) (f : FmtK) (c : EngCore) => ((after (i (ix 3) f) (engAt 3 (slotWord op false 0 f.enc) c)).eng 0).core
    let c := vEnd 0x15 .aset ⟨0, 6, 0, 0, 0, 0⟩ cV
    aElems (c.aVal 0) = List.replicate 32 3 ∧ ((aElems ((k 0x10 .vmac ⟨0, 1, 2, 0, 0⟩ c).aVal 0)).take 4) = [585, -253, 131, -2045] ∧
      ((aElems ((k 0x11 .vmpy ⟨0, 1, 2, 0, 0⟩ c).aVal 0)).take 4) = [582, -256, 128, -2048] ∧ ((aElems ((k 0x12 .vmsub ⟨0, 1, 2, 0, 0⟩ c).aVal 0)).take 4) = [-579, 259, -125, 2051] ∧
      ((aElems ((k 0x13 .vmacb ⟨0, 1, 1, 2, 0⟩ c).aVal 0)).take 2) = [3 + 291 * 64, 3 - 128 * 64] ∧
      ((aElems ((k 0x14 .vfir ⟨0, 0, 1, 1, 0⟩ (c.setVPhys 0 0)).aVal 0)).take 3) = [3, 3 + 291 * -128, 3 + 128 * 128] ∧
      (vEnd 0x0E .aexp ⟨2, 0, 0, 0, 0, 0⟩ c).eVal 2 = 45 := by decide +kernel
/-- ACCOUT in block-floating-point mode (the example of R113): t = 32 − 20 = 12; 140,000,000 saturates, −9,000,000 becomes −2,198. -/
theorem test_accout :
    let c := ((EngCore.reset.setA 0 (aPack ([140000000, -9000000] ++ List.replicate 30 0))).setSr 0x09 0x80000040).setSr 0x0B 0x00001400
    let g := (after (.accout (ix 3) ⟨0, 0, 32, 1, 1, 0⟩) (engAt 3 (slotWord 0x16 false 0 (FmtN.mk 0 0 32 1 1 0).enc) c)).eng 0
    (g.out0.map fun b => (b.data.extractLsb' 0 16, b.data.extractLsb' 16 16)) = [(0x7FFF, 0xF76A)] ∧ (g.core.srVal 0).getLsbD 0 = true := by decide +kernel

/-! ### Engine control (statements of chapter 05) -/

/-- A slot whose guard predicate is 0, an engine that is halted, a word that fails its check, a bundle whose reserved bits are not zero. -/
theorem test_skipped : let s := engAt 2 (slotWord 0x10 true 1 0) cR
    SlotReady s ⟨0, 2, true, 1⟩ [2] 0x10 0 ∧ (s.eng 0).core.pVal 1 = false ∧ ((after (.sin ⟨0, 2, true, 1⟩ ⟨0, 0, 0, 0, 0⟩) s).eng 0).slot = 3 ∧
      State.reset.engIssues 0 = false := by unfold SlotReady; decide +kernel
theorem test_illegal_bundle : let s := (engAt 0 (slotWord 0x3F false 0 0) cR)
    s.engIssues 0 = true ∧ s.progSlot 0 0 = slotWord 0x3F false 0 0 ∧ (s.progWord 0 (s.engPc 0)).decode = .clean ∧
      legalBundle (s.progWord 0 (s.engPc 0)).data = false := by decide +kernel
theorem test_uncorrectable_fetch : ProgWord.decode ⟨0, 3⟩ = .uncorrectable := eccDecode_three 128 9 0 (by decide)
theorem test_engine_fault : (engAt 0 0 cR).lanOn 0 = true ∧
    (let t := (engAt 0 0 cR).engFault 0 15 4095; t.engState 0 = 3 ∧ t.fld (Pg.engCtl 0) Fld.ENG_FAULT_PC_FAULT_PC = 4095) ∧
    ((engAt 0 0 cR).setFld (Pg.lan 23) Fld.LAN_LAN_STAT_PWR 1).lanOn (95 / 4) = true := by decide +kernel
/-- The end of a bundle at PC 4,095: the next bundle stops with PCRANGE, with FAULT_PC 4,095 (log 13). -/
def lastBundle : State := flds [(Pg.engCtl 0, Fld.ENG_PC_PC, 4095)] ((engAt 3 0 cR).setProgWord 0 4095 ⟨0, 0⟩)
theorem test_bundle_end : SlotReady lastBundle (ix 3) [0, 1, 2, 3] 0 0 ∧ SlotOpen lastBundle (ix 3) ∧ lastBundle.lanOn 0 = true ∧
    (let g := lastBundle.eng 0; g.stores.isEmpty && g.beats.isEmpty && g.pops.isEmpty && g.loopStart.isNone && g.shiftStart.isNone && g.shift.isNone && !g.memErr &&
      g.next.lv0.isNone && g.next.lv1.isNone) = true ∧
    (let t := after (.nop (ix 3)) lastBundle
     (t.eng 0).past = true ∧ t.engPc 0 = 0 ∧ (after (.nop (ix 0)) t).fld (Pg.engCtl 0) Fld.ENG_STATUS_FAULT = 5) := by
  unfold SlotReady SlotOpen; decide +kernel

/-- Loop levels: engine 0 after the last bundle, 6, of bodies that start at 2. -/
def loopAt (lv0 lv1 : Option Bool) (lc0 lc1 sg : Word) (p : Byte) : State :=
  let c := { ((((((cR.setSr 3 lc0).setSr 4 lc1).setSr 6 0x60002).setSr 7 0x60002)).setSr 5 sg) with lv0 := lv0, lv1 := lv1, p := p }
  let s := engAt 0 0 c
  flds [(Pg.engCtl 0, Fld.ENG_PC_PC, 7)] (s.setEng 0 { s.eng 0 with atEnd := some 6 })
def looped (i : Fin 96 → Instr) (s : State) : Nat × EngCore := ((after (i 0) s).engPc 0, ((after (i 0) s).eng 0).core)
theorem test_loop_ends :
    (let c := ((loopAt (some false) none 1 0 0 0).eng 0).core; fieldOf (c.srVal 0x06) 16 12 = 6 ∧ fieldOf (c.srVal 0x07) 16 12 = 6) ∧
    (let r := looped .loopBodyEnd (loopAt (some false) none 1 0 0 0); r.1 = 2 ∧ r.2.srVal 3 = 0 ∧ r.2.lv0 = some false) ∧
    (let r := looped .loopBodyEnd (loopAt (some false) none 0 0 0 0); r.1 = 7 ∧ r.2.lv0 = none) ∧
    (let r := looped .loopBodyEnd (loopAt (some false) (some false) 5 1 0 0); r.1 = 2 ∧ r.2.srVal 4 = 0 ∧ r.2.srVal 3 = 5) ∧
    (let r := looped .loopBodyEnd (loopAt (some false) (some false) 5 0 0 0); r.1 = 2 ∧ r.2.lv1 = none ∧ r.2.srVal 3 = 4) := by decide +kernel
/-- The drain of a rotating loop (R118): P0 is 0, the stage predicates move on, and the level ends when all are 0. -/
theorem test_rotating :
    (let r := looped .rotatingPassEnd (loopAt (some true) none 1 0 1 1); r.1 = 2 ∧ r.2.srVal 3 = 0 ∧ r.2.srVal 2 = 1 ∧ r.2.pVal 0 = true ∧ r.2.pVal 1 = true) ∧
    (let r := looped .rotatingPassEnd (loopAt (some true) none 0 0 1 1); r.1 = 2 ∧ r.2.pVal 0 = false ∧ r.2.pVal 1 = true) ∧
    (let r := looped .rotatingPassEnd (loopAt (some true) none 0 0 1 0); r.1 = 7 ∧ r.2.lv0 = none ∧ r.2.srVal 5 = 0) := by decide +kernel

/-- Engine 0 in a state with its lock held. -/
def engIn (st : Nat) (g : Engine → Engine) : State := let s := engAt 0 0 cR
  locked (Pg.engCtl 0) (flds [(Pg.engCtl 0, Fld.ENG_STATUS_STATE, st)] (s.setEng 0 (g (s.eng 0))))
def sh0 : Shift := ⟨63, 1, 16, 8, [], [⟨55, 9⟩]⟩
theorem test_halt : takes (engIn 2 id) 1 (Pg.engCtl 0) Reg.ENG_CMD 1 = true ∧ (after (.haltCommand 1 0) (engIn 2 id)).engState 0 = 5 ∧
    takes (engIn 4 id) 1 (Pg.engCtl 0) Reg.ENG_CMD 1 = true ∧ ((after (.haltCommand 1 0) (engIn 4 id)).eng 0).haltHeld = true ∧
    ((after (.haltTaken 0) (engIn 5 id)).eng 0).taken = true ∧
    (after (.haltComplete 0) (engIn 5 fun g => { g with taken := true })).engState 0 = 1 := by decide +kernel
/-- HALT_TMO: the SHIFTIN of v 63, 16 registers, 8 beats of stream 1 is abandoned with one beat taken. -/
theorem test_halt_timeout : let t := after (.haltTimeout 0) (engIn 5 fun g => { g with taken := true, shift := some sh0 })
    (t.eng 0).ret1 = [⟨55, 9⟩] ∧ t.fld (Pg.engCtl 0) Fld.ENG_SHIFT_SAVED_V = 63 ∧ t.fld (Pg.engCtl 0) Fld.ENG_SHIFT_SAVED_B_M1 = 7 ∧
      t.fld (Pg.engCtl 0) Fld.ENG_STATUS_REPLAY = 1 := by decide +kernel
theorem test_resume : takes (engIn 3 id) 1 (Pg.engCtl 0) Reg.ENG_CMD 2 = true ∧ (after (.resume 1 0) (engIn 3 id)).engState 0 = 2 ∧
    takes (engIn 1 id) 1 (Pg.engCtl 0) Reg.ENG_CMD 4 = true ∧ ((after (.stepCmd 1 0) (engIn 1 id)).eng 0).step = true := by decide +kernel
/-- A step with REPLAY set issues the saved SHIFTIN alone. -/
theorem test_step_replay : let s := flds [(Pg.engCtl 0, Fld.ENG_STATUS_REPLAY, 1), (Pg.engCtl 0, Fld.ENG_SHIFT_SAVED_V, 3)] (engIn 1 id)
    takes s 1 (Pg.engCtl 0) Reg.ENG_CMD 4 = true ∧ (let t := after (.stepCmd 1 0) s; (t.eng 0).shift.map Shift.v = some 3 ∧ (t.eng 0).stepDone = true) ∧
    (after (.stepComplete 0) (engIn 2 fun g => { g with step := true, stepDone := true })).engState 0 = 1 := by decide +kernel
/-- The lantern sync: SYNC, LSYNC, an engine's clears, the release. -/
def synced : State := after (.sync 1 0) (locked (Pg.lan 0) (flds [(Pg.lan 0, Fld.LAN_SYNC_CTRL_RUN_MASK, 1), (Pg.lan 0, Fld.LAN_SYNC_CTRL_FAB_SYNC_EN, 1),
  (Pg.lan 0, Fld.LAN_SYNC_CTRL_FLUSH_IN, 1), (Pg.engCtl 0, Fld.ENG_DLY_RANGE_LEN, 1), (Pg.engCtl 0, Fld.ENG_ENTRY_ENTRY, 0xABC)] (engIn 1 id)))
theorem test_sync : takes (locked (Pg.lan 0) (engIn 1 id)) 1 (Pg.lan 0) Reg.LAN_SYNC_CMD 1 = true ∧
    synced.fld (Pg.lan 0) Fld.LAN_SYNC_STAT_BUSY = 1 ∧ synced.engState 3 = 4 ∧ synced.dieUp 0 = true ∧ synced.bit (Pg.lan 0) Fld.LAN_SYNC_CTRL_FAB_SYNC_EN = true ∧
    (after (.lsync 0) synced).fld (Pg.lan 0) (Fld.PG_TRB_CNT 0) = 1 ∧
    (after (.lsync 0) (flds [(Pg.lan 0, Fld.LAN_SYNC_CTRL_FAB_SYNC_EN, 1)] (engIn 1 id))).engState 3 = 4 := by decide +kernel
theorem test_sync_engine : let s := synced.setDataWord 0 7 (.ok 9) |>.setDataWord 0 8 (.ok 9)
    let t := after (.syncEngineDone 0) s
    (s.eng 0).shift.isNone = true ∧ (s.fld (Pg.lan 0) Fld.LAN_SYNC_STAT_DONE).testBit 0 = false ∧
    t.fld (Pg.lan 0) Fld.LAN_SYNC_STAT_DONE = 1 ∧ t.engPc 0 = 0xABC ∧ (t.eng 0).core.sVal 1 = 7 ∧ t.dataWord 0 7 = .ok 0 ∧ t.dataWord 0 8 = .ok 9 := by decide +kernel
theorem test_sync_release : let t := after (.syncRelease 0) (flds [(Pg.lan 0, Fld.LAN_SYNC_STAT_DONE, 15)] synced)
    t.fld (Pg.lan 0) Fld.LAN_SYNC_STAT_BUSY = 0 ∧ t.engState 0 = 2 ∧ t.engState 1 = 1 := by decide +kernel
theorem test_engine_maintenance :
    (let s := engIn 2 fun g => { g with core := g.core.setSr 0x11 1 }
     s.engState 0 = 2 ∧ (after (.stallLimitExpiry 0) s).fld (Pg.engCtl 0) (Fld.PG_TRB_CNT 3) = 1) ∧
    ((after (.ringAccessStarvation 0) (engIn 2 id)).eng 0).hold = true ∧
    (let s := locked (Pg.engSr 0) (engIn 1 id)
     takes s 1 (Pg.engSr 0) 0x17C 0xFFFFFFFF = true ∧ ((after (.engSrWrite 1 0 0x17C 0xFFFFFFFF) s).eng 0).core.sVal 31 = 0xFFFFFFFF) := by decide +kernel
theorem test_lantern_write_back :
    (let s := { user with engs.wbLan := mputD 0 [] (lanKey 23 131071) 5 }
     mget s.engs.wbLan (lanKey 23 131071) = some 5 ∧ s.lanRaw (.lan 23) = false ∧ (after (.lanternWordWriteBack (.lan 23) 131071) s).lanWord 23 131071 = .ok 5) ∧
    (let s := { user with engs.wbData := mputD 0 [] (dataKey 95 32767) 5 }
     s.lanRaw (.data 95) = false ∧ (after (.lanternWordWriteBack (.data 95) 32767) s).dataWord 95 32767 = .ok 5) := by decide +kernel
/-- The last word of data memory answers a load; the word beyond it is no engine address (EngineMemoryAccess). -/
theorem test_data_memory_end : (after (.ldw (ix 1) ⟨5, 9, 0xFFF⟩) (engAt 1 (slotWord 0x05 false 0 (FmtM.mk 5 9 0xFFF).enc) (cR.setS 9 0x40000))).fld (Pg.engCtl 0) Fld.ENG_STATUS_FAULT = 0 ∧
    engMem 95 0x40000 = none ∧ (user.memWrite (.data 95) 32767 0x01 5).1 = true ∧ (user.memWord (.lan 23) 131071).decode = .clean := by decide +kernel
theorem test_uncorrectable_word : EccWord.decode ⟨0, 3⟩ = .uncorrectable := eccDecode_three 64 8 0 (by decide)
/-- A beat that starts a block of 32 samples (BeatSideband): BXC takes BXN for both halves, SCNT returns to 0. -/
theorem test_beat_sideband : let c := (cR.setSr 0x09 0x80000020).setSr 0x0B 0x0500
    let g := (sendBeat 0 0 9 (engAt 0 0 c)).eng 0
    ((engAt 0 0 c).eng 0).next = c ∧ g.beats.map (fun b => (fieldOf b.2.sb 8 8, fieldOf b.2.sb 16 8, fieldOf b.2.sb 5 2)) = [(5, 5, 1)] ∧ g.next.srVal 0x0B = 0x0505 := by decide +kernel

/-! ### The ring network (statements of chapter 06) -/

/-- The worked examples of R151 and R443: FP14 at STOP09 to SC31 at STOP52, 21 hops on ring 5, back on ring 4; FP20 at STOP14 to SC13 at STOP22 on ring 6, 8 hops. -/
theorem test_routes : user.route 9 52 = 5 ∧ user.route 52 9 = 4 ∧ ((List.range 64).filter fun x => crosses 9 52 5 x).length = 21 ∧
    user.route 14 22 = 6 ∧ ((List.range 64).filter fun x => crosses 14 22 6 x).length = 8 ∧ crosses 14 22 6 20 = true := by decide +kernel
/-- A known failure on the way: RouteRule's last premise fails and another ring is taken; half-way round both ways are possible and a < b decides. -/
theorem test_route_half : user.route 0 32 % 2 = 0 ∧ user.route 32 0 % 2 = 1 ∧ routeIn [(14, 20, 6)] 14 22 = 7 ∧ routeIn [(14, 20, 6), (14, 14, 7)] 14 22 ≠ 6 := by decide +kernel
/-- The worked example of R150: tenant 12 in WIN3 of STOP56 may read and not write. -/
def win3 (s : State) : State := flds [(Pg.stop 56, Fld.STOP_WIN_BASE_BASE 3, 0x200000), (Pg.stop 56, Fld.STOP_WIN_LIMIT_LIMIT 3, 0x23FFFF), (Pg.stop 56, Fld.STOP_WIN_TEN_TID 3, 0x008),
  (Pg.stop 56, Fld.STOP_WIN_TEN_MASK 3, 0x1F8), (Pg.stop 56, Fld.STOP_WIN_TEN_R 3, 1), (Pg.stop 56, Fld.STOP_WIN_TEN_EN 3, 1)] s
theorem test_window : (win3 user).admits 56 12 0x002140000040 false = true ∧ (win3 user).admits 56 12 0x002140000040 true = false ∧
    (win3 user).admits 56 16 0x002140000040 false = false := by decide +kernel

/-- Ring port FP00 (STOP00 IF0) of tenant 5 with windows over the lantern memories; LAN00 is STOP05 IF0, ON. -/
def ringSt : State := flds [(Pg.stop 0, Fld.STOP_WIN_BASE_BASE 0, 0), (Pg.stop 0, Fld.STOP_WIN_LIMIT_LIMIT 0, 0xFFFFFFFF), (Pg.stop 0, Fld.STOP_WIN_TEN_MASK 0, 0),
  (Pg.stop 0, Fld.STOP_WIN_TEN_R 0, 1), (Pg.stop 0, Fld.STOP_WIN_TEN_W 0, 1), (Pg.stop 0, Fld.STOP_WIN_TEN_EN 0, 1), (Pg.lan 0, Fld.LAN_LAN_STAT_PWR, 1), (Pg.clkMl, Fld.ML_STAT_STATE 32, 2)]
  ((user.setIfState 0 0 1).setIfState 5 0 1)
def rq (addr : BitVec 64) (len : BitVec 3) : EpReq := ⟨addr, len, 9, 0x1122334455667788, BitVec.allOnes 64, 0⟩
def queued (typ : ReqType) (r : EpReq) (s : State) : State := s.handIn 0 0 ⟨typ, r, 5, false⟩
/-- A request passes (each type; here to LAN00's memory and, for a CMO, a cached line), is refused (a reserved bit of the address), is a CMO outside the cacheable ranges. -/
theorem test_inject :
    ([(ReqType.rd, 0x010023000008, 4), (.wr, 0x010023000008, 4), (.wrp, 0x010023000008, 4), (.clean, 0x780, 0), (.flush, 0x780, 0)].all fun p =>
      let e : EpEntry := ⟨p.1, rq (BitVec.ofNat 64 p.2.1) (BitVec.ofNat 3 p.2.2), 5, false⟩
      let s := queued p.1 e.r ringSt
      let c := s.queueOf 0 0 p.1 p.2.1
      s.epQ (ifKey 0 0) c == [e] && decide (s.rings.epReq.length + s.rings.epPost.length + s.rings.epMgmt.length = 1) && s.mayInject 0 0 &&
      (mget s.rings.fences (ifKey 0 0)).isNone &&
      match s.headDest 0 0 e with
      | some d => (let c := s.classOf 0 0 p.1 d; !s.flowHeld 0 d.1 && s.turnOk 0 0 c && s.freeTag 0 c == some 0 && s.pathOpen 0 d.1 (s.route 0 d.1) &&
          !s.injWaits 0 0 c.vc && s.mayPace 0 0 c.vc true && s.mayEnter 0 (s.route 0 d.1) c.vc 2)
      | none => false) = true ∧
    (let t := after (.rd 0 0 (rq 0x010023000008 4)) (queued .rd (rq 0x010023000008 4) ringSt)
     (t.txn ⟨0, .req, 0⟩).map (fun x => (x.dst, x.dstIf, x.phase, x.ring)) = some (5, 0, .flying, ringSt.route 0 5) ∧ t.rings.epReq = [] ∧ t.rings.flits.length = 1) := by decide +kernel
theorem test_inject_refused : let r := rq 0x0400000000000000 4
    ringSt.checkReq 0 .rd 5 r = none ∧ epKind 0 0 = .port 0 ∧
    (let t := after (.rd 0 0 r) (queued .rd r ringSt)
     mgetD [] t.fab.rsp 0 = [⟨false, 9, .busError, 0⟩] ∧ t.fld (Pg.stop 0) (Fld.PG_TRB_CNT 0) = 1 ∧ t.fld (Pg.stop 0) Evt.STOP_REFUSED = 1) ∧
    (let t := after (.wrp 0 0 r) (queued .wrp r ringSt); (mgetD [] t.rings.errq 0).length = 1) ∧
    (ringSt.checkReq 0 .clean 5 (rq 0x010023000000 0)).isSome = true ∧ cacheable 0x010023000000 = false ∧
    (let t := after (.cmoClean 0 0 (rq 0x010023000000 0)) (queued .clean (rq 0x010023000000 0) ringSt); mgetD [] t.fab.rsp 0 = [⟨false, 9, .ok, 0⟩]) := by decide +kernel

/-- A transaction from FP00 to LAN00. -/
def tk : TxnKey := ⟨0, .req, 255⟩
def tx (typ : ReqType) (addr : PhysAddr) (len : BitVec 3) (ph : Phase) : Txn :=
  { ifc := 0, epTag := 9, who := 0, typ, addr, kid := 0, tid := 5, len, data := 0xAAAA0000000000000000, be := BitVec.allOnes 64, poison := false, dst := 5, dstIf := 0, ring := 0, ringBack := 1,
    phase := ph, seq := 3, aseq := 0, live := true }
def flight (ph : Phase) (ifst : Nat) : State := (ringSt.setIfState 5 0 ifst).setTxn tk (tx .rd 0x010023000008 4 ph)
def phaseOf (s : State) (k : TxnKey) : Option Phase := (s.txn k).map Txn.phase
theorem test_arrivals : (flight .flying 1).mayLand (.req tk.no) = true ∧ (flight .flying 1).ejected 5 .req = 0 ∧ (flight .flying 1).pathOpen 5 0 (user.route 5 0) = true ∧ (flight .flying 1).ifState 5 0 = 1 ∧ epKind 5 0 = .lantern 0 ∧
    phaseOf (after (.requestArrival tk) (flight .flying 1)) tk = some .delivered ∧
    phaseOf (after (.requestArrival tk) (flight .flying 3)) tk = some (.answered .domainOff 0) ∧
    phaseOf (after (.requestArrival tk) (flight .flying 6)) tk = some (.answered .domainOff 0) ∧
    phaseOf (after (.requestArrival tk) (flight .flying 0)) tk = some (.answered .busError 0) ∧
    phaseOf (after (.requestArrival tk) (flight .flying 5)) tk = some (.answered .busError 0) ∧
    (let t := after (.requestArrival tk) (flight .flying 4); t.rings.parked = [tk] ∧ t.wicks = [.iface 5 0] ∧
      (let u := after (.parkTimeout tk) t; phaseOf u tk = some (.answered .domainOff 0) ∧ u.fld (Pg.stop 5) Evt.STOP_PARK_TO = 1)) ∧
    phaseOf (after (.requestArrival tk) (flds [(Pg.stop 5, Fld.STOP_IF_CTRL_WAKE_EN, 0)] (flight .flying 4))) tk = some (.answered .domainOff 0) := by decide +kernel
theorem test_answers : (flight (.answered .ok 7) 1).mayLand (.ans tk.no) = true ∧
    (let t := after (.rdata tk) (flight (.answered .ok 7) 1); t.txn tk = none ∧ mgetD [] t.fab.rsp 0 = [⟨false, 9, .ok, 7⟩]) ∧
    (let s := ringSt.setTxn ⟨0, .req, 1⟩ (tx .wr 0x010023000008 4 (.answered .busError 0)); mgetD [] (after (.wack ⟨0, .req, 1⟩) s).fab.rsp 0 = [⟨false, 9, .busError, 0⟩]) ∧
    (let s := ringSt.setTxn ⟨0, .post, 1⟩ (tx .wrp 0x010023000008 4 (.answered .busError 0))
     let t := after (.pack ⟨0, .post, 1⟩) s; mgetD [] t.rings.errq 0 = [(0x010023000008, (0, .busError))] ∧ t.txn ⟨0, .post, 1⟩ = none) ∧
    (let s := ringSt.setTxn tk { tx .rd 0x010023000008 4 (.answered .ok 7) with live := false }; (after (.rdata tk) s).fld (Pg.stop 0) (Fld.PG_TRB_CNT 4) = 1) := by decide +kernel
theorem test_timeouts :
    (let t := after (.requestTimeout tk) (flight .flying 1); (t.txn tk).map Txn.live = some false ∧ mgetD [] t.fab.rsp 0 = [⟨false, 9, .busError, 0⟩]) ∧
    (after (.requestTimeout tk) (flight .lost 1)).txn tk = none := by decide +kernel
theorem test_fence : let s := locked (Pg.stop 63) ringSt
    takes s 1 (Pg.stop 63) Reg.STOP_FENCE 1 = true ∧ mget s.rings.fences (ifKey 63 0) = none ∧ (after (.fence 1 63 1) s).fld (Pg.stop 63) Fld.STOP_FENCE_BUSY = 1 ∧
    (let f := after (.fence 1 5 1) (locked (Pg.stop 5) ringSt)
     mget f.rings.fences (ifKey 5 0) = some none ∧ f.ifOpen 5 0 = false ∧ ([TxnClass.req, .post, .mgmt].all fun c => f.beforeFence (ifKey 5 0) c == 0) = true ∧ (f.fld (Pg.stop 5) Fld.STOP_FENCE_BUSY).testBit 0 = true ∧
     (after (.fenceComplete 5 0) f).fld (Pg.stop 5) Fld.STOP_FENCE_BUSY = 0) := by decide +kernel
theorem test_snuff : let s := locked (Pg.stop 5) ringSt
    takes s 1 (Pg.stop 5) Reg.STOP_SNUFF_CTRL 1 = true ∧ takes (s.setIfState 5 0 4) 1 (Pg.stop 5) Reg.STOP_SNUFF_CTRL 16 = true ∧ s.parkedAt 5 0 = [] ∧
    (after (.snuff 1 5 1) s).ifState 5 0 = 3 ∧ (after (.ifOn 1 5 1) (s.setIfState 5 0 4)).ifState 5 0 = 1 ∧
    (let n := s.setIfState 5 0 3
     n.pwr.cmd = none ∧ n.pairs.cmd = none ∧ n.snuffReady 5 0 = true ∧ n.ifOpen 5 0 = false ∧ n.ifUnanswered 5 0 = false ∧ (after (.snuffDone 5 0) n).ifState 5 0 = 4 ∧
     (after (.snuffTimeout 5 0) n).fld (Pg.stop 5) Fld.STOP_SNUFF_STAT_TO = 1) := by decide +kernel
theorem test_starvation : (63, 15) ∉ user.rings.starved ∧ (after (.injectionStarvation 63 15) user).rings.starved = [(63, 15)] := by decide +kernel
/-- The failure of R443: three mismatches on ring 6 beyond STOP20; STOP14 learns of it and drains. -/
def segBad : State := { user with rings.crcFails := mput [] (16 * segAfter 20 6 + 6) 3 }
theorem test_failover : user.pairs.cmd = none ∧ mgetD 0 (after (.flitCrcMismatch 63 15) user).rings.crcFails (16 * 63 + 15) = 1 ∧
    segBad.segFailed 20 6 = false ∧
    (let t := after (.segmentFailed 20 6) segBad
     t.segFailed 20 6 = true ∧ (t.reg Pg.alm Reg.ALM_ALM_SUM).getLsbD 3 = true ∧ t.fld (Pg.stop 20) (Fld.PG_TRB_CNT 7) = 1 ∧ (14, 20, 6) ∉ t.rings.known ∧
     (let u := after (.failoverNotice 14 20 6) t
      u.route 14 22 = 7 ∧ mget u.rings.drain (14 * 1024 + 20 * 16 + 6) = some 0 ∧ u.uncertain 14 20 6 0 = [] ∧ mget (after (.foDrain 14 20 6) u).rings.drain (14 * 1024 + 20 * 16 + 6) = none)) := by decide +kernel
theorem test_drain_uncertain : let k : TxnKey := ⟨14, .req, 0⟩
    let x := { tx .rd 0x780 0 .flying with dst := 22, dstIf := 2, ring := 6, ringBack := 7 }
    let s := { user.setTxn k x with rings.drain := mput [] (14 * 1024 + 20 * 16 + 6) 100 }
    s.uncertain 14 20 6 100 = [(k.no, x)] ∧ epKind 14 0 = .port 16 ∧ ((after (.foDrain 14 20 6) s).txn k).map Txn.live = some false := by decide +kernel
/-- Lantern memories over the rings: a word at the end of LAN00's memory, a bundle of ENG00; the memory bases of the worked example of R28 (ENG37). -/
def ringTo (typ : ReqType) (addr : PhysAddr) (len : BitVec 3) : State := ringSt.setTxn tk (tx typ addr len .delivered)
theorem test_lantern_memories : lanternPlace 0x0100230FFFF8 = (.lan 0, 0xFFFF8) ∧ lanternPlace 0x0100212C0000 = (.data 37, 0) ∧
    phaseOf (after (.lanternMemoryRingRead tk) ((ringTo .rd 0x010023000008 4).setLanWord 0 1 (.ok 5))) tk = some (.answered .ok (5 <<< 64)) ∧
    (after (.lanternMemoryRingWrite tk) (ringTo .wr 0x010023000008 4)).lanWord 0 1 = .ok 0xAAAA ∧
    (let s := flds [(Pg.engCtl 0, Fld.ENG_STATUS_STATE, 1)] (ringTo .wr 0x010020000010 5)
     (after (.programMemoryWrite tk) s).progWord 0 1 = ⟨0, 0⟩ ∧ phaseOf (after (.programMemoryWrite tk) s) tk = some (.answered .ok 0)) ∧
    (let s : State := { ringSt with rings.posted := [(tk.no, tx .wrp 0x010023000008 4 .delivered)] }
     let t := after (.lanternMemoryRingWrite tk) s; t.lanWord 0 1 = .ok 0xAAAA ∧ t.rings.posted = []) ∧
    phaseOf (after (.programMemoryWrite tk) (flds [(Pg.engCtl 0, Fld.ENG_STATUS_STATE, 2)] (ringTo .wr 0x010020000010 5))) tk = some (.answered .busError 0) := by decide +kernel

/-! ### Caches and coherence (statements of chapter 07): line 0x780 of HBM, whose home is SC30 (the worked example of R172) -/

theorem test_home : homeSlice (0x780 / 64) = 30 ∧ sliceAt 30 = (51, 2) := by decide +kernel
def ln : LineAddr := 30
def scl : ScLine := ⟨0xD0D0, 0, 0, 0, false, false, 0⟩
/-- SC30 holds the line; the directory has the entry given. -/
def homeSt (e : Option DirEnt) : State := let s := { user with coh.sc := mput [] 30 scl }
  match e with | some e => { s with coh.dir := mput [] 30 e } | none => s
/-- Die 7 has sent a CRD. -/
def asks (k : CrdKind) (e : Option DirEnt) : State := (homeSt e).sendCrd 7 ⟨30, k, 0, 5⟩
def ent (dx : Bool) (pres : Byte) : DirEnt := ⟨dx, pres, 0, 0, 0⟩
theorem test_at_home : let s := asks .rds none
    s.cohWaits (.crd (chKey 7 30)) = false ∧ s.dramRefuses 30 = false ∧ s.coh.rangeLeft = [] ∧
    (let f := s.setCb 30 Fld.CB_CB_STAT_STATE 5; f.dramRefuses 30 = true ∧ mgetD [] (after (.rds 7 ln) f).coh.homeCh (chKey 7 30) = [.cgnt 30 false none .busError]) ∧
    s.trkFree 30 = true ∧ (s.fld (Pg.sc 30) Fld.SC_SC_STAT_WALK).testBit 7 = false ∧ s.trk 30 = [] ∧ s.slotCheck true 0 5 = none ∧
    (s.dirWays 30).length < 16 ∧
    mgetD [] (after (.rds 7 ln) s).coh.homeCh (chKey 7 30) = [.cgnt 30 true (some 0xD0D0) .ok] ∧
    (let t := after (.rds 7 ln) (asks .rds (some (ent false 1))); mgetD [] t.coh.homeCh (chKey 7 30) = [.cgnt 30 false (some 0xD0D0) .ok] ∧ (mget t.coh.dir 30).map DirEnt.pres = some 0x81) ∧
    mgetD [] (after (.upg 7 ln) (asks .upg (some (ent true 0x80)))).coh.homeCh (chKey 7 30) = [.cgnt 30 true (some 0xD0D0) .ok] ∧
    mgetD [] (after (.upg 7 ln) (asks .upg (some (ent false 0x80)))).coh.homeCh (chKey 7 30) = [.cgnt 30 true none .ok] ∧
    mgetD [] (after (.rdx 7 ln) (asks .rdx (some (ent false 0x80)))).coh.homeCh (chKey 7 30) = [.cgnt 30 true (some 0xD0D0) .ok] ∧
    (let t := after (.rdx 7 ln) (asks .rdx (some (ent false 0x83))); mgetD [] t.coh.snpCh (chKey 0 30) = [⟨30, .snpi, false⟩] ∧ mgetD [] t.coh.snpCh (chKey 7 30) = [] ∧ (t.trk 30).map Tracker.need = [3]) ∧
    (let t := after (.rds 7 ln) (asks .rds (some (ent true 1))); mgetD [] t.coh.snpCh (chKey 0 30) = [⟨30, .snps, false⟩]) := by decide +kernel

/-- Die 0 has a snoop of the line and holds it as given. -/
def snooped (k : SnpKind) (ag : Bool) (l : Option Mesi) : State :=
  let s := { user with coh.snpCh := mput [] (chKey 0 30) [⟨30, k, ag⟩] }
  let s := s.setIfState 4 0 1
  match l with | some st => s.setDcLine 0 30 ⟨st, 0xEE, 0, 0, 0, 5, 0⟩ | none => s
def snpRes (i : Fin 8 → LineAddr → Instr) (s : State) : List DcMsg × Option Mesi := let t := after (i 0 ln) s; (mgetD [] t.coh.dcCh (chKey 0 30), (t.dcLine 0 30).map DcLine.st)
theorem test_snoops : snpRes .snps (snooped .snps false none) = ([.srsp 30 .none], none) ∧
    snpRes .snps (snooped .snps false (some .e)) = ([.srsp 30 .clean], some .s) ∧ snpRes .snpi (snooped .snpi true (some .s)) = ([.srsp 30 .clean], none) ∧
    snpRes .snpc (snooped .snpc false (some .e)) = ([.srsp 30 .clean], some .e) ∧ snpRes .snps (snooped .snps false (some .m)) = ([.srsp 30 (.dirty 0xEE)], some .s) ∧
    snpRes .snpi (snooped .snpi false (some .m)) = ([.srsp 30 (.dirty 0xEE)], none) ∧ snpRes .snpc (snooped .snpc false (some .m)) = ([.srsp 30 (.dirty 0xEE)], some .e) ∧
    (let s := snooped .snpi true none
     let s := { s with coh.crd := mput [] (dcKey 0 30) (.rds, 0) }
     (mget s.coh.crd (dcKey 0 30)).isSome ∧ mget (after (.snpi 0 ln) s).coh.held (dcKey 0 30) = some ⟨30, .snpi, true⟩) := by decide +kernel
/-- Dies 0 and 1 are to answer a snoop for die 7's RDS or RDX; die 0's answer comes, not the last. -/
def answering (k : CrdKind) (a : SnpAns) : State :=
  let s := after (if k = .rds then .rds 7 ln else .rdx 7 ln) (asks k (some (ent true 3)))
  s.sendDc 0 30 (.srsp 30 a)
theorem test_snoop_answers :
    (let s := answering .rdx (.dirty 0xBB)
     (s.trk 30).map (fun k => (k.need, k.phase)) = [(3, .snoop)] ∧
     (let t := after (.srsp 0 ln) s; (t.trk 30).map Tracker.need = [2] ∧ (mget t.coh.sc 30).map (fun l => (l.data, l.dirty)) = some (0xBB, true) ∧ (mget t.coh.dir 30).map DirEnt.pres = some 2)) ∧
    (let t := after (.srsp 0 ln) (answering .rds .clean); (mget t.coh.dir 30).map DirEnt.dx = some false) := by decide +kernel

/-- A grant to die 0 for a read and a write of a port; a write-back of the holder and of another; its CACK. -/
def waiting (typ : ReqType) (msg : HomeMsg) : State :=
  (({ user with coh.homeCh := mput [] (chKey 0 30) [msg], coh.crd := mput [] (dcKey 0 30) (.rdx, 0) }).setIfState 4 0 1).setDcWait 0 30 [⟨3, typ, ⟨0x788, 4, 0x21, 0x1234000000000000000000, 0xFF00, 0⟩, 5⟩]
theorem test_grants : (waiting .rd (.cgnt 30 true (some (7 <<< 64)) .ok)).slotState 0 = 2 ∧
    (let t := after (.cgnt 0 ln) (waiting .rd (.cgnt 30 true (some (7 <<< 64)) .ok))
     (t.dcLine 0 30).map DcLine.st = some .e ∧ mgetD [] t.fab.rsp 3 = [⟨false, 0x21, .ok, 7 <<< 64⟩] ∧ t.dcWait 0 30 = []) ∧
    (let t := after (.cgnt 0 ln) (waiting .wr (.cgnt 30 true (some 1) .ok)); (t.dcLine 0 30).map (fun l => (l.st, l.data)) = some (.m, 0x1234000000000000000001)) ∧
    (let t := after (.cgnt 0 ln) (waiting .rd (.cgnt 30 true none .busError)); t.dcLine 0 30 = none ∧ mgetD [] t.fab.rsp 3 = [⟨false, 0x21, .busError, 0⟩]) := by decide +kernel
theorem test_write_backs : let w := fun e => (homeSt (some e)).sendDc 0 30 (.cwb 30 0xCC true 0 5)
    (w (ent true 1)).trk 30 = [] ∧
    (let t := after (.cwb 0 ln) (w (ent true 1)); t.coh.dir = [] ∧ (mget t.coh.sc 30).map (fun l => (l.data, l.dirty, l.poison)) = some (0xCC, true, true) ∧ mgetD [] t.coh.homeCh (chKey 0 30) = [.cack 30]) ∧
    (let t := after (.cwb 0 ln) (w (ent true 2)); (mget t.coh.sc 30).map ScLine.data = some 0xD0D0 ∧ t.fld (Pg.sc 30) (Fld.PG_TRB_CNT 4) = 1) ∧
    (let s := { user with coh.homeCh := mput [] (chKey 0 30) [.cack 30], coh.cwbOut := [dcKey 0 30] }
     s.dcState 0 ≠ 2 ∧ s.dcWait 0 30 = [] ∧ (after (.cack 0 ln) s).coh.cwbOut = []) := by decide +kernel

/-- Walks and maintenance operations. -/
def ffs (s : State) (pg off : Nat) (l : List (Fld × Nat)) : Word := withFlds (s.rwWord pg off) l
theorem test_walks : let s := locked (Pg.dc 7) ((user.setIfState 53 0 1).setDcState 7 1)
    takes s 1 (Pg.dc 7) Reg.DC_DC_CTRL (ffs s (Pg.dc 7) Reg.DC_DC_CTRL [(Fld.DC_DC_CTRL_FLUSH, 1)]) = true ∧
    (let f := (after (.dieCacheFlush 1 7) s).setDcLine 7 30 ⟨.m, 0xEE, 0, 0, 0, 5, 0⟩
     f.dcState 7 = 2 ∧ f.coh.dclrSent = [] ∧ f.coh.crd = [] ∧
     (let t := after (.writeBackWalkEnd 7) f
      t.coh.dc = [] ∧ mgetD [] t.coh.dcCh (chKey 7 30) = [.cwb 30 0xEE false 0 5, .dclr] ∧ mgetD [] t.coh.dcCh (chKey 7 31) = [.dclr])) := by decide +kernel
theorem test_clearing : let s := (homeSt (some (ent false 0x81))).sendDc 7 30 .dclr
    s.coh.trk = [] ∧
    (let t := after (.dclr 7 30) s
     (mget t.coh.dir 30).map DirEnt.pres = some 1 ∧ (t.fld (Pg.sc 30) Fld.SC_SC_STAT_WALK).testBit 7 = true ∧ t.dcState 7 ≠ 2 ∧ t.coh.heldCrd = [] ∧
     (after (.clearingWalkEnd 7 30) t).fld (Pg.sc 30) Fld.SC_SC_STAT_WALK = 0) := by decide +kernel
theorem test_die_lost : let s := locked Pg.dir (homeSt (some (ent true 0x80)))
    takes s 1 Pg.dir Reg.DIR_DIE_LOST (ffs s Pg.dir Reg.DIR_DIE_LOST [(Fld.DIR_DIE_LOST_LOST, 0x80)]) = true ∧ s.coh.trk = [] ∧
    (let t := after (.dieLost 1 0x80) s; t.coh.dir = [] ∧ (mget t.coh.sc 30).map ScLine.poison = some true ∧ t.fld (Pg.sc 30) (Fld.PG_TRB_CNT 5) = 1) := by decide +kernel
theorem test_range_cmo : let s := locked Pg.dir (user.setFld Pg.dir Fld.DIR_CMO_LEN_LINES 2)
    takes s 1 Pg.dir Reg.DIR_CMO_CTRL (ffs s Pg.dir Reg.DIR_CMO_CTRL [(Fld.DIR_CMO_CTRL_OP, 1), (Fld.DIR_CMO_CTRL_START, 1)]) = true ∧
    s.slotCheck true (s.fld Pg.dir Fld.DIR_CMO_BASE_HI_KID) 0 = none ∧ s.cmoRange = (0, 2) ∧ s.coh.sc = [] ∧ s.coh.dir = [] ∧
    (let t := after (.rangeCmoFlush 1) s; t.fld Pg.dir Fld.DIR_CMO_CTRL_BUSY = 1 ∧ t.coh.trk = [] ∧ (after .rangeCmoEnd t).fld Pg.dir Fld.DIR_CMO_CTRL_BUSY = 0) := by decide +kernel

/-! ### DRAM (statements of chapter 08): line 0x780, first line of controller 30 -/

def dramUp (s : State) : State := (s.setCb 30 Fld.CB_CB_STAT_STATE 2).setCb 30 Fld.CB_NREF_EN 0
/-- An image that declares the units given, running or being loaded. -/
def imgOf (units : List Nat) : Image := ⟨0, 0, 0, 0, 0, 0, 0, none, 0, [], BitVec.ofNat 256 (units.foldl (fun n u => n ||| 2 ^ u) 0), [], true, 0⟩
def withUnits (units : List Nat) (s : State) : State := { s with boot.running := some (imgOf units) }
def loadUnits (units : List Nat) (s : State) : State := { s with boot.loading := some (imgOf units) }
/-- The home waits for the line, for a read of FP00. -/
def dramWait (st : Nat) : State :=
  let x : Txn := { tx .rd 0x788 4 .delivered with dst := 51, dstIf := 2 }
  { (((dramUp user).setCb 30 Fld.CB_CB_STAT_STATE st).setTxn tk x).setTrk 30 [⟨.rd, .txn tk, 0, 5, 4, 8, 0, BitVec.allOnes 64, .dram, 0, 0, false, false⟩] with dram.rq := [(30, [30])] }
theorem test_dram_read : user.dramPlace 30 = some (30, 0) ∧ (dramWait 2).wbPending 30 = false ∧ (dramWait 2).cbServes 30 = true ∧
    (dramWait 1).cbServes 30 = false ∧ phaseOf (after (.dramRead ln) (dramWait 1)) tk = some .delivered ∧ (dramWait 2).reads 30 = [30] ∧
    phaseOf (after (.dramRead ln) { dramWait 2 with dram.wq := mput [] 30 [(0, ⟨0x5555 <<< 64, 0, false⟩)] }) tk = some (.answered .ok (0x5555 <<< 64)) := by decide +kernel
theorem test_dram_write : let s := { dramUp user with coh.wb := [⟨30, 0x99, 0, true⟩] }
    s.trk 30 = [] ∧ (let t := after (.dramWrite ln) s; t.coh.wb = [] ∧ (mget t.dram.line (dramKey 30 0) = some ⟨0x99, 0, true⟩ ∨ mgetD [] t.dram.wq 30 = [(0, ⟨0x99, 0, true⟩)])) ∧
    (let f := { s with dram.wq := mput [] 30 ((List.range 64).map fun j => (j + 1, (⟨0, 0, false⟩ : DramLine))) }; (after (.dramWrite ln) f).coh.wb = s.coh.wb) := by decide +kernel
theorem test_dram_correction : let s := { dramUp user with dram.corr := mput [] (dramKey 30 0) ⟨7, 0, false⟩ }
    s.cbServes 30 = true ∧ s.cb 30 Fld.CB_ECC_CTRL_CORR_WB = 1 ∧ mget (after (.dramCorrectedWriteBack ln) s).dram.line (dramKey 30 0) = some ⟨7, 0, false⟩ := by decide +kernel
/-- The neighbours of rows 0 and 16,383 of a pseudo-channel: one each. -/
theorem test_row_idle : let s := { user.setCb 127 Fld.CB_NREF_EN 0 with dram.openRow := mput [] (bankKey 127 63) 16383 }
    (after (.rowIdleTimeout 127 63) s).dram.openRow = [] ∧
    (let a := { s with dram.aggr := mput [] (bankKey 127 63) 16383 }
     let b := { s with dram.aggr := mput [] (bankKey 127 63) 0 }
     a.cb 127 Fld.CB_NREF_DIST = 0 ∧ (after (.rowIdleTimeout 127 63) a).fld (cbPage 127) (Fld.PG_TRB_CNT 4) = 1 ∧ (after (.rowIdleTimeout 127 63) b).fld (cbPage 127) (Fld.PG_TRB_CNT 4) = 1) := by decide +kernel
theorem test_refresh : let s := flds [(cbPage 30, Fld.CB_REF_POSTPONE_MAX.sh (cbBase 30), 3), (cbPage 30, Fld.CB_REF_PENDING.sh (cbBase 30), 3)] { dramUp user with dram.owed := [(60, 3)] }
    s.cb 30 Fld.CB_REF_MODE ≠ 2 ∧ (after (.refreshTick 30) s).cb 30 Fld.CB_REF_PENDING = 4 ∧
    s.cbRuns 30 = true ∧ s.rankCount 30 = 1 ∧ (let b := s.setCb 30 Fld.CB_REF_MODE 2
     mgetD 0 (after (.refresh 30) b).dram.refBank 30 = 1) ∧
    (let u := s.setOwed 30 0 4
     (after (.refreshTick 30) u).cb 30 Fld.CB_REF_PENDING = 4 ∧ (let t := after (.refresh 30) u; t.cb 30 Fld.CB_REF_PENDING = 3 ∧ t.fld (cbPage 30) (Fld.PG_TRB_CNT 3) = 1)) ∧
    mgetD [] s.dram.wq 30 = [] ∧ (let t := after (.refresh 30) s; t.cb 30 Fld.CB_REF_PENDING = 2 ∧ t.fld (cbPage 30) (Fld.PG_TRB_CNT 3) = 0) := by decide +kernel
theorem test_mr4 : let s := user.setCb 135 Fld.CB_CB_STAT_STATE 2
    s.cbServes 135 = true ∧ (after (.mr4Poll 135 true) s).cb 135 Fld.CB_REF_TEMP_2X = 1 := by decide +kernel
theorem test_power_down : let s := dramUp user
    mget s.dram.rankPd 60 = none ∧ s.cb 30 Fld.CB_PWR_POL_PD_NS ≠ 0 ∧ s.owes 30 0 = 0 ∧ s.rankBusy 30 0 = false ∧ s.cbServes 30 = true ∧
    (let t := after (.powerDownEntry 30 0) s
     t.cb 30 Fld.CB_CB_STAT_STATE = 3 ∧ mget t.dram.rankPd 60 = some 1 ∧
     (let u := after (.selfRefreshEntry 30 0) (t.setCb 30 Fld.CB_PWR_POL_SR_US 1); u.cb 30 Fld.CB_CB_STAT_STATE = 4 ∧ mget u.dram.rankPd 60 = some 2)) := by decide +kernel
theorem test_dram_training : let s := loadUnits [88, 95] (flds [(Pg.ddrCtl 3, Fld.DDR_CH_CFG_POP, 1), (Pg.ddrCtl 0, Fld.DDR_ILV_SET, 2)] user)
    s.unitUsed 88 = true ∧ s.unitUsed 95 = true ∧ (let t := after (.initialTraining 135) s; t.cb 135 Fld.CB_CB_STAT_STATE = 1 ∧ t.dram.ilv = 2) ∧
    (let t := after (.initialTraining 30) s
     t.cb 30 Fld.CB_CB_STAT_STATE = 1 ∧ t.fld (Pg.hbmStk 0) Fld.STK_STK_STAT_STATE = 1 ∧ (after (.dramTrainingEnd 30 0 0 0) t).cb 30 Fld.CB_CB_STAT_STATE = 2 ∧
     (let u := after (.dramTrainingEnd 30 8 0 0) t; u.cb 30 Fld.CB_CB_STAT_STATE = 5 ∧ u.fld (Pg.hbmStk 0) Fld.STK_STK_STAT_FAIL_STEP = 8)) := by decide +kernel
theorem test_retraining : let s := locked (cbPage 30) (dramUp user)
    takes s 1 (cbPage 30) (cbBase 30 + Reg.CB_TRAIN) (ffs s (cbPage 30) (cbBase 30 + Reg.CB_TRAIN) [(Fld.CB_TRAIN_START, 1)]) = true ∧
    (let t := after (.trainStart 1 30) s
     t.cb 30 Fld.CB_TRAIN_BUSY = 1 ∧ (after (.periodicTraining 30 true 0) t).cb 30 Fld.CB_TRAIN_RESULT = 1 ∧
     (let u := after (.periodicTraining 30 false 7) t; u.cb 30 Fld.CB_TRAIN_RESULT = 2 ∧ u.fld (cbPage 30) (Fld.PG_TRB_CNT 5) = 1)) := by decide +kernel

/-! ### Keys and ciphers (statements of chapter 09) -/

/-- A number's bytes the other way round. -/
def rv (n x : Nat) : Nat := bytesNat (natBytes n x).reverse
/-- FIPS 197, C.3; IEEE 1619, vector 10: the first 64 bytes of data unit 0xFF. -/
theorem test_aes_vector : aesDec (List.range 32) (natBytes 16 (rv 16 0x8ea2b7ca516745bfeafc49904b496089)) = natBytes 16 (rv 16 0x00112233445566778899AABBCCDDEEFF) := by
  rw [aesDec_eq]; decide +kernel
theorem test_xts_vector : (xtsEnc (BitVec.ofNat 256 (rv 32 0x2718281828459045235360287471352662497757247093699959574966967627))
    (BitVec.ofNat 256 (rv 32 0x3141592653589793238462643383279502884197169399375105820974944592)) 255 (BitVec.ofNat 512 (bytesNat (List.range 64)))).toNat =
    rv 64 0x1c3b3a102f770386e4836c99e370cf9bea00803f5e482357a4ae12d414a3e63b5d31e276f8fe4a8d66b317f9ac683f44680a86ac35adfc3345befecb4bb188fd := by
  rw [xtsEnc_eq]; decide +kernel
/-- The tweaks of the worked example of R219. -/
theorem test_tweaks : 0x002140000040 / 64 = 0x85000001 := by decide +kernel

/-- A load into slot k whose WRAP registers hold the bytes given; KEK: bytes 0 to 31. -/
def loading (kek : Option (BitVec 256)) (k : Nat) (wrapped : List Nat) : State :=
  flds ([(Pg.key, Fld.KEY_LOAD_CTRL_SLOT, k), (Pg.key, Fld.KEY_LOAD_STAT_BUSY, 1)] ++ (List.range 20).map fun w => (Pg.key, Fld.KEY_WRAP_BYTES w, bytesNat ((wrapped.drop (4 * w)).take 4)))
    { user with keys.kek := kek }
def kek0 : BitVec 256 := BitVec.ofNat 256 (bytesNat (List.range 32))
/-- Header (format 1, class MEM, slot 37), K1 = bytes 0 to 31, K2 = bytes 32 to 63, wrapped with AES Key Wrap outside the model. -/
def wrapped37 : List Nat := natBytes 80 (rv 80 0x97935fdc57e5b0891fff040a781d6411f6abc30119aa61ccd468e0717d9d8637d6dd459b41bc475378aed43cddb87603db045adb1f7bb2fb0dbb56bc1791fd5564647ee0e58bf3d034519ac23739251f)
/-- The registers of the unwrap as one number's bytes: A, then R1 to R9. -/
def kwRegs (x : Nat) : List Nat × List (List Nat) := (natBytes 8 x, (List.range 9).map fun i => ((natBytes 80 x).drop (8 * (i + 1))).take 8)
def ks0 : List (List Nat) := aesKeysT (natBytes 32 kek0.toNat)
theorem unwrap_a : kwSteps 9 ks0 (List.range 18) (wrapped37.take 8, (List.range 9).map fun i => (wrapped37.drop (8 * (i + 1))).take 8) = kwRegs 0x5c3b1408462b5b4a7c9cc27ae851110d540fe829f3cf16adb906d22a09c87603e4c1a980c945ad03ad9de566143d5f5dd9e327e3c71605863931dced82d2eb09c9c51c551bff73af98ddbfb2c96706f := by decide +kernel
theorem unwrap_b : kwSteps 9 ks0 ((List.range 18).map (· + 18)) (kwRegs 0x5c3b1408462b5b4a7c9cc27ae851110d540fe829f3cf16adb906d22a09c87603e4c1a980c945ad03ad9de566143d5f5dd9e327e3c71605863931dced82d2eb09c9c51c551bff73af98ddbfb2c96706f) = kwRegs 0x8cd91285bc6db8d3d170b105796be9d53e2765bf38a11cfb185b4d5a670e233fb4aeb7eb7fce8f4873e0c9dee9d050465d8f4855a29a05befc7eb3e20e94313c167b96b4aa533683a0c89df68ec70d4f := by decide +kernel
theorem unwrap_c : kwSteps 9 ks0 ((List.range 18).map (· + 36)) (kwRegs 0x8cd91285bc6db8d3d170b105796be9d53e2765bf38a11cfb185b4d5a670e233fb4aeb7eb7fce8f4873e0c9dee9d050465d8f4855a29a05befc7eb3e20e94313c167b96b4aa533683a0c89df68ec70d4f) = (List.replicate 8 0xA6, (List.range 9).map fun i => ((natBytes 8 0x0001010000000025 ++ List.range 64).drop (8 * i)).take 8) := by decide +kernel
theorem unwrap_37 : kwUnwrap 9 kek0 wrapped37 = some (natBytes 8 0x0001010000000025 ++ List.range 64) := by
  rw [kwUnwrap_eq, show List.range (6 * 9) = List.range 18 ++ ((List.range 18).map (· + 18) ++ (List.range 18).map (· + 36)) by decide, kwSteps_append, kwSteps_append]
  have h : aesKeysT (natBytes 32 kek0.toNat) = ks0 := rfl
  rw [h, unwrap_a, unwrap_b, unwrap_c]; decide +kernel
theorem test_load : (loading (some kek0) 37 wrapped37).loadResult 37 = (1, some (1, BitVec.ofNat 512 (bytesNat (List.range 64)))) := by
  have h : (loading (some kek0) 37 wrapped37).wrapBytes = wrapped37 := by decide +kernel
  have h1 : (loading (some kek0) 37 wrapped37).keys.kek = some kek0 := by decide +kernel
  have h2 : ¬((loading (some kek0) 37 wrapped37).slotState 37 ≠ 0 ∨ (37 : Nat) = 0) := by decide +kernel
  unfold State.loadResult
  rw [h1]; simp only [h2, if_false, h, unwrap_37]; decide +kernel
theorem test_load_refused : ((loading none 37 []).loadResult 37).1 = 2 ∧ ((loading (some kek0) 0 []).loadResult 0).1 = 3 ∧
    (after .keyLoadComplete (loading none 37 [255])).fld Pg.ime (Fld.PG_TRB_CNT 4) = 1 ∧ (after .keyLoadComplete (loading none 37 [255])).reg Pg.key (Reg.KEY_WRAP 0) = 0 := by decide +kernel
theorem test_key_start : let s := locked Pg.key user
    takes s 1 Pg.key Reg.KEY_LOAD_CTRL (ffs s Pg.key Reg.KEY_LOAD_CTRL [(Fld.KEY_LOAD_CTRL_SLOT, 1023), (Fld.KEY_LOAD_CTRL_START, 1)]) = true ∧
    (after (.keyLoad 1 1023) s).fld Pg.key Fld.KEY_LOAD_CTRL_SLOT = 1023 := by decide +kernel

/-- Slot 1,023 in a state. -/
def slotIn (st : Nat) : State := locked (slotPg 1023) (user.setSlotState 1023 st)
theorem test_activate : let s := slotIn 1
    takes s 1 (slotPg 1023) (Reg.SLT_CFG 255) (ffs s (slotPg 1023) (Reg.SLT_CFG 255) [(Fld.SLT_CFG_CMD 0, 1)]) = true ∧
    (let t := after (.activate 1 1023) s
     t.slotState 1023 = 1 ∧ t.keys.edge = [(1023, false)] ∧ t.mayActivate 1023 = true ∧ (after .slotStateEdge t).slotState 1023 = 2) := by decide +kernel
/-- A disable, its edge, the purge's wait and walks; one of a LOADED slot ends after the wait. -/
theorem test_disable : let s := slotIn 2
    takes s 1 (slotPg 1023) (Reg.SLT_CFG 255) (ffs s (slotPg 1023) (Reg.SLT_CFG 255) [(Fld.SLT_CFG_CMD 0, 2)]) = true ∧
    (let t := after (.disable 1 1023) (s.setFld (slotPg 1023) (Fld.SLT_CFG_CLASS 255) 1)
     t.keys.edge = [(1023, true)] ∧ t.fld Pg.ime Fld.IME_PURGE_STAT_PHASE = 1 ∧
     (let u := after .slotStateEdge t
      u.slotState 1023 = 3 ∧ u.trkUnder 1023 = false ∧ u.framesUnder 1023 = false ∧ (u.keys.purge.map fun p => (p.was, p.mem)) = some (2, true) ∧
      (after .purgeWaitEnd u).fld Pg.ime Fld.IME_PURGE_STAT_PHASE = 2)) ∧
    (let u := after .slotStateEdge (after (.disable 1 1023) (slotIn 1)); (u.keys.purge.map Purge.was) = some 1 ∧ (after .purgeWaitEnd u).slotState 1023 = 0) := by decide +kernel
theorem test_purge_walks : let s := { flds [(Pg.ime, Fld.IME_PURGE_STAT_PHASE, 2)] (slotIn 3) with keys.purge := some ⟨1023, true, 2, [0, 1, 2, 3, 4, 5, 6]⟩ }
    let s := s.setDcLine 7 30 ⟨.e, 0, 0, 0, 1023, 5, 0⟩
    (let t := after (.purgeDieCacheWalkEnd 7) s; t.fld Pg.ime Fld.IME_PURGE_STAT_PHASE = 3 ∧ t.coh.dc = []) ∧
    (let u := flds [(Pg.ime, Fld.IME_PURGE_STAT_PHASE, 3)] s
     u.coh.trk = [] ∧ u.coh.dcCh = [] ∧ (let t := after .purgeSliceWalkEnd u; t.slotState 1023 = 0 ∧ t.fld Pg.ime Evt.IME_PURGED = 1)) := by decide +kernel

/-! ### Data integrity (statements of chapter 10) -/

/-- Single errors are corrected, double errors detected: the code of a frame's way, of a word, of a line of DRAM (R212, R213, R242). -/
theorem test_codes : (∀ j < 480, eccDecode 480 10 (2 ^ j) ((secdedCols 480 10).getD j 0) = .corrected 0) ∧ eccDecode 64 8 5 0x18 = .uncorrectable ∧
    rsCorrect true (rsSyn 4 (rsCols true) 3 0xFF) = some (3, 0xFF) ∧ rsCorrect false (rsSyn 8 (rsCols false) 9 1) = some (9, 1) := by
  refine ⟨fun j hj => ?_, ?_, rsCorrect_one true 3 0xFF (by decide) (by decide) (by decide), rsCorrect_one false 9 1 (by decide) (by decide) (by decide)⟩
  · rw [eccDecode_data 480 10 _ j (by decide) hj, Nat.xor_self]
  · have h : ∀ p ∈ [8, 16], p ∈ secdedPoints 8 (secdedCols 64 8) := by
      intro p hp; exact List.mem_append_left _ (by revert p; decide)
    exact eccDecode_double 64 8 5 8 16 (by decide) (h 8 (by decide)) (h 16 (by decide)) (by decide)
/-- Frame 131,071 of die 0. -/
def frameSt (flips : BitVec 1920) (chk : BitVec 47) : State := { user.setFlips 0 131071 flips chk with integ.flags := [131071] } |>.setFld (Pg.eccF 0) Fld.ECC_FRM_STAT_PENDING 1
theorem test_parity_tree : user.diePowered 0 = true ∧ user.fld (Pg.eccF 0) Fld.ECC_FRM_CTRL_PT_EN = 1 ∧ user.unitLoading 9 0 131071 = false ∧
    (let t := after (.parityTreeFlag 0 131071 1916 4) user
     t.integ.flags = [131071] ∧ t.frameFlips 0 131071 = 0xF <<< 1916 ∧ t.fld (Pg.eccF 0) Fld.ECC_FRM_STAT_PENDING = 1) ∧
    (after (.parityTreeFlag 0 131071 1919 1) (user.setFld (Pg.eccF 0) Fld.ECC_FRM_CTRL_PT_EN 0)).integ.flags = [] := by decide +kernel
/-- A flagged frame without an error is a false flag; a check word that cannot be corrected is unrecoverable for a host's image, reloaded for a bank's. -/
theorem test_frame_false : (frameSt 0 0).frameTurn = some 0 ∧ (after (.frameCorrection 0) (frameSt 0 0)).fld (Pg.eccF 0) Fld.ECC_FRM_LAST_OUTCOME = 4 ∧
    ((frameSt 0 0).frameDecode 0 131071).1 = .clean := by decide +kernel
theorem test_frame_corrected : ((frameSt 1 0).frameDecode 0 131071).1 = .corrected 0 := by
  have h1 : (frameSt 1 0).frameFlips 0 131071 = 1 := by decide +kernel
  have h2 : (frameSt 1 0).checkFlips 0 131071 = 0 := by decide +kernel
  have hc : eccCheck 480 10 1 = (secdedCols 480 10).getD 0 0 := by
    have : ∀ c : Nat → Nat, (List.range 480).foldl (fun x j => if (1 : Nat).testBit j then x ^^^ c j else x) 0 = c 0 := by
      intro c
      rw [List.range_succ_eq_map, List.foldl_cons, List.foldl_map]
      have h : ∀ (l : List Nat) (x : Nat), l.foldl (fun x j => if (1 : Nat).testBit (j + 1) then x ^^^ c (j + 1) else x) x = x := by
        intro l; induction l with
        | nil => intro x; rfl
        | cons a l ih => intro x; rw [List.foldl_cons, show (1 : Nat).testBit (a + 1) = false by simp [Nat.testBit_succ]]; exact ih x
      rw [h]; simp
    exact this _
  have hd := eccDecode_data 480 10 1 0 (by decide) (by decide)
  have e1 : eccCheck 40 7 0 = 0 := by decide +kernel
  have e2 : eccCheck 480 10 0 = 0 := by decide +kernel
  have e3 : frameOf [0, 0, 0, 0] = 0 := by decide +kernel
  have w0 : frameWay 1 0 = 1 := by decide +kernel
  have w1 : frameWay 1 1 = 0 := by decide +kernel
  have w2 : frameWay 1 2 = 0 := by decide +kernel
  have w3 : frameWay 1 3 = 0 := by decide +kernel
  have hm : (frameSt 1 0).design.memFrames = [] := by decide +kernel
  unfold State.frameDecode
  rw [show List.range 4 = [0, 1, 2, 3] from rfl]
  simp only [h1, h2, hm, List.map_cons, List.map_nil, w0, w1, w2, w3, show (0 : BitVec 47).toNat = 0 from rfl, Nat.zero_mod, Nat.zero_div, e1, Nat.xor_self, eccDecode_zero, hc, Nat.zero_xor, e2, hd]
  simp [e3]
theorem test_frame_bad : let s := frameSt 0 (3 <<< 40)
    let host : State := { withUnits [] s with boot.running := (withUnits [] s).boot.running.map fun i => { i with src := 3 } }
    let bank : State := { withUnits [] s with boot.running := (withUnits [] s).boot.running.map fun i => { i with src := 1 } }
    (host.boot.running.map Image.src, bank.boot.running.map Image.src) = (some 3, some 1) ∧ host.alarms = [] ∧ (s.frameDecode 0 131071).1 = .uncorrectable := by
  refine ⟨by decide +kernel, by decide +kernel, ?_⟩
  have h1 : (frameSt 0 (3 <<< 40)).checkFlips 0 131071 = 3 <<< 40 := by decide +kernel
  have h2 : (3 <<< 40 : BitVec 47).toNat % 2 ^ 40 = 0 := by decide +kernel
  have h3 : (3 <<< 40 : BitVec 47).toNat / 2 ^ 40 ^^^ eccCheck 40 7 0 = 3 := by decide +kernel
  unfold State.frameDecode
  have hm : (frameSt 0 (3 <<< 40)).design.memFrames = [] := by decide +kernel
  simp only [h1, h2, h3, eccDecode_three 40 7 0 (by decide)]
  rw [hm]; rfl

/-- A pass over LAN00's first word, which ends it. -/
def scrubSt : State := flds [(Pg.scrub 7, Fld.SCR_LENGTH_UNITS, 1)] (locked (Pg.scrub 7) (user.setFld (Pg.lan 0) Fld.LAN_LAN_STAT_PWR 1 |>.setIfState 5 0 1))
def scrubV (rep : Nat) : Word := withFlds 0 [(Fld.SCR_SCR_CTRL_TARGET, 3), (Fld.SCR_SCR_CTRL_WB, 1), (Fld.SCR_SCR_CTRL_REPEAT, rep)]
theorem test_scrub_start : takes scrubSt 1 (Pg.scrub 7) Reg.SCR_SCR_CTRL (withFlds (scrubV 0) [(Fld.SCR_SCR_CTRL_START, 1), (Fld.SCR_SCR_CTRL_STOP, 0)]) = true ∧
    (let t := after (.scrubStart 1 7 (scrubV 0)) scrubSt
     t.passState 7 = 1 ∧ mget t.integ.passes 7 = some ⟨3, 0, 0, 1⟩ ∧ t.targetOff 3 0 = false ∧
     takes t 1 (Pg.scrub 7) Reg.SCR_SCR_CTRL (withFlds (t.rwWord (Pg.scrub 7) Reg.SCR_SCR_CTRL) [(Fld.SCR_SCR_CTRL_STOP, 1)]) = true ∧
     (after (.scrubStop 1 7) t).fld (Pg.scrub 7) Fld.SCR_PASS_STAT_REASON = 1 ∧ (after (.scrubTimeout 7) t).fld (Pg.scrub 7) (Fld.PG_TRB_CNT 0) = 1 ∧
     (after (.scrubUnit 7) t).passState 7 = 2) := by decide +kernel
/-- A word with a check bit in error is counted, in the lantern too, and written back by the next turn, unless it has been written since; the end of the pass waits for the repeat. -/
theorem test_scrub_corrects : let t := after (.scrubStart 1 7 (scrubV 1)) (scrubSt.setLanWord 0 0 ⟨9, 4⟩)
    let u := after (.scrubUnit 7) t
    let v := after (.scrubUnit 7) (u.setLanWord 0 0 (.ok 3))
    (t.lanWord 0 0).decode = .corrected 9 ∧ t.targetOff 3 0 = false ∧ u.reg (Pg.scrub 7) Reg.SCR_CORR_CNT = 1 ∧ u.fld (Pg.lan 0) (Fld.PG_TRB_CNT 1) = 1 ∧ u.passState 7 = 4 ∧
      mget u.integ.scrubFix 7 = some ⟨3, 0, 0, [(9, 4)], [(9, 0)]⟩ ∧ (after (.scrubUnit 7) u).lanWord 0 0 = .ok 9 ∧
      v.lanWord 0 0 = .ok 3 ∧ v.fld (Pg.scrub 7) (Fld.PG_TRB_CNT 1) = 1 ∧ (after (.scrubRepeat 7) u).passState 7 = 1 := by decide +kernel

/-- Raw access to LAN00's first word by the page of die 0, and the worked example of R255: block memory 1,234 of F2 at word 0x2A0. -/
def rawSt : State := flds [(eccPage 0, Fld.ECC_RAW_SEL_TARGET, 3)] (locked (eccPage 0) scrubSt)
theorem test_raw : (let s := rawSt; takes s 1 (eccPage 0) Reg.ECC_RAW_CTRL (ffs s (eccPage 0) Reg.ECC_RAW_CTRL [(Fld.ECC_RAW_CTRL_OP, 1)]) = true ∧ s.rawReady (eccPage 0) 1 = true) ∧
    (let s := after (.rawEnter 1 0) rawSt
     s.integ.rawMode = [(3, 0, 0)] ∧ takes s 1 (eccPage 0) Reg.ECC_RAW_CTRL (ffs s (eccPage 0) Reg.ECC_RAW_CTRL [(Fld.ECC_RAW_CTRL_OP, 3)]) = true ∧
     takes s 1 (eccPage 0) Reg.ECC_RAW_CTRL (ffs s (eccPage 0) Reg.ECC_RAW_CTRL [(Fld.ECC_RAW_CTRL_OP, 4)]) = true ∧
     takes s 1 (eccPage 0) Reg.ECC_RAW_CTRL (ffs s (eccPage 0) Reg.ECC_RAW_CTRL [(Fld.ECC_RAW_CTRL_OP, 5)]) = true ∧
     (after (.rawRead 1 0) (s.setLanWord 0 0 ⟨0, 4⟩)).reg (eccPage 0) (Reg.ECC_RAW_CHK 0) = 4 ∧
     (after (.rawWrite 1 0) (s.setReg (eccPage 0) (Reg.ECC_RAW_CHK 0) 8)).lanWord 0 0 = ⟨0, 8⟩ ∧ (after (.rawEncode 1 0) s).reg (eccPage 0) (Reg.ECC_RAW_CHK 0) = 0 ∧
     (after (.rawExit 1 0) s).integ.rawMode = []) := by decide +kernel
theorem test_raw_example :
    let s := flds [(Pg.fabCtl 2, Fld.FABCTL_DIE_STAT_PWR_STATE, 3), (eccPage 2, Fld.ECC_RAW_SEL_TARGET, 1), (eccPage 2, Fld.ECC_RAW_SEL_INSTANCE, 2), (eccPage 2, Fld.ECC_RAW_ADDR_INDEX, 2527904)] (locked (eccPage 2) user)
    let s := after (.rawRead 1 2) (after (.rawEnter 1 2) s)
    let c := s.reg (eccPage 2) (Reg.ECC_RAW_CHK 0)
    let s := after (.rawExit 1 2) (after (.rawWrite 1 2) (s.setReg (eccPage 2) (Reg.ECC_RAW_CHK 0) (c ^^^ 8)))
    let t := after (.blockMemoryRead ⟨2, false, 1234, false, 0x2A0, .later⟩) (flds [(Pg.fabCtl 2, Fld.FABCTL_DIE_STAT_CFG_DONE, 1), (Pg.fabCtl 2, Fld.FABCTL_CREG_ACTIVE_ACTIVE, 0xFFFF)] s)
    t.fld (Pg.fabMem 2) (Fld.PG_TRB_CNT 0) = 1 ∧ t.fld (Pg.fabMem 2) Fld.FABMEM_LAST_ERR_LOC_INDEX = 1234 ∧ t.fld (Pg.fabMem 2) Fld.FABMEM_LAST_ERR_LOC_ADDR = 0x2A0 ∧
      t.fld (Pg.fabMem 2) Fld.FABMEM_LAST_ERR_LOC_VALID = 1 ∧ t.fld (Pg.fabMem 2) Fld.FABMEM_LAST_ERR_LOC_DBE = 0 ∧ t.fld (Pg.fabMem 2) Fld.FABMEM_LAST_ERR_SYN_SYNDROME = 8 := by decide +kernel
theorem test_raw_timeout : let s := (rawSt.setFld (Pg.lan 0) Fld.LAN_LAN_STAT_PWR 0)
    let t := after (.rawEnter 1 0) s
    s.rawReady (eccPage 0) 1 = false ∧ (mget t.integ.rawOp (eccPage 0)).map t.rawReadyAt = some false ∧ (after (.rawTimeout 0) t).fld (eccPage 0) Fld.ECC_RAW_CTRL_RESULT = 2 := by decide +kernel
/-- The repair list: the entry of the worked example of R262 (ENTRY_HI 0x1020_04D2, ENTRY_LO 0x8000_0016). -/
def repSt : State := (locked Pg.repair user |>.setReg Pg.repair Reg.REP_ENTRY_HI 0x102004D2).setReg Pg.repair Reg.REP_ENTRY_LO 0x80000016
theorem test_repair : takes repSt 1 Pg.repair Reg.REP_LIST_CTRL (ffs repSt Pg.repair Reg.REP_LIST_CTRL [(Fld.REP_LIST_CTRL_OP, 1)]) = true ∧
    (let s := after (.addEntry 1) repSt
     s.integ.staged = [0x102004D280000016] ∧ takes s 1 Pg.repair Reg.REP_LIST_CTRL (ffs s Pg.repair Reg.REP_LIST_CTRL [(Fld.REP_LIST_CTRL_OP, 2)]) = true ∧
     (after (.commit 1) { s with integ.runtime := [7] }).integ.staged = [0x102004D280000016, 7] ∧
     takes s 1 Pg.repair Reg.REP_LIST_CTRL (ffs s Pg.repair Reg.REP_LIST_CTRL [(Fld.REP_LIST_CTRL_OP, 4)]) = true ∧
     (let u := after (.listWrite 1) s
      u.integ.writing = some 0 ∧ mget (after (.listWriteEnd true) u).integ.copies 0 = some ⟨1, [0x102004D280000016], true⟩ ∧
      (after (.listWriteEnd false) u).fld Pg.repair (Fld.PG_TRB_CNT 2) = 1)) := by decide +kernel

/-! ### Check engines (statement of chapter 11) -/

/-- Table 11.1: the checks over "123456789". -/
theorem test_crc : (List.range 4).map (fun p => crcOf p ((List.range 9).map fun i => BitVec.ofNat 8 (0x31 + i))) =
    [0x29B1, 0xCBF43926, 0xE3069283, 0x995DC9BBDF1939FA] := by decide +kernel
/-- Engine 15 with an 8-byte payload at 0x40 and TX 0x39 (the worked example of R272). -/
def chkSt : State := flds [(Pg.chk 15, Fld.CHK_SRC_LO_BITS, 0x40), (Pg.chk 15, Fld.CHK_DST_LO_BITS, 0x100), (Pg.chk 15, Fld.CHK_LEN_M1_LEN, 7),
  (Pg.chk 15, Fld.CHK_ALIVE_CFG_EN, 1), (Pg.chk 15, Fld.CHK_ALIVE_CFG_SKIP_WIN, 16), (Pg.chk 15, Fld.CHK_ALIVE_CNT_TX, 0x39)] (locked (Pg.chk 15) user)
def jobCtl (s : State) (mode poly : Nat) : Word := ffs s (Pg.chk 15) Reg.CHK_JOB_CTRL [(Fld.CHK_JOB_CTRL_MODE, mode), (Fld.CHK_JOB_CTRL_POLY, poly), (Fld.CHK_JOB_CTRL_START, 1)]
def jobCmd : Nat → BitVec 2 → Instr | 0, p => .outgoingJob 1 15 p | 1, p => .incomingJob 1 15 p | 2, p => .scanJob 1 15 p false | _, p => .scanJob 1 15 p true
theorem test_jobs : ((List.range 4).all fun m => takes chkSt 1 (Pg.chk 15) Reg.CHK_JOB_CTRL (jobCtl chkSt m 3)) = true ∧
    ((List.range 4).all fun m => (let t := after (jobCmd m 3) chkSt; (mgetD [] t.rings.epReq chkIf).length == 1 && t.fld (Pg.chk 15) Fld.CHK_JOB_STAT_BUSY == 1)) = true ∧
    (mget (after (jobCmd 1 0) chkSt).chk 15).map ChkJob.rdLen = some 11 := by decide +kernel
/-- The bytes that the job of the example writes. -/
theorem test_job_example : let t := (after (jobCmd 0 0) chkSt).chkResponse 15 .rd 0x40 .ok 0x3837363534333231
    (mget t.chk 15).map ChkJob.msg = some [0x31, 0x32, 0x33, 0x34, 0x35, 0x36, 0x37, 0x38, 0x39, 0xB1, 0x29] ∧
    t.fld (Pg.chk 15) Fld.CHK_RESULT_LO_BITS = 0x29B1 := by decide +kernel
theorem test_job_stop : let s := after (jobCmd 2 0) chkSt
    (mget s.chk 15).map ChkJob.outcome = some 0 ∧ takes s 1 (Pg.chk 15) Reg.CHK_JOB_CTRL (ffs s (Pg.chk 15) Reg.CHK_JOB_CTRL [(Fld.CHK_JOB_CTRL_STOP, 1)]) = true ∧
    (let t := after (.jobStop 1 15) s; (mget t.chk 15).map (fun j => (j.outcome, j.flight)) = some (5, 0) ∧ mgetD [] t.rings.epReq chkIf = []) := by decide +kernel
/-- The ends of jobs: accepted, mismatch, rejected, error, stopped; with accesses open. -/
def jobOut (mode outcome flag flight : Nat) (rx : Option Nat) : State :=
  let s := flds [(Pg.chk 15, Fld.CHK_JOB_STAT_BUSY, 1)] chkSt
  { s with chk := mput [] 15 ⟨mode, 0, 0, 0, 8, 8, 1, [], 1, 0, [], false, 0, flight, outcome, flag, rx⟩ }
theorem test_job_ends :
    (let t := after (.jobEnd 15) (jobOut 0 1 0 0 none); t.fld (Pg.chk 15) Fld.CHK_JOB_STAT_OUTCOME = 1 ∧ t.fld (Pg.chk 15) Fld.CHK_ALIVE_CNT_TX = 0x3A ∧ t.fld (Pg.chk 15) Fld.CHK_JOB_STAT_BUSY = 0) ∧
    (let t := after (.jobEnd 15) (jobOut 1 1 3 0 (some 0x40)); t.fld (Pg.chk 15) Fld.CHK_ALIVE_CNT_RX = 0x40 ∧ t.fld (Pg.chk 15) (Fld.PG_TRB_CNT 3) = 1) ∧
    (let t := after (.jobEnd 15) (jobOut 3 2 0 0 none); t.fld (Pg.chk 15) (Fld.PG_TRB_CNT 5) = 1 ∧ t.fld (Pg.chk 15) Evt.CHK_REJECT = 1) ∧
    (let t := after (.jobEnd 15) (jobOut 1 3 4 0 none); t.fld (Pg.chk 15) (Fld.PG_TRB_CNT 0) = 1 ∧ t.fld (Pg.chk 15) Fld.CHK_JOB_STAT_FLAG = 4) ∧
    (let t := after (.jobEnd 15) (jobOut 1 4 0 1 none); t.fld (Pg.chk 15) (Fld.PG_TRB_CNT 4) = 1 ∧ t.fld (Pg.chk 15) Fld.CHK_JOB_STAT_BUSY = 1) ∧
    (after (.jobEnd 15) (jobOut 1 5 0 0 none)).fld (Pg.chk 15) Fld.CHK_JOB_STAT_OUTCOME = 5 := by decide +kernel
/-- The classes of the worked example: counter 0x39 at RX 0x38, 0x37, 0x41, 0x39; a wrong check; no counter; RX not valid; d = 16 and 17, and 255. -/
def rxSt (rx : Nat) : State := flds [(Pg.chk 15, Fld.CHK_ALIVE_CFG_RX_VALID, 1), (Pg.chk 15, Fld.CHK_ALIVE_CNT_RX, rx)] chkSt
theorem test_classes : (rxSt 0x38).chkClass 15 9 9 0x39 = (0, some 0x39) ∧ (rxSt 0x37).chkClass 15 9 9 0x39 = (3, some 0x39) ∧ (rxSt 0x41).chkClass 15 9 9 0x39 = (2, none) ∧
    (rxSt 0x39).chkClass 15 9 9 0x39 = (1, none) ∧ (rxSt 0x39).chkClass 15 9 8 0x39 = (4, none) ∧ chkSt.chkClass 15 9 9 0x39 = (0, some 0x39) ∧
    (flds [(Pg.chk 15, Fld.CHK_ALIVE_CFG_EN, 0)] chkSt).chkClass 15 9 9 0 = (0, none) ∧ (rxSt 0x29).chkClass 15 9 9 0x39 = (3, some 0x39) ∧
    (rxSt 0x28).chkClass 15 9 9 0x39 = (2, none) ∧ (rxSt 0x3A).chkClass 15 9 9 0x39 = (2, none) := by decide +kernel

/-! ### Lanes and the host port (statements of chapter 12) -/

/-- Lane 191 in a state, owned by the fabric, its lock held, its group running; extra fields. -/
def laneIn (st : Nat) (l : List (Fld × Nat)) : State :=
  let s := flds ([(Pg.lane 191, Fld.LN_STAT_STATE, st), (Pg.lane 191, Fld.LN_CTRL_OWNER, 1), (Pg.fabCtl 7, Fld.FABCTL_DIE_STAT_PWR_STATE, 3)] ++ l.map fun e => (Pg.lane 191, e.1, e.2)) user
  locked (Pg.lane 191) { s with laneGroups := 0x800 }
def lnCtl (s : State) (g : Fld) (n : Nat) : Bool := takes s 1 (Pg.lane 191) Reg.LN_CTRL (ffs s (Pg.lane 191) Reg.LN_CTRL [(g, n)])
def stAfter (i : Instr) (s : State) : Nat := (after i s).laneState 191
theorem test_lane_start : lnCtl (laneIn 1 []) Fld.LN_CTRL_ENABLE 1 = true ∧ (laneIn 1 []).fld Pg.clkRef Fld.REF_LOSS_STAT_SAFE = 0 ∧
    (laneIn 1 []).laneGroups.getLsbD (191 / 16) = true ∧ stAfter (.laneEnable 1 191) (laneIn 1 []) = 2 ∧ stAfter (.laneEnable 1 191) (laneIn 1 [(Fld.LN_CTRL_OWNER, 0)]) = 6 ∧
    lnCtl (laneIn 3 [(Fld.LN_CTRL_ENABLE, 1)]) Fld.LN_CTRL_ENABLE 0 = true ∧ stAfter (.laneDisable 1 191) (laneIn 3 [(Fld.LN_CTRL_ENABLE, 1)]) = 1 ∧
    lnCtl (laneIn 3 [(Fld.LN_CTRL_ENABLE, 1)]) Fld.LN_CTRL_RESTART 1 = true ∧ stAfter (.restart 1 191) (laneIn 3 [(Fld.LN_CTRL_ENABLE, 1)]) = 2 ∧
    (let s : State := { laneIn 1 [(Fld.LN_CTRL_ENABLE, 1)] with laneGroups := 0 }
     s.fld Pg.cfg Fld.CFG_CFG_STAT_STATE = 6 ∧ stAfter (.laneGroupStart 11) s = 2 ∧ stAfter (.laneGroupStart 10) s = 1) := by decide +kernel
theorem test_lane_training :
    (let t := after (.laneTrainingEnd 191 false 0) (laneIn 2 []); t.laneState 191 = 2 ∧ t.fld (Pg.lane 191) (Fld.PG_TRB_CNT 2) = 1) ∧
    (let t := after (.laneTrainingEnd 191 true 0) (laneIn 4 [(Fld.LN_CTRL_PCS, 3)]); t.laneState 191 = 3 ∧ t.fld (Pg.lane 191) Fld.LN_STAT_BLOCK_LOCK = 1) ∧
    anRate 3 true = some (25781250, false, 2, 0) ∧ anRate 5 false = some (106250000, true, 3, 2) ∧
    (let t := after (.laneTrainingEnd 191 true 5) (laneIn 2 [(Fld.LN_CTRL_AN_EN, 1), (Fld.LN_AN_ABILITY, 16)])
     t.laneState 191 = 3 ∧ t.fld (Pg.lane 191) Fld.LN_RATE_KBPS = 106250000 ∧ t.fld (Pg.lane 191) Fld.LN_AN_RESULT = 5) ∧
    stAfter (.laneTrainingEnd 191 true 5) (laneIn 2 [(Fld.LN_CTRL_AN_EN, 1), (Fld.LN_AN_ABILITY, 15)]) = 2 := by decide +kernel
/-- Lane 191 alone in span 23; then lanes 191 and 190 in it, the first of them up at the rate of RESULT 9. -/
def spanLanes (up : Bool) : State :=
  let s := laneIn 2 [(Fld.LN_CTRL_OWNER, 2), (Fld.LN_AN_RESULT, 9), (Fld.LN_CTRL_PROBE_EN, 1)]
  flds ([(Pg.span 23, Fld.SPAN_SP_CTRL_ENABLE, 1), (Pg.span 23, Fld.SPAN_SP_CTRL_WIDTH, if up then 2 else 1)] ++
    if up then [(Pg.span 23, Fld.SPAN_SP_STAT_UP_MASK, 1), (Pg.span 23, Fld.SPAN_SP_STAT_RATE, 9)] else []) (s.setReg (Pg.span 23) Reg.SPAN_SP_LANES0 (if up then 0xBFBE else 0xBF))
theorem test_span_lane : (spanLanes false).laneSpan 191 = some (23, 0) ∧ (spanLanes true).laneSpan 191 = some (23, 1) ∧ ((spanLanes true).span 23).excluded = [] := by decide +kernel
theorem test_span_up :
    (let t := after (.laneTrainingEnd 191 true 0) ((spanLanes false).setSpan 23 { sentCT := 32 }); t.spanUp 23 = true ∧ t.fld (Pg.span 23) Fld.SPAN_SP_STAT_UP_MASK = 1) := by decide +kernel
theorem test_span_lane_joins :
    (let t := after (.laneTrainingEnd 191 true 0) (spanLanes true); t.laneState 191 = 3 ∧ t.fld (Pg.span 23) Fld.SPAN_SP_STAT_UP_MASK = 3) := by decide +kernel
def probing (x : Lane) : State := (laneIn 2 [(Fld.LN_CTRL_PROBE_EN, 1), (Fld.LN_AN_ABILITY, 0x3FF)]).setLane 191 x
theorem test_probes :
    ((after (.probeOrderedSet 191 0x3FF 400 false) (probing {})).lane 191).probes = 1 ∧
    (after (.probeOrderedSet 191 0x3FF 400 false) (probing { probe := some (0x3FF, 400), probes := 2 })).out = [.lane 191 .probeAck] ∧
    (let t := after (.probeOrderedSet 191 0x3FF 400 true) (probing { probe := some (0x3FF, 400), ackSent := true, acksIn := 2 })
     t.fld (Pg.lane 191) Fld.LN_RATE_KBPS = 112500000 ∧ t.fld (Pg.lane 191) Fld.LN_AN_RESULT = 10 ∧ t.fld (Pg.lane 191) Fld.LN_IDLE_GUARD_US = 1000) ∧
    (after (.probeTimeout 191) (probing {})).fld (Pg.lane 191) (Fld.PG_TRB_CNT 2) = 1 := by decide +kernel
def tapped (pre main post : Nat) : State := laneIn 2 [(Fld.LN_CTRL_TRAIN_EN, 1), (Fld.LN_TXFIR_PRE, pre), (Fld.LN_TXFIR_MAIN, main), (Fld.LN_TXFIR_POST, post)]
theorem test_taps : tapsOk 16 40 7 = true ∧ tapsOk 17 40 0 = false ∧
    (let t := after (.coefficientRequest 191 .pre true) (tapped 15 40 7); t.fld (Pg.lane 191) Fld.LN_TXFIR_PRE = 16 ∧ t.out = [.lane 191 (.coef false)]) ∧
    (let t := after (.coefficientRequest 191 .pre true) (tapped 16 40 0); t.fld (Pg.lane 191) Fld.LN_TXFIR_PRE = 16 ∧ t.out = [.lane 191 (.coef true)]) ∧
    (after (.coefficientRequest 191 .post false) (tapped 0 40 0)).out = [.lane 191 (.coef true)] := by decide +kernel
theorem test_fec : let s := (laneIn 3 [(Fld.LN_CTRL_FEC, 2)]).setLane 191 { uncorr := 7 }
    ((after (.fecCodeword 191 .clean) s).lane 191).uncorr = 0 ∧ (after (.fecCodeword 191 .corrected) s).fld (Pg.lane 191) (Fld.PG_TRB_CNT 4) = 1 ∧
    (let t := after (.fecCodeword 191 .uncorrectable) s; (t.lane 191).uncorr = 8 ∧ (after (.fecLockLoss 191) t).laneState 191 = 4) := by decide +kernel
theorem test_losses : (after (.cdrLockLoss 191) (laneIn 2 [(Fld.LN_STAT_CDR_LOCK, 1)])).fld (Pg.lane 191) Fld.LN_STAT_CDR_LOCK = 0 ∧
    (after (.blockLockLoss 191 true) (laneIn 3 [(Fld.LN_CTRL_PCS, 1), (Fld.LN_STAT_BLOCK_LOCK, 1)])).fld (Pg.lane 191) Fld.LN_STAT_BLOCK_LOCK = 1 ∧
    (let t := after (.lossOfSignal 191) (laneIn 3 []); t.laneState 191 = 5 ∧ (t.reg Pg.alm Reg.ALM_ALM_SUM).getLsbD 7 = true) ∧ stAfter (.signalReturn 191) (laneIn 5 []) = 2 := by decide +kernel
/-- Idle: GUARD is 5/2 of BURST_NS in µs (400 ns: 1,000 µs, the worked example of R296). -/
theorem test_idle : let s := laneIn 3 [(Fld.LN_CTRL_PCS, 3), (Fld.LN_IDLE_BURST_NS, 400)]
    (after (.idleEntry 191) s).out = [.lane 191 .idleMarker] ∧ (after (.transmitIdleExit 191) (after (.idleEntry 191) s)).fld (Pg.lane 191) Fld.LN_IDLE_TX_IDLE = 0 ∧
    (let t := after (.idleMarker 191) s
     t.fld (Pg.lane 191) Fld.LN_IDLE_RX_IDLE = 1 ∧ stAfter (.idleExit 191 999 true) t = 3 ∧ stAfter (.idleExit 191 1000 true) t = 4 ∧ stAfter (.idleExit 191 0 false) t = 4) ∧
    stAfter (.trainingFramesReceived 191) s = 4 := by decide +kernel
/-- Frames in ETH framing: taken, cut at MAX_FRAME, dropped. -/
def ethLane (x : Lane) (l : List (Fld × Nat)) : State := (laneIn 3 ([(Fld.LN_CTRL_PCS, 3), (Fld.LN_RXFIFO_FRAMING, 1), (Fld.LN_RXFIFO_MAX_FRAME, 64)] ++ l)).setLane 191 x
theorem test_frames : (ethLane {} []).laneEth 191 = true ∧ (ethLane {} []).dieUp (laneHome 191) = true ∧
    (let t := after (.frameReceived 191 (List.replicate 64 7)) (ethLane {} []); (t.lane 191).fifo.length = 2 ∧ t.fld (Pg.lane 191) (Fld.PG_TRB_CNT 6) = 0) ∧
    (let t := after (.frameReceived 191 (List.replicate 65 7)) (ethLane {} []); (t.lane 191).fifo.length = 2 ∧ t.fld (Pg.lane 191) (Fld.PG_TRB_CNT 6) = 1) ∧
    (let x : Lane := { fifo := List.replicate 512 ⟨0, false, false, 0, false⟩ }
     (ethLane x []).laneEth 191 = true ∧ 16384 < x.occupied + 64 ∧ (after (.frameReceived 191 [7]) (ethLane x [])).fld (Pg.lane 191) (Fld.PG_TRB_CNT 6) = 1) ∧
    ((after (.frameReceived 191 [7]) (ethLane {} [(Fld.LN_PAUSE_EN, 1), (Fld.LN_PAUSE_ON, 0)])).lane 191).paused = true := by decide +kernel
theorem test_receive_channel : let w : LaneWord := ⟨5, true, true, 3, false⟩
    let t := after (.receiveChannelTransfer 191) (ethLane { fifo := [w] } [])
    t.out = [.lane 191 (.word w)] ∧ (t.lane 191).fifo = [] ∧
    (after (.pauseRepeat 191) (ethLane { paused := true } [(Fld.LN_PAUSE_EN, 1), (Fld.LN_PAUSE_OFF, 0)])).out.length = 1 ∧
    (after (.transmitUnderrun 191) (ethLane {} [])).out = [.lane 191 .errorCode] ∧ (after (.transmitUnderrun 191) (laneIn 3 [(Fld.LN_CTRL_PCS, 0)])).out = [.lane 191 .prbsWord] := by decide +kernel
theorem test_lane_test : let s := laneIn 6 [(Fld.LN_PAT_CHK_EN, 1)]
    (after (.checkerLock 191) s).fld (Pg.lane 191) Fld.LN_PAT_CHK_LOCK = 1 ∧ (after (.checkerLockLoss 191) (after (.checkerLock 191) s)).fld (Pg.lane 191) Fld.LN_PAT_CHK_LOCK = 0 ∧
    (let i := laneIn 3 [(Fld.LN_INJ_MODE, 1)]
     takes i 1 (Pg.lane 191) Reg.LN_INJ (ffs i (Pg.lane 191) Reg.LN_INJ [(Fld.LN_INJ_FIRE, 1)]) = true ∧ (after (.fire 1 191) i).out = [.lane 191 (.inject 1)]) ∧
    (let i := laneIn 2 [(Fld.LN_INJ_MODE, 2)]
     takes i 1 (Pg.lane 191) Reg.LN_INJ (ffs i (Pg.lane 191) Reg.LN_INJ [(Fld.LN_INJ_FIRE, 1)]) = true ∧ ((after (.fire 1 191) i).lane 191).inject = true) := by decide +kernel

/-- The link is up, PF0 has Memory Space enabled and an aperture of 1 MiB at the base of HBM, with vector 0. -/
def hostSt : State :=
  let s := flds [(Pg.hostLnk, Fld.HLNK_LINK_STAT_DL_UP, 1), (Pg.hostLnk, Fld.HLNK_LINK_STAT_LTSSM, 3), (Pg.host, Fld.HOST_PF_AP_LO_SIZE 0, 20), (Pg.host, Fld.HOST_MSIX_SIZE_PF 0, 1)] user
  locked Pg.hostLnk (({ s with mgmt := { s.mgmt with perst := true } }.setFn 0 { HostFn.reset with memEn := true, busMaster := true, msixEn := true }).setIfState 56 0 1)
def hreq (wr : Bool) : HostReq := ⟨wr, 0xFFFC0, 64, if wr then [some 1] else [], false, 9⟩
theorem test_host_requests : hostSt.dlUp = true ∧ hostSt.boot.held = 0 ∧ hostSt.hostMode = 2 ∧ hostSt.fnExists 0 = true ∧ hostSt.fnExists 511 = false ∧
    hostSt.aperture 0 = some (0, 20, 0) ∧
    (let t := after (.hostRequest 511 1 (hreq false)) hostSt; t.out = [.completion 511 9 1 []] ∧ t.fld Pg.hostLnk (Fld.PG_TRB_CNT 7) = 1) ∧
    ((after (.hostRequest 511 1 (hreq true)) hostSt).fn 511).uncErr = 1 ∧
    ((after (.hostRequest 0 1 (hreq false)) hostSt).epQ (ifKey 56 0) .req).map (fun e => e.r.addr) = [0xFFFC0] := by decide +kernel
theorem test_config_requests : (after (.configRequest 511 .read) hostSt).out = [.config 511 2] ∧ (after (.configRequest 0 .read) hostSt).out = [.config 0 1] ∧
    ((after (.configRequest 0 (.command true false)) hostSt).fn 0).memEn = true ∧ ((after (.configRequest 0 (.msix true true)) hostSt).fn 0).msixMask = true ∧
    (let t := after (.configRequest 0 (.numVfs 63)) hostSt; t.fnExists 8 = true ∧ t.fnExists 70 = true ∧ t.fnExists 71 = false) ∧
    (let s := flds [(Pg.cfg, Fld.CFG_CFG_STAT_USER_EN, 0), (Pg.cfg, Fld.CFG_CFG_STAT_STATE, 2)] hostSt; s.hostMode = 0 ∧ (after (.configRequest 0 .read) s).out = [.config 0 0]) := by decide +kernel
theorem test_msix : let v := fun (s : State) g => takes s 1 Pg.hostLnk Reg.HLNK_MSIX_TRIG (ffs s Pg.hostLnk Reg.HLNK_MSIX_TRIG [(Fld.HLNK_MSIX_TRIG_VECTOR, g)])
    v hostSt 0 = true ∧ v hostSt 2047 = true ∧ hostSt.vectorFn 512 0 0 = some (0, 0) ∧ (after (.msixTrig 1 2047) hostSt).fld Pg.hostLnk (Fld.PG_TRB_CNT 6) = 1 ∧
    (hostSt.vectorMasked 0 0 = true ∧ (after (.msixTrig 1 0) hostSt).msixPend = [0]) ∧
    (after (.msixTrig 1 0) (hostSt.setFn 0 { HostFn.reset with msixEn := false })).fld Pg.hostLnk (Fld.PG_TRB_CNT 6) = 1 ∧
    (after (.msixTrig 1 0) { hostSt with host := { hostSt.host with table := [(2, 77), (3, 0)] } }).out = [.msix 0 0 0 77] := by decide +kernel
theorem test_link : takes hostSt 1 Pg.hostLnk Reg.HLNK_LINK_CTRL (ffs hostSt Pg.hostLnk Reg.HLNK_LINK_CTRL [(Fld.HLNK_LINK_CTRL_RETRAIN, 1)]) = true ∧
    (after (.linkRetrain 1) hostSt).fld Pg.hostLnk Fld.HLNK_LINK_STAT_LTSSM = 4 ∧
    (let s : State := { hostSt with boot := { hostSt.boot with refsUp := true } }
     s.fld Pg.bist Fld.BIST_FAIL_PORT_HOST = 0 ∧ s.fld Pg.clkRef Fld.REF_LOSS_STAT_SAFE = 0 ∧
     (let t := after (.hostLinkUp 5 16) s; t.fld Pg.hostLnk Fld.HLNK_LINK_STAT_SPEED = 5 ∧ t.fld Pg.hostLnk Fld.HLNK_LINK_STAT_WIDTH = 16)) := by decide +kernel
theorem test_host_resets : hostSt.fld Pg.cfgh Fld.CFGH_H_STAT_STATE ≠ 1 ∧ hostSt.fld Pg.cfgh Fld.CFGH_H_STAT_STATE ≠ 2 ∧
    ((after .hotReset hostSt).dlUp = false ∧ (after .hotReset hostSt).fld Pg.hostLnk (Fld.PG_TRB_CNT 5) = 1) ∧ (after .linkDown hostSt).fld Pg.hostLnk (Fld.PG_TRB_CNT 4) = 1 ∧
    (let t := after (.perst false) hostSt; t.mgmt.perst = false ∧ t.dlUp = false ∧ (after (.perst true) t).mgmt.perst = true) ∧
    (let t := after (.flr 0) hostSt; t.fns = [] ∧ t.fld Pg.hostLnk (Fld.PG_TRB_CNT 5) = 1) := by decide +kernel

/-! ### Die links and the UCIe site (statement of chapter 13) -/

theorem test_crossings : let s := flds [(Pg.fabCtl 7, Fld.FABCTL_DIE_STAT_PWR_STATE, 3), (Pg.dlk 0, Fld.DLK_XNG_ERR_VALID, 0)] user
    s.dieUp 0 = true ∧ s.dieUp 7 = true ∧
    (let t := after (.crossingWordError (.xng 0 7 3 63 15 8 false)) s; t.fld (Pg.dlk 0) (Fld.PG_TRB_CNT 0) = 1 ∧ t.fld (Pg.dlk 0) Fld.DLK_XNG_ERR_SYN = 8) ∧
    (let t := after (.crossingWordError (.xng 0 7 3 63 15 8 true)) s
     t.fld (Pg.dlk 0) (Fld.PG_TRB_CNT 1) = 1 ∧ (t.reg Pg.alm Reg.ALM_ALM_SUM).getLsbD 5 = true ∧ t.fld (Pg.dlk 0) Fld.DLK_XNG_ERR_GROUP = 63) ∧
    (after (.crossingWordError (.bond 0 true 2 15 8 false false)) s).fld (Pg.dlk 0) (Fld.PG_TRB_CNT 2) = 1 ∧
    ((after (.crossingWordError (.bond 0 true 2 15 8 true true)) s).reg Pg.alm Reg.ALM_ALM_SUM).getLsbD 6 = true ∧
    (let t := after (.caParityError 127) s; t.fld Pg.dlkH Fld.DLKH_CA_ERR_PC = 127 ∧ t.fld Pg.dlkH (Fld.PG_TRB_CNT 0) = 1) := by decide +kernel
/-- Module 3 in a state. -/
def uciIn (st : Nat) (l : List (Fld × Nat)) : State := locked (Pg.uciM 3) (flds ([(Pg.uci, Fld.UCI_UCI_CFG_EN, 1), (Pg.uciM 3, Fld.UCIM_M_STAT_STATE, st)] ++ l.map fun e => (Pg.uciM 3, e.1, e.2)) user)
def mCtl (s : State) (g : Fld) (n : Nat) : Bool := takes s 1 (Pg.uciM 3) Reg.UCIM_M_CTRL (ffs s (Pg.uciM 3) Reg.UCIM_M_CTRL [(g, n)])
def on3 : List (Fld × Nat) := [(Fld.UCIM_M_CTRL_ENABLE, 1)]
theorem test_module_enable : user.hasUcie = true ∧ (uciIn 0 []).copyEnded = true ∧ mCtl (uciIn 0 []) Fld.UCIM_M_CTRL_ENABLE 1 = true ∧ (uciIn 0 []).fld (Pg.uciM 3) Fld.UCIM_M_CTRL_ENABLE = 0 ∧
    (after (.moduleEnable 1 3) (uciIn 0 [])).uciState 3 = 1 ∧ mCtl (uciIn 2 on3) Fld.UCIM_M_CTRL_ENABLE 0 = true ∧
    (let s := (uciIn 2 on3).setIfState 63 0 1; s.maySnuff 63 0 = true ∧ (after (.moduleDisable 1 3) s).ifState 63 0 = 3) ∧
    ((uciIn 4 on3).setIfState 63 0 4).maySnuff 63 0 = false ∧ (after (.moduleDisable 1 3) ((uciIn 4 on3).setIfState 63 0 4)).uciState 3 = 0 ∧
    (after (.moduleBringup 3) (uciIn 0 on3)).uciState 3 = 1 := by decide +kernel
/-- The capability message: buffers of 8 and of 7 entries. -/
theorem test_capability :
    (let t := after (.capabilityMessage 3 0x0001080808080000 0x1234 0x5678) (uciIn 1 []); (t.uciMod 3).capsIn = true ∧ t.fld (Pg.uciM 3) Fld.UCIM_M_PCAP_MGMT = 8 ∧ t.fld Pg.uci Fld.UCI_UCI_PARTNER_DEVICE = 0x5678) ∧
    (let t := after (.capabilityMessage 3 0x0001080708080000 0x1234 0x5678) (uciIn 1 []); t.uciState 3 = 4 ∧ t.ifState 63 0 = 4 ∧ (t.reg Pg.alm Reg.ALM_ALM_SUM).getLsbD 9 = true) := by decide +kernel
theorem test_module_active : let s := (uciIn 1 []).setUciMod 3 { capsIn := true }
    0 ≤ s.fld Pg.uci Fld.UCI_UCI_CFG_MAX_RATE ∧ (let t := after (.moduleActive 3 0 4 4) s; t.uciState 3 = 2 ∧ t.ifState 63 0 = 1 ∧ t.fld (Pg.uciM 3) Fld.UCIM_M_STAT_TX_REP = 4) ∧
    (after (.moduleActive 3 0 5 0) s).uciState 3 = 4 ∧ (after (.retrainEnd 3 4 4) (uciIn 3 [])).uciState 3 = 2 ∧ (after (.retrainEnd 3 0 5) (uciIn 3 [])).uciState 3 = 4 ∧
    (after (.bringupTimeout 3) (uciIn 1 [])).uciState 3 = 4 ∧ (after (.retrainTimeout 3) (uciIn 3 [])).uciState 3 = 4 := by decide +kernel
theorem test_retrain : mCtl (uciIn 2 on3) Fld.UCIM_M_CTRL_RETRAIN 1 = true ∧ (after (.retrain 3 (some 1)) (uciIn 2 on3)).uciState 3 = 3 ∧
    (after (.retrain 3 none) (uciIn 2 [])).fld (Pg.uciM 3) (Fld.PG_TRB_CNT 2) = 1 := by decide +kernel
theorem test_units : let s := uciIn 2 []
    (let t := after (.uciUnit 3 (mkUnit ⟨true, false, 0, 0, 0, []⟩ ^^^ 1)) (s.setUciMod 3 { fails := 1 }); (t.uciMod 3).nak = true ∧ (t.uciMod 3).fails = 2 ∧ t.uciState 3 = 2) ∧
    (after (.uciUnit 3 (mkUnit ⟨true, false, 0, 0, 0, []⟩ ^^^ 1)) (s.setUciMod 3 { fails := 2, nak := true })).uciState 3 = 3 ∧
    (after (.uciUnit 3 (mkUnit ⟨true, false, 0, 0, 0, []⟩ ^^^ 1)) (s.setUciMod 3 { fails := 2, nak := true })).fld (Pg.uciM 3) (Fld.PG_TRB_CNT 1) = 1 ∧
    (let t := after (.uciUnit 3 (mkUnit ⟨true, true, 0, 1, 0x01010101, []⟩)) (s.setUciMod 3 { replay := [(2, [])], txSeq := 3 }); (t.uciMod 3).cred = 0x01010101 ∧ t.fld (Pg.uciM 3) (Fld.PG_TRB_CNT 1) = 1) := by decide +kernel
/-- A flit of the partner: an RD of 64 bytes at 0x780, tag 9; the same with its CRC wrong is discarded. -/
def rdFlit : BitVec 640 := flitWord ⟨0, 5, 0, 9, 4, 0x780⟩ .req 60 0 0
theorem test_unit_flits : let s := uciIn 2 []
    partnerFlitOk rdFlit = true ∧ flitTyp rdFlit = 0 ∧ partnerFlitOk (rdFlit ^^^ 1) = false ∧ (unitOf (mkUnit ⟨true, false, 0, 0, 0, [rdFlit]⟩)).flits = [rdFlit] ∧
    (let t := after (.uciUnit 3 (mkUnit ⟨true, false, 0, 0, 0, [rdFlit]⟩)) s
     (t.epQ (ifKey 63 0) (s.queueOf 63 0 .rd 0x780)).map (fun e => (e.r.addr, e.r.tag)) = [(0x780, 9)] ∧ (t.uciMod 3).rxSeq = 1) ∧
    (after (.uciUnit 3 (mkUnit ⟨true, false, 0, 0, 0, [rdFlit ^^^ 1]⟩)) s).fld (Pg.uciM 3) (Fld.PG_TRB_CNT 4) = 1 := by decide +kernel

/-! ### Tequel (statements of chapter 14) -/

/-- Span 2 in a state, the TQ page's lock held. -/
def spanIn (st : Nat) (x : SpanState) : State := (flds [(Pg.span 2, Fld.SPAN_SP_STAT_STATE, st)] (locked (Pg.span 2) (locked Pg.tq user))).setSpan 2 x
def fr : Frame := mkFrame 0x123 0x0AB 0x07A 0 0x10 1 4 (payOf [(0, 5, 0x100)])
/-- A span of one lane, 191, which the Tequel engine owns. -/
theorem test_span_enable : let s := flds [(Pg.lane 191, Fld.LN_CTRL_OWNER, 2), (Pg.lane 191, Fld.LN_STAT_STATE, 3), (Pg.span 2, Fld.SPAN_SP_LANES0_LANE, 191)] (spanIn 0 {})
    let v := withFlds (s.rwWord (Pg.span 2) Reg.SPAN_SP_CTRL) [(Fld.SPAN_SP_CTRL_WIDTH, 1), (Fld.SPAN_SP_CTRL_ENABLE, 1)]
    s.fld (Pg.span 2) Fld.SPAN_SP_CTRL_ENABLE = 0 ∧ takes s 1 (Pg.span 2) Reg.SPAN_SP_CTRL v = true ∧
    (let t := after (.spanEnable 1 2 1) s; t.fld (Pg.span 2) Fld.SPAN_SP_STAT_STATE = 1 ∧ t.laneState 191 = 2 ∧ t.spanLane 2 0 = 191) := by decide +kernel
/-- A good block in sequence, one 63 ahead (the last of the window), one 64 ahead and a duplicate (discarded), a damaged one; the gap timeout. -/
theorem test_blocks : let s := spanIn 2 { rxSeq := 255 }
    let get (q : Byte) := after (.tqBlock 2 (mkBlock {} (some fr) q)) s
    s.spanUp 2 = true ∧ ((get 255).span 2).rxSeq = 0 ∧ ((get 255).span 2).freedRQ = 1 ∧ ((get 62).span 2).ahead = [(62, fr)] ∧ ((get 63).span 2).ahead = [] ∧
    ((get 254).span 2).rxSeq = 255 ∧ blockGood (mkBlock {} (some fr) 255) = true ∧ blockGood (mkBlock {} (some fr) 255 ^^^ 1) = false ∧
    (let t := after (.tqBlock 2 (mkBlock {} (some fr) 255 ^^^ 1)) s; (t.span 2).nak = true ∧ t.fld (Pg.span 2) (Fld.PG_TRB_CNT 0) = 1) := by decide +kernel
theorem test_block_gap : let t := after (.blockGapTimeout 2) (spanIn 2 { rxSeq := 7, ahead := [(9, fr)] }); (t.span 2).ahead = [] ∧ (t.span 2).nak = true := by decide +kernel
/-- The example of R219: the frame's tweak. -/
theorem test_link_tweak : tqDusn 0x123 0x07A 0x03000010 = 2 ^ 127 + 0x123 * 2 ^ 76 + 0x07A * 2 ^ 64 + 0x03000010 ∧ fr.crc = fr.goodCrc ∧ fr.dst = 0x123 ∧ fr.src = 0x0AB ∧ fr.queue = 0x07A ∧ fr.seq = 0x10 := by decide +kernel

/-- The network runs, this node has ID 0x0AB; queue 0x07A of tenant 5 leads to queue 0x321 of node 0x123 under slot 0; node 0x123 lies over span 2. -/
def qCfg : Word := 0x80000005
def lq : LinkQueue := { peer := 0x03210123, cfg := qCfg, txAvail := 4 }
def net : State := let s := flds [(Pg.tq, Fld.TQ_NODE_ID, 0x0AB), (Pg.tq, Fld.TQ_NODE_VALID, 1), (Pg.tq, Fld.TQ_NODE_NET_STATE, 3)] (spanIn 2 {})
  { s with tq.routes := mput s.tq.routes 0x123 2 }
def rk : TxnKey := ⟨9, .req, 255⟩
/-- A request for offset 0x1000 of node 0x123 that STOP57 has received. -/
def remote (x : LinkQueue) : State :=
  let s := net.setQueue 0x07A x
  s.setTxn rk { tx .rd (BitVec.ofNat 48 (2 ^ 47 + 0x123 * 2 ^ 33 + 0x1000)) 4 .delivered with dst := 57, dstIf := 0 }
theorem test_remote_request :
    (remote lq).queueFor 5 0x123 = some 0x07A ∧ (remote lq).slotCheck false 0 5 = none ∧ (remote lq).outCount = 0 ∧
    ((remote lq).tq.queues.any fun e => (e.2.wait ++ e.2.out).any fun o => o.txn == some rk) = false ∧
    (let t := after (.remoteRequest rk) (remote lq); ((t.queue 0x07A).out.map OutReq.txn) = [some rk] ∧ (t.queue 0x07A).txAvail = 3 ∧ (t.queue 0x07A).tx = 1 ∧ (t.span 2).txSeq = 1) ∧
    (((after (.remoteRequest rk) (remote { lq with txAvail := 0 })).queue 0x07A).wait.map OutReq.txn) = [some rk] ∧
    ([{ lq with cfg := 0x80000006 }, { lq with cfg := 0xC0000005 }].all fun x => phaseOf (after (.remoteRequest rk) (remote x)) rk == some (.answered .busError 0)) = true ∧
    (let t := after (.remoteRequest rk) (flds [(Pg.tq, Fld.TQ_NODE_NET_STATE, 2)] (remote lq)); phaseOf t rk = some (.answered .busError 0) ∧ t.fld Pg.tq (Fld.PG_TRB_CNT 0) = 1) := by decide +kernel
/-- Slot 3 is EMPTY: the request is refused before it is sent, and a frame of its queue at receipt, which answers the peer at once. -/
theorem test_slot_refusals : let y : LinkQueue := { lq with cfg := 0x80300005 }
    let f := mkFrame 0x0AB 0x123 0x07A 3 0 1 8 0
    let s := remote y
    s.slotCheck false 3 5 ≠ none ∧ (s.queue 0x07A).en = true ∧ f.key = (s.queue 0x07A).key ∧ f.src = (s.queue 0x07A).node ∧ f.queue = 0x07A ∧
    (let t := after (.remoteRequest rk) s; phaseOf t rk = some (.answered .busError 0) ∧ t.fld Pg.ime Fld.IME_VIOL_REC_SRC = 57 ∧ t.tq = s.tq) ∧
    (let t := s.queueReceive f; (t.queue 0x07A).held = [] ∧ (t.queue 0x07A).inn = [] ∧ (t.queue 0x07A).tx = 1) := by decide +kernel
def oreq : OutReq := ⟨some rk, some 0, false, .rd, 0, 4, 0, 0⟩
theorem test_remote_timeout : let t := after (.remoteTimeout rk) (remote { lq with out := [oreq] })
    phaseOf t rk = some (.answered .busError 0) ∧ t.fld Pg.tq (Fld.PG_TRB_CNT 4) = 1 ∧ (t.queue 0x07A).out.map OutReq.txn = [none] := by decide +kernel
/-- A frame of a type that is next on the queue. -/
def nextF (typ len : Nat) (pl : Line) (x : LinkQueue) : State := remote { x with held := [(mkFrame 0x0AB 0x123 0x07A 0 0 typ len pl, 0)] }
/-- An export window over 4 KiB from offset 0. -/
def exported (s : State) : State := flds [(Pg.tqExp, Fld.EXP_OFF_EN 31, 1), (Pg.tqExp, Fld.EXP_OFF_SIZE 31, 12), (Pg.tqExp, Fld.EXP_LOCL_ADDR 31, 0x23)] s
theorem test_rdq : let s := nextF 1 8 (payOf [(0, 5, 0xFF8)]) lq
    (s.queueNext 0x07A 1).isSome = true ∧ (exported s).exportAddr 5 0xFF8 8 = some 0x23FF8 ∧ (exported s).exportAddr 5 0xFF8 16 = none ∧
    (let t := after (.rdq 0x07A) (exported s)
     (t.epQ (ifKey 57 0) (t.queueOf 57 0 .rd 0x23FF8)).map (fun e => (e.r.addr, e.r.len, e.tid)) = [(0x23FF8, 4, 5)] ∧ (t.queue 0x07A).rx = 1 ∧ (t.queue 0x07A).freed = 1 ∧ (t.queue 0x07A).held = []) ∧
    ((after (.rdq 0x07A) (nextF 1 8 (payOf [(0, 5, 0xFF8)]) { lq with inn := [⟨9, 0, true, false, none, false⟩] })).queue 0x07A).inn.map InReq.result = [none, some (.busError, 0)] := by decide +kernel
theorem test_writes_in : ((after (.wra 0x07A) (nextF 2 8 0 lq)).queue 0x07A).header.isSome = true ∧ ((after (.pwa 0x07A) (nextF 3 8 0 lq)).queue 0x07A).header.isSome = true ∧
    (after (.wd 0x07A) (nextF 4 8 0xAB lq)).fld Pg.tq (Fld.PG_TRB_CNT 2) = 1 ∧
    (let t := after (.wd 0x07A) (exported (nextF 4 8 0xAB { lq with header := some (mkFrame 0x0AB 0x123 0x07A 0 0 3 8 0) }))
     (t.epQ (ifKey 57 0) (t.queueOf 57 0 .wrp 0x23000)).map (fun e => (e.r.addr, e.r.data)) = [(0x23000, 0xAB)] ∧ (t.queue 0x07A).header = none) := by decide +kernel
theorem test_responses : (after (.rdataFrame 0x07A) (nextF 8 0 7 lq)).fld Pg.tq (Fld.PG_TRB_CNT 5) = 1 ∧ (after (.wackFrame 0x07A) (nextF 9 0 7 lq)).fld Pg.tq (Fld.PG_TRB_CNT 5) = 1 ∧
    phaseOf (after (.rdataFrame 0x07A) (nextF 8 0 7 { lq with out := [oreq] })) rk = some (.answered .ok 7) ∧
    phaseOf (after (.wackFrame 0x07A) (nextF 9 0 7 { lq with out := [oreq] })) rk = some (.answered .ok 0) := by decide +kernel
theorem test_perr : let t := after (.perr 0x07A) (nextF 0xA 2 (payOf [(0, 5, 0x1FFFFFFFF)]) lq)
    t.tq.perr = [⟨0x1FFFFFFFF, .domainOff, 0x07A⟩] ∧ t.fld Pg.tq Evt.TQ_PERR = 1 ∧
    (let p : PerrRec := ⟨1, .ok, 2⟩
     let s : State := nextF 0xA 2 0 lq
     (after (.perr 0x07A) { s with tq.perr := List.replicate 16 p }).tq.perr.length = 16 ∧
     takes { s with tq.perr := [p, p] } 1 Pg.tq Reg.TQ_PERR_HI (ffs s Pg.tq Reg.TQ_PERR_HI [(Fld.TQ_PERR_HI_VALID, 1)]) = true ∧
     (after (.perrRecordPop 1) { s with tq.perr := [p, p] }).tq.perr = [p]) := by decide +kernel
/-- Credits: 3 more entries freed; a count of 32768 more gives none. -/
theorem test_credit : let give (n : Nat) := let s : State := net.setQueue 0x07A { lq with applied := 0xFFFF }
      let e := [BitVec.ofNat 32 (0x07A * 2 ^ 16 + n)]
      ((after (.credit 0x123 e) { s with tq.inbox := [(2, .credit 0x123 e)] }).queue 0x07A).txAvail
    give 2 = 7 ∧ give 0x7FFE = 4 + 32767 ∧ give 0x7FFF = 4 ∧ give 0xFFFF = 4 := by decide +kernel
theorem test_queue_gap : let s := remote { lq with held := [(fr, 0)], out := [oreq] }
    (∀ f ∈ (s.queue 0x07A).held, (s.queue 0x07A).ahead f.1 ≠ 0) ∧
    (let t := after (.queueGapTimeout 0x07A) s; (t.queue 0x07A).broken = true ∧ phaseOf t rk = some (.answered .busError 0) ∧ t.fld Pg.tq Evt.TQ_QBROKEN = 1) := by decide +kernel
theorem test_queue_enable : let s := flds [(Pg.tq, Fld.TQ_Q_SEL_QUEUE, 0x07A)] (net.setQueue 0x07A { lq with cfg := 0, tx := 9 })
    s.qSel = 0x07A ∧ takes s 1 Pg.tq Reg.TQ_Q_CFG (withFlds 5 [(Fld.TQ_Q_CFG_EN, 1)]) = true ∧
    (let t := after (.queueEnable 1 5) s; (t.queue 0x07A).en = true ∧ (t.queue 0x07A).tx = 0 ∧ (t.queue 0x07A).tenant = 5) ∧
    (let s := flds [(Pg.tq, Fld.TQ_Q_SEL_QUEUE, 0x07A)] (net.setQueue 0x07A { lq with cfg := 0xC0000005 })
     takes s 1 Pg.tq Reg.TQ_Q_CFG (withFlds (0xC0000005 : Word) [(Fld.TQ_Q_CFG_EN, 0), (Fld.TQ_Q_CFG_BROKEN, 0)]) = true ∧
     (let t := after (.queueDisable 1) s; (t.queue 0x07A).en = false ∧ (t.queue 0x07A).broken = false)) := by decide +kernel

/-- Card A or C of the chapter's example (priority 0x40), span 2 UP. -/
def card (lo : Nat) (n : Net) (inbox : List (Nat × CtMsg)) : State :=
  let s := flds [(Pg.tq, Fld.TQ_ELECT_PRIORITY, 0x40), (Pg.tq, ⟨Reg.TQ_SERIAL_HI, 0, 32⟩, 0x00007A10), (Pg.tq, ⟨Reg.TQ_SERIAL_LO, 0, 32⟩, lo)] (spanIn 2 {})
  { s with tq.net := n, tq.inbox := inbox }
def clA : Byte × BitVec 64 := (0x40, 0x00007A10000300C5)
def clC : Byte × BitVec 64 := (0x40, 0x00007A1000010E21)
/-- The chapter's example: both start; each hears the other and backs off; A follows, C claims again and becomes lamplighter. -/
theorem test_election : let a (n : Net) (m : List (Nat × CtMsg)) := card 0x000300C5 n m
    let c (n : Net) (m : List (Nat × CtMsg)) := card 0x00010E21 n m
    (a {} []).ownClaim = clA ∧ takes (a {} []) 1 Pg.tq Reg.TQ_ELECT (ffs (a {} []) Pg.tq Reg.TQ_ELECT [(Fld.TQ_ELECT_START, 1)]) = true ∧
    (let t := after (.electionStart 1) (a {} []); t.tq.net.role = .claiming ∧ t.tq.net.best = some clA ∧ t.netState = 1) ∧
    (let t := after (.claim 2 ⟨0x40, clC.2⟩ 0) (a { role := .claiming, best := some clA } [(2, .claim ⟨0x40, clC.2⟩ 0)]); t.tq.net.role = .backoff ∧ t.tq.net.best = some clC) ∧
    (let t := after (.claim 2 ⟨0x40, clA.2⟩ 0) (c { role := .claiming, best := some clC } [(2, .claim ⟨0x40, clA.2⟩ 0)]); t.tq.net.role = .backoff ∧ t.tq.net.best = some clC) ∧
    (after .backoffEnd (a { role := .backoff, best := some clC } [])).tq.net.role = .none ∧
    (let t := after .backoffEnd (c { role := .backoff, best := some clC } []); t.tq.net.role = .claiming ∧ t.tq.net.round = 1) ∧
    (let t := after .claimRoundEnd (c { role := .claiming, best := some clC } []); t.lamplighter = true ∧ t.tq.net.leader = some clC ∧ t.netState = 2) := by decide +kernel
def bcn (c : Byte × BitVec 64) (epoch : BitVec 24) (count : BitVec 32) : Beacon := ⟨c.1, c.2, 0, epoch, count⟩
theorem test_beacons : let got (n : Net) (b : Beacon) := after (.beacon 2 b) (card 0x000300C5 n [(2, .beacon b)])
    (let t := got {} (bcn clC 0 0); t.tq.net.leader = some clC ∧ t.tq.net.parent = some 2 ∧ t.netState = 2 ∧ t.tq.inbox = []) ∧
    (let t := got { leader := some clA, parent := some 3 } (bcn clC 0 0); t.tq.net.leader = some clC ∧ t.nodeValid = false) ∧
    (let t := got { leader := some clC, parent := some 3 } (bcn clA 0 0); t.tq.net.leader = some clC ∧ t.tq.inbox = []) ∧
    (let s := flds [(Pg.tq, Fld.TQ_LEADER_VALID, 1)] (card 0x000300C5 { leader := some clC } [])
     s.manual = false ∧ s.lamplighter = false ∧ s.upSpans ≠ [] ∧ (after .beaconTimeout s).tq.net.leader = none ∧ (after .beaconTimeout s).tq.net.role = .claiming) ∧
    (after .beaconTick (card 5 {} [])).tq.net = {} := by decide +kernel
/-- The lamplighter's BEACON goes out on every span that is up. -/
theorem test_beacon_tick : let s := (flds [(Pg.tq, Fld.TQ_ELECT_LAMPLIGHTER, 1), (Pg.tq, Fld.TQ_NODE_NET_STATE, 3)] (card 0x00010E21 {} []))
    s.lamplighter = true ∧ s.manual = false ∧ s.spanUp 2 = true ∧ (s.span 2).wait = [] ∧ (s.span 2).replay = [] ∧
    (let t := after .beaconTick s; t.out.length = 1 ∧ (t.span 2).txSeq = 1 ∧ ((t.span 2).replay.map fun e => e.2.typ) = [0x25]) := by decide +kernel
def rep : Report := ⟨clA.2, clC.2, 4, 2, 0, false⟩
/-- C as lamplighter hears A's report; 1 ms later C has ID 0, A ID 1 (the example's result); ASSIGN, TOPO and the announcing BEACON bring A to RUNNING. -/
def lampC (n : Net) (m : List (Nat × CtMsg)) (st : Nat) : State := flds [(Pg.tq, Fld.TQ_ELECT_LAMPLIGHTER, 1), (Pg.tq, Fld.TQ_NODE_NET_STATE, st)] (card 0x00010E21 n m)
theorem test_epoch :
    (let t := after (.report 2 rep) (lampC {} [(2, .report rep)] 2); t.tq.net.reports = [rep] ∧ t.tq.net.changed = true ∧ mget t.tq.net.child clA.2.toNat = some 2) ∧
    (after (.join 2 rep) (lampC {} [(2, .join rep)] 2)).tq.net.reports = [rep] ∧ (after (.join 2 rep) (card 7 {} [(2, .join rep)])).tq.net.reports = [] ∧
    (let t := after .reportQuiet (lampC { leader := some clC, reports := [rep], child := [(clA.2.toNat, 2)] } [] 2)
     t.nodeId = 0 ∧ t.nodeValid = true ∧ mget t.tq.net.ids clA.2.toNat = some 1 ∧ t.netState = 3 ∧ t.tq.net.epoch = 1 ∧ t.tq.net.edges = [(0, 1)]) ∧
    (after .epochTimer (lampC { reports := [rep], changed := true, epoch := 8 } [] 3)).tq.net.epoch = 9 ∧
    (let t := after (.linkdown 1 0 4) (lampC { reports := [rep], ids := [(clC.2.toNat, 0), (clA.2.toNat, 1)] } [(2, .linkdown 1 0 4)] 3); t.tq.net.reports = [] ∧ t.tq.net.changed = true) ∧
    (after (.idFreeTimer 3) (card 5 { lost := [2, 3] } [])).tq.net.lost = [2] ∧
    (let t := after (.assign 2 clA.2 1) (card 0x000300C5 {} [(2, .assign clA.2 1)]); t.nodeId = 1 ∧ t.nodeValid = true ∧ t.tq.net.bound = some 1) ∧
    (after (.assign 2 clC.2 1) (card 0x000300C5 {} [(2, .assign clC.2 1)])).nodeValid = false ∧
    (after (.topo 2 1 [(0, 1)]) (card 0x000300C5 {} [(2, .topo 1 [(0, 1)])])).tq.net.edges = [(0, 1)] := by decide +kernel
theorem test_hello : let h : Hello := ⟨clC.2, 31, 0, 0, 0x3FFF, true⟩
    let t := after (.hello 2 h) (card 0x000300C5 {} [(2, .hello h)])
    t.fld (Pg.span 2) Fld.SPAN_SP_NBR_VALID = 1 ∧ t.fld (Pg.span 2) Fld.SPAN_SP_NBR_NODE = 0x3FFF ∧ t.fld (Pg.span 2) Fld.SPAN_SP_NBR_SPAN = 31 ∧ mget t.tq.net.nbrSerial 2 = some clC.2 ∧
    (let s := flds [(Pg.tq, Fld.TQ_ELECT_MANUAL, 1)] (card 5 {} [(2, .hello h)]); s.manual = true ∧ (after (.hello 2 h) s).out = s.out) := by decide +kernel
/-- Manual operation (R349): the last entry's index wraps; NODE sets RUNNING and idle. -/
theorem test_manual : let s := flds [(Pg.tq, Fld.TQ_ELECT_MANUAL, 1), (Pg.tq, Fld.TQ_RT_IDX_INDEX, 16383), (Pg.tq, Fld.TQ_RT_IDX_AUTOINC, 1)] (spanIn 2 {})
    takes s 1 Pg.tq Reg.TQ_NODE 0x80000123 = true ∧ takes s 1 Pg.tq Reg.TQ_NODE 0 = true ∧ takes s 1 Pg.tq Reg.TQ_RT_DATA 0x17 = true ∧ takes s 1 Pg.tq Reg.TQ_RT_DATA 0x1F = true ∧ s.pathRd 1 = true ∧
    (let t := after (.nodeWrite 1 0x80000123) s; t.nodeId = 0x123 ∧ t.netState = 3 ∧ t.fld Pg.tq Evt.TQ_RUNNING = 1) ∧
    (after (.nodeWrite 1 0) (flds [(Pg.tq, Fld.TQ_NODE_VALID, 1), (Pg.tq, Fld.TQ_NODE_NET_STATE, 3)] s)).netState = 0 ∧
    (let t := after (.rtData 1 (some 0x17)) s; mgetD 0x1E t.tq.routes 16383 = 0x17 ∧ t.fld Pg.tq Fld.TQ_RT_IDX_INDEX = 0) ∧
    (after (.rtData 1 none) s).fld Pg.tq Fld.TQ_RT_IDX_INDEX = 0 := by decide +kernel

/-! ### Clocks (statements of chapter 15) -/

/-- The DPLL in a mode on timing lane `ref`, the master on REFA (present); candidates 2 (priority 5), 5 and 7 (priority 1); all valid; `qual` the qualified ones. -/
def dpll (mode ref qual : Nat) (l : List (Nat × Fld × Nat)) : State :=
  let s := flds ([(Pg.clkRef, Fld.REF_DPLL_STAT_MODE, mode), (Pg.clkRef, Fld.REF_DPLL_STAT_REF, ref), (Pg.clkRef, Fld.REF_REF_STAT_REFA_VALID, 1), (Pg.clkRef, Fld.REF_REF_STAT_REFA_FREQ, 2),
    (Pg.clkRef, ⟨Reg.REF_REF_PRIO, 0, 32⟩, 0x10100500), (Pg.clkRef, Fld.REF_REF_STAT_LANE_VALID, 0xFF), (Pg.clkRef, Fld.REF_REF_STAT_LANE_QUAL, qual)] ++ l) (locked Pg.clkRef (locked Pg.clkCtl (locked Pg.clkMl user)))
  { s with boot := { s.boot with refsUp := true } }
def md (s : State) : Nat × Nat := (s.dpllMode, s.dpllRef)
/-- R358: the higher priority (1 before 5), the lower j among equals, no switch without REVERT. -/
theorem test_qualify : (dpll 1 15 0 []).refPrio 7 = 1 ∧ (dpll 1 15 0 []).refPrio 2 = 5 ∧ (dpll 1 15 0 []).clk.released = false ∧
    md (after (.referenceQualified 7) (dpll 1 15 0 [])) = (2, 7) ∧ md (after (.referenceQualified 7) (dpll 4 15 0x24 [])) = (2, 5) ∧
    md (after (.referenceQualified 5) (dpll 3 2 0x04 [])) = (3, 2) ∧ md (after (.referenceQualified 5) (dpll 3 2 0x04 [(Pg.clkRef, Fld.REF_DPLL_CTRL_REVERT, 1)])) = (2, 5) ∧
    md (after (.referenceQualified 5) (dpll 3 7 0x80 [(Pg.clkRef, Fld.REF_DPLL_CTRL_REVERT, 1)])) = (2, 5) := by decide +kernel
theorem test_qualification_loss : md (after (.qualificationLoss 7) (dpll 3 7 0x80 [])) = (4, 15) ∧ (after (.qualificationLoss 7) (dpll 3 7 0x80 [])).fld Pg.clkRef (Fld.PG_TRB_CNT 2) = 1 ∧
    md (after (.qualificationLoss 7) (dpll 3 7 0xA4 [])) = (2, 5) ∧ md (after .acquireComplete (dpll 2 7 0x80 [])) = (3, 7) := by decide +kernel
theorem test_release : let s := dpll 3 7 0x80 []
    takes s 1 Pg.clkRef Reg.REF_DPLL_CTRL (ffs s Pg.clkRef Reg.REF_DPLL_CTRL [(Fld.REF_DPLL_CTRL_TO_MASTER, 1)]) = true ∧ (let t := after (.toMaster 1) s; md t = (1, 15) ∧ t.clk.released = true) ∧
    takes s 1 Pg.clkRef Reg.REF_REF_PRIO 0 = true ∧ md (after (.refPrioWrite 1 0) s) = (1, 15) ∧
    takes s 1 Pg.clkRef Reg.REF_REF_PRIO 0x00000500 = true ∧ md (after (.refPrioWrite 1 0x00000500) s) = (4, 15) ∧
    md (after (.refPrioWrite 1 0x30000000) (dpll 1 15 0x80 [])) = (2, 7) ∧ (after (.refPrioWrite 1 0x500) s).refQual 7 = false := by decide +kernel
theorem test_clock_loss : let s := dpll 3 7 0x80 []
    (after (.clockLoss .osc) s).fld Pg.clkCtl Fld.CLK_MUX_STAT_RO_SEL = 1 ∧ (let t := after (.clockLoss (.recov 7)) s; md t = (4, 15) ∧ t.fld Pg.clkRef (Fld.PG_TRB_CNT 0) = 1) ∧
    (after (.clockLoss .sysref) s).clk.lost = true ∧ s.refPresent 0 = true ∧
    (let t := after (.clockLoss .refA) s; md t = (0, 15) ∧ t.clk.lost = true ∧ t.fld Pg.clkRef (Fld.PG_TRB_CNT 1) = 1 ∧ t.refPresent 0 = false) ∧
    (let b := [(Pg.clkRef, Fld.REF_REF_STAT_REFB_VALID, 1), (Pg.clkRef, Fld.REF_REF_STAT_REFB_FREQ, 1)]
     (let t := after (.clockLoss .refB) (dpll 3 7 0x80 b); md t = (3, 7) ∧ t.refPresent 1 = false) ∧
     (let t := after (.clockLoss .refA) (dpll 3 7 0x80 ((Pg.clkCtl, Fld.CLK_MUX_CTRL_AUTO_FORCE, 1) :: b)); md t = (3, 7) ∧ t.fld Pg.clkCtl Fld.CLK_MUX_STAT_MX0_SRC = 1 ∧ t.clk.lost = false) ∧
     (let t := after (.clockLoss .refA) (dpll 3 7 0x80 ((Pg.clkCtl, Fld.CLK_MUX_CTRL_AUTO_FORCE, 0) :: b))
      t.clk.lost = true ∧ t.fld Pg.clkCtl Fld.CLK_MUX_STAT_MX0_HUNG = 1 ∧ t.refPermitted 1 = true ∧
      (let u := locked Pg.clkCtl t
       takes u 1 Pg.clkCtl Reg.CLK_MUX_CTRL (ffs u Pg.clkCtl Reg.CLK_MUX_CTRL [(Fld.CLK_MUX_CTRL_MX0_FORCE, 1)]) = true ∧
       (let v := after (.mx0Force 1) u; v.clk.lost = false ∧ v.fld Pg.clkCtl Fld.CLK_MUX_STAT_MX0_SRC = 1 ∧ v.fld Pg.clkCtl Fld.CLK_MUX_STAT_MX0_HUNG = 0 ∧ v.fld Pg.clkCtl (Fld.PG_TRB_CNT 0) = 1) ∧
       (let v := after (.mx0Force 1) { u with clk.failed := true, clk.safeStep := 1, regs := (u.setLoopState 63 3).regs }; v.clk.safeStep = 2 ∧ u.bestRef = some 7 ∧ md v = (2, 7) ∧ v.loopState 63 = 1)))) := by decide +kernel
/-- OSC_DLY has elapsed; both inputs are absent, or only REFA. -/
theorem test_references : State.reset.boot.held = 0 ∧ State.reset.boot.refsUp = false ∧
    (let s := flds [(Pg.clkRef, Fld.REF_REF_STAT_REFA_VALID, 0)] (dpll 0 15 0 []); s.refPresent 0 = false ∧ s.refPresent 1 = false ∧ s.boot.held = 0) ∧
    (let s := dpll 1 15 0 []; s.refPresent 0 = true ∧ s.refPresent 1 = false ∧ s.clk.lost = false) := by decide +kernel

/-- Loop 40 (LAN08's) in a state. -/
def loopIn (st on rel : Nat) : State := flds [(Pg.clkMl, Fld.ML_STAT_STATE 40, st), (Pg.clkMl, Fld.ML_CFG_ON 40, on), (Pg.clkMl, Fld.ML_STAT_RELOCKS 40, rel)] (dpll 1 15 0 [])
def mlOn (s : State) (n : Nat) : Word := ffs s Pg.clkMl (Reg.ML_CFG 40) [(Fld.ML_CFG_ON 40, n)]
theorem test_clock_loops : takes (loopIn 0 0 0) 1 Pg.clkMl (Reg.ML_CFG 40) (mlOn (loopIn 0 0 0) 1) = true ∧ (after (.loopOn 1 40) (loopIn 0 0 0)).loopState 40 = 1 ∧
    takes (loopIn 2 1 0) 1 Pg.clkMl (Reg.ML_CFG 40) (mlOn (loopIn 2 1 0) 0) = true ∧ (after (.loopOff 1 40) (loopIn 2 1 0)).loopState 40 = 0 ∧
    (let s := flds [(Pg.lan 8, Fld.LAN_LAN_STAT_PWR, 1)] (loopIn 2 1 0)
     s.loopBusy 40 = some (7, 8) ∧ s.reaches 1 Pg.clkMl = true ∧ s.writeReason 1 Pg.clkMl (Reg.ML_CFG 40) 0xF (mlOn s 0) = some rCHILD ∧
     (let t := after (.loopOff 1 40) s; t.loopState 40 = 2 ∧ t.fld Pg.clkCtl Fld.CLK_GATE_BUSY_KIND = 7 ∧ t.fld Pg.clkCtl Fld.CLK_GATE_BUSY_INDEX = 8)) ∧
    (after (.loopLocked 40) (loopIn 1 1 2)).loopState 40 = 2 ∧
    (let t := after (.loopLockLoss 40) (loopIn 2 1 0); t.loopState 40 = 1 ∧ t.fld Pg.clkMl (Fld.PG_TRB_CNT 0) = 1) ∧
    (let t := after (.loopLockLoss 40) (loopIn 1 1 1); t.loopState 40 = 1 ∧ t.fld Pg.clkMl (Fld.ML_STAT_RELOCKS 40) = 2) ∧
    (let t := after (.loopLockLoss 40) (loopIn 1 1 2); t.loopState 40 = 4 ∧ (t.reg Pg.alm Reg.ALM_ALM_SUM).getLsbD 8 = true) := by decide +kernel
/-- Clock regions 0 and 15 of die 0: 15 is closed; region 0 has a live child on branch 31. -/
def gates : State := let s := flds [(Pg.fabCtl 0, Fld.FABCTL_CREG_GATE_GATE, 0x8000), (Pg.fabCtl 0, Fld.FABCTL_CREG_ACTIVE_ACTIVE, 0x7FFF)] (locked (Pg.fabCtl 0) (dpll 1 15 0 []))
  { s with design.children := [⟨4, 3, 0, 0, 31, true⟩], design.pins := [(pinKey 3 0, ⟨2, 31, .const true, .const true, none⟩)], fab.pins := [(pinKey 3 0, ⟨0, 0, 15⟩)],
           design.cregs := [(0, [.fclk 31])] }
theorem test_gates : let s := gates
    takes s 1 (Pg.fabCtl 0) Reg.FABCTL_CREG_GATE 0x4000 = true ∧ (let t := after (.cregGate 1 0 0x4000) s; t.cregOpen 0 15 = true ∧ t.cregOpen 0 14 = false) ∧
    s.writeReason 1 (Pg.fabCtl 0) Reg.FABCTL_CREG_GATE 0xF 1 = some rCHILD ∧ closeBusy 0x8000 1 16 (s.cregBusy 0) = some (4, 3) ∧
    (let t := after (.cregGate 1 0 1) s; t.cregOpen 0 0 = true ∧ t.fld Pg.clkCtl Fld.CLK_GATE_BUSY_INDEX = 3) ∧
    takes s 1 Pg.clkCtl (Reg.CLK_FDIE_GATE 0) 0x40000000 = true ∧ (after (.fdieGate 1 0 0x40000000) s).fdieOpen 0 30 = false ∧
    s.writeReason 1 Pg.clkCtl (Reg.CLK_FDIE_GATE 0) 0xF 0x80000000 = some rCHILD ∧ closeBusy (s.reg Pg.clkCtl (Reg.CLK_FDIE_GATE 0)).toNat 0x80000000 32 (s.fdieBusy 0) = some (2, 0) ∧
    (after (.fdieGate 1 0 0x80000000) s).fdieOpen 0 31 = true := by decide +kernel
theorem test_wicks : let s : State := { gates with wicks := [.creg 0 15, .fdie 0 30, .lantern 23, .loop 40] }
    s.cregOpen 0 15 = false ∧ s.dieUp 0 = true ∧ (let t := after (.wick (.creg 0 15)) s; t.cregOpen 0 15 = true ∧ t.wicks.length = 3 ∧
      t.cregBusy 0 15 = none ∧ (let u := after (.gateIdleClose (.creg 0 15)) t; u.cregOpen 0 15 = false ∧ u.clk.woken = [])) ∧
    (let s := after (.fdieGate 1 0 0x40000000) s; s.fdieOpen 0 30 = false ∧ (let t := after (.wick (.fdie 0 30)) s; t.fdieOpen 0 30 = true ∧ t.fdieBusy 0 30 = none ∧
      (after (.gateIdleClose (.fdie 0 30)) t).fdieOpen 0 30 = false)) ∧
    (after (.wick (.lantern 23)) (flds [(Pg.lan 23, Fld.LAN_LAN_STAT_PWR, 2)] s)).lanOpen 23 = true ∧ (after (.wick (.loop 40)) s).loopState 40 = 1 ∧
    (after (.wickTimeout (.loop 40)) s).fld Pg.clkCtl (Fld.PG_TRB_CNT 2) = 1 ∧ (after (.wick (.loop 40)) { s with clk.lost := true }).loopState 40 = 0 := by decide +kernel
/-- SYSREF is lost and no master is present; CB135 serves. -/
def lostRef (l : List (Nat × Fld × Nat)) : State := let s := dpll 0 15 0 ([(Pg.clkRef, Fld.REF_REF_STAT_REFA_VALID, 0), (cbPage 135, Fld.CB_CB_STAT_STATE.sh (cbBase 135), 2), (Pg.clkMl, Fld.ML_STAT_STATE 40, 2), (Pg.lane 191, Fld.LN_STAT_STATE, 3)] ++ l)
  { s with clk.lost := true }
theorem test_source_failure : let s := lostRef []
    s.cbServes 135 = true ∧ (after .sourceLossSelfRefresh s).cb 135 Fld.CB_CB_STAT_STATE = 4 ∧ s.chooseMaster = none ∧ s.fld Pg.cfgh Fld.CFGH_H_STAT_STATE ≠ 1 ∧ s.fld Pg.cfgh Fld.CFGH_H_STAT_STATE ≠ 2 ∧
    (let t := after .sourceFailure s; t.fld Pg.clkRef Fld.REF_LOSS_STAT_SAFE = 1 ∧ t.clk.safeStep = 1 ∧ t.loopState 40 = 3 ∧ t.laneState 191 = 1 ∧ t.fld Pg.clkCtl Fld.CLK_MUX_STAT_MX1_SRC = 1 ∧
      (let u := after .safeWaitTimeout t; u.fld Pg.clkRef Fld.REF_LOSS_STAT_LAST_RESET = 1 ∧ u.boot.refsUp = false ∧ u.fld Pg.rst Fld.RST_RST_CAUSE_SYS = 2)) ∧
    (let t := after .sourceFailure (lostRef [(Pg.clkRef, Fld.REF_LOSS_CTRL_ACTION, 1)]); t.fld Pg.clkRef Fld.REF_LOSS_STAT_LAST_RESET = 1 ∧ t.clk.lost = false) := by decide +kernel
theorem test_safe_release : let s : State := { flds [(Pg.clkRef, Fld.REF_LOSS_STAT_SAFE, 1), (Pg.clkRef, Fld.REF_LOSS_CTRL_SAFE_WAIT_S, 1), (Pg.lane 191, Fld.LN_STAT_STATE, 1), (Pg.lane 191, Fld.LN_CTRL_ENABLE, 1)] (dpll 1 15 0 []) with clk.safeStep := 3, laneGroups := 0x800 }
    takes s 1 Pg.clkRef Reg.REF_LOSS_CTRL (ffs s Pg.clkRef Reg.REF_LOSS_CTRL [(Fld.REF_LOSS_CTRL_RELEASE, 1)]) = true ∧
    takes { s with clk.safeStep := 2 } 1 Pg.clkRef Reg.REF_LOSS_CTRL (ffs s Pg.clkRef Reg.REF_LOSS_CTRL [(Fld.REF_LOSS_CTRL_RELEASE, 1)]) = false ∧
    (let t := after (.safeRelease 1) s; t.fld Pg.clkRef Fld.REF_LOSS_STAT_SAFE = 0 ∧ t.laneState 191 = 6) := by decide +kernel
theorem test_skip : let s := loopIn 2 1 0
    takes s 1 Pg.clkMl (Reg.ML_THR 40) 5 = true ∧ (after (.skip 1 40 5) s).fld Pg.clkMl (Fld.ML_THR_SKIP 40) = 5 ∧
    ((List.range 16).filter (edgeKept 5)).length = 11 ∧
    (let t := after (.loopLockLoss 57) (s.setLoopState 57 2); t.loopState 57 = 1 ∧ t.fld Pg.clkCtl Fld.CLK_MUX_STAT_MX1_SRC = 1) := by decide +kernel

/-! ### Start-up, loads, updates (statements of chapter 16) -/

def booted (b : Boot) (l : List (Nat × Fld × Nat)) : State := { flds l State.reset with boot := b }
def cst (n : Nat) : Nat × Fld × Nat := (Pg.cfg, Fld.CFG_CFG_STAT_STATE, n)
theorem test_power_on : (after .auxPowerUp (booted { held := 5 } [])).boot.held = 1 ∧
    (let t := after (.powerOnResetRelease 3 6) (booted { held := 1, resetLow := true } []); t.boot.held = 2 ∧ t.fld Pg.cfg Fld.CFG_STRAP_BAD = 1 ∧ t.fld Pg.clkRef Fld.REF_STRAP_BAD = 1) ∧
    (let t := after (.powerOnResetRelease 0 5) (booted { held := 1 } []); t.boot.held = 0 ∧ t.fld Pg.clkRef Fld.REF_STRAP_BAD = 0 ∧ t.laneState 0 = 1 ∧ t.laneState 191 = 1) ∧
    (let t := after .resetNRelease (booted { held := 2, resetLow := true } []); t.boot.held = 0 ∧ t.laneState 191 = 1) := by decide +kernel
/-- LAN05's record: array 3 (lantern memory) instance 5; its spare. -/
def memf : MemFail := ⟨BitVec.ofNat 64 (3 * 2 ^ 60 + 5 * 2 ^ 52), true⟩
theorem test_bist : (let t := after .bootBist (booted { refsUp := true } []); t.cfgState = 1 ∧ t.boot.taper = some 0) ∧
    (after (.taperEnd [] []) (booted { taper := some 3, full := true } [cst 1])).boot.taper = some 4 ∧ (after (.taperEnd [] []) (booted { taper := some 2 } [cst 1])).boot.taper = some 3 ∧
    recordUnit (fieldOf memf.bits 60 4) (fieldOf memf.bits 52 7) = .lantern 5 ∧ (TestUnit.lantern 5).inTaper 2 = true ∧ repValid (recordEntry memf.bits) = true ∧
    (let t := after (.taperEnd [] [memf]) (booted { taper := some 2 } [cst 1]); t.integ.applied = [recordEntry memf.bits] ∧ t.boot.repaired = true ∧ t.fld Pg.bist (Fld.PG_TRB_CNT 1) = 1) ∧
    (let t := after (.taperEnd [] []) (booted { taper := some 3 } [cst 1]); t.boot.bistDone = true ∧ t.fld Pg.bist Fld.BIST_BOOT_STAT_RESULT = 1) ∧
    (let t := after (.taperEnd [] []) (booted { taper := some 4, full := true, repaired := true } [cst 1, (Pg.cfg, Fld.CFG_STRAP_BOOT_SRC, 1)]); t.fld Pg.bist Fld.BIST_BOOT_STAT_RESULT = 2 ∧ t.cfgState = 4) ∧
    (TestUnit.lantern 23).inTaper 3 = true ∧ (TestUnit.die 7).inTaper 3 = true ∧
    (let t := after (.taperEnd [.lantern 23] []) (booted { taper := some 3 } [cst 1]); (t.fld Pg.bist Fld.BIST_FAIL_LAN_LAN).testBit 23 = true ∧ t.boot.held = 0 ∧ t.fld Pg.bist Fld.BIST_BOOT_STAT_RESULT = 3) ∧
    (let t := after (.taperEnd [.die 7] []) (booted { taper := some 3 } [cst 1]); t.boot.held = 4 ∧ t.cfgState = 8) := by decide +kernel
/-- Loading from a blank NV store: the header of bank 0 fails with reason 0x01; bank 1 is next; with its sector listed it is not read (0x10). -/
def bisted (l : List (Nat × Fld × Nat)) (tried : List Nat) : State := booted { bistDone := true, refsUp := true, tried } (cst 1 :: l)
theorem test_image_load : (bisted [] []).banksLeft = [0, 1] ∧ (bisted [] [1]).banksLeft = [1] ∧ (bisted [] []).badSectors = [] ∧
    (let t := after .imageLoad (bisted [] []); t.fld Pg.cfg Fld.CFG_LOAD_ERR_SOURCE = 1 ∧ t.fld Pg.cfg Fld.CFG_LOAD_ERR_REASON = 0x01 ∧ t.cfgState = 2 ∧ t.boot.tried = [1] ∧ t.fld Pg.cfg (Fld.PG_TRB_CNT 0) = 1) ∧
    (let s := bisted [(Pg.nvs, Fld.NVS_INV_SECT_VALID 15, 1), (Pg.nvs, Fld.NVS_INV_SECT_SECTOR 15, 0x0F30)] [1]
     s.badSectors = [0x0F30] ∧ sectorIn 1 0x0F30 = true ∧ sectorIn 0 0x0F30 = false ∧
     (let t := after .imageLoad s; t.fld Pg.cfg Fld.CFG_LOAD_ERR_REASON = 0x10 ∧ t.cfgState = 7 ∧ t.banksLeft = [])) := by decide +kernel
/-- The bytes of numbers at offsets, in a header of 4,096 bytes. -/
def hdr (l : List (Nat × Nat × Nat)) : List Byte := (List.range 0x1000).map fun i =>
  match l.find? fun e => decide (e.1 ≤ i) && decide (i < e.1 + e.2.1) with | some e => BitVec.ofNat 8 (e.2.2 / 256 ^ (i - e.1)) | none => 0
/-- A header that Tables 16.6 to 16.8 allow: RESOURCES, an empty REGS section, FIRMWARE of 64 bytes; the owner key is the digest of 96 zero bytes. -/
def goodHdr : List Byte := hdr [(0, 4, 0x49395653), (4, 2, 1), (6, 2, 0x1000), (8, 1, State.reset.fld Pg.dev0 Fld.DEV0_PART_ID_FAMILY), (9, 1, State.reset.fld Pg.dev0 Fld.DEV0_PART_ID_MEMBER),
  (0xA, 1, 1), (0xC, 4, 0x1100), (0x15, 1, 3), (0x100, 16, 1 + 0xFF * 256 + 0x1000 * 2 ^ 32 + 32 * 2 ^ 64), (0x110, 16, 2 + 0xFF * 256 + 0x1040 * 2 ^ 32), (0x120, 16, 3 + 0xFF * 256 + 0x1040 * 2 ^ 32 + 64 * 2 ^ 64)]
def ownerSt : State :=
  let d := sha384 (List.replicate 96 0)
  let s := (List.range 12).foldl (fun (s : State) w => s.setReg Pg.cfg (0x100 + 4 * w) (BitVec.ofNat 32 (bytesNat ((d.drop (4 * w)).take 4)))) State.reset
  flds [(Pg.cfg, Fld.CFG_SEC_STAT_PROGRAMMED, 1)] s
theorem test_header : ownerSt.headerError false goodHdr = none ∧ (ownerSt.imageOf 1 goodHdr).sectionError false goodHdr = none ∧
    ownerSt.headerError false (goodHdr.set 0xC 1) = some (0x05, 0xC) ∧ ownerSt.headerError true goodHdr = some (0x04, 0xB) ∧
    ownerSt.headerError false (goodHdr.set 0x40 1) = some (0x07, 0x40) ∧ (ownerSt.imageOf 1 (goodHdr.set 0x110 1)).sectionError false (goodHdr.set 0x110 1) = some 1 := by decide +kernel
/-- An image under load: verdict v. -/
def img (src v : Nat) : Image := ⟨src, 0x1100, 0, 0xABCD, 0, 0, 0, none, 0, [], 0x1, [], true, v⟩
theorem test_load_verify : (booted { loading := some (img 1 0) } [cst 2]).copyEnded = true ∧
    (let t := after .loadVerify (booted { loading := some (img 1 0) } [cst 2, (Pg.cfg, Fld.CFG_DONE_CTRL_MODE, 1)]); t.cfgState = 3 ∧ t.boot.verified = true ∧ t.boot.localDone = true) ∧
    (let t := after .loadVerify (booted { loading := some (img 3 0x0D), last := true } [cst 2]); t.cfgState = 4 ∧ t.fld Pg.cfg Fld.CFG_LOAD_ERR_REASON = 0x0D ∧ t.boot.loading = none) := by decide +kernel
def verified (l : List (Nat × Fld × Nat)) (dn : Bool) : State := booted { loading := some (img 2 0), verified := true, tried := [1], localDone := dn } (cst 3 :: l)
theorem test_firmware : (after (.firmwareStart 0x0105) (verified [] false)).fld Pg.mbx Fld.MBX_MBX_INFO_VERSION = 0x0105 ∧
    (let t := after .firmwareTimeout (verified [] false); t.fld Pg.cfg Fld.CFG_LOAD_ERR_REASON = 0x12 ∧ t.fld Pg.cfg Fld.CFG_LOAD_ERR_SOURCE = 2) := by decide +kernel
/-- Every die but die 7, every lantern and quad is marked, no controller. -/
def imgDone : Image := { img 2 0 with resources := BitVec.ofNat 256 (2 ^ 88 - 1 - 2 ^ 7) }
def toDone (dn : Bool) : State := booted { loading := some imgDone, verified := true, tried := [1], localDone := dn } [cst 3, (Pg.mbx, Fld.MBX_MBX_INFO_FW_RUN, 1)]
theorem test_done_local : (toDone true).readyForDone = true ∧
    (let t := after .doneRelease (toDone true); t.cfgState = 6) := by decide +kernel
theorem test_done_dies : let t := after .doneRelease (toDone false)
    t.fld (Pg.fabCtl 0) Fld.FABCTL_DIE_STAT_PWR_STATE = 3 ∧ t.fld (Pg.fabCtl 7) Fld.FABCTL_DIE_STAT_PWR_STATE = 0 ∧ t.cfgState = 5 ∧ t.fld Pg.cfg Fld.CFG_CFG_STAT_FALLBACK = 1 ∧ t.reg Pg.cfg Reg.CFG_IMAGE_ID = 0xABCD := by decide +kernel
def atDone : State := booted {} [cst 5, (Pg.cfg, Fld.CFG_CFG_STAT_DONE_OUT, 1)]
theorem test_done_line : atDone.pinTest = false ∧ (let u := after .doneHigh atDone; u.cfgState = 6 ∧ u.fld Pg.cfg Fld.CFG_CFG_STAT_USER_EN = 1 ∧ u.userOn = true) ∧
    (let s := flds [cst 6, (Pg.cfg, Fld.CFG_CFG_STAT_USER_EN, 1), (Pg.cfg, Fld.CFG_CFG_STAT_DONE_IN, 1)] atDone
     s.userOn = true ∧ (after .doneLow s).cfgState = 6 ∧ (after .doneLow s).fld Pg.cfg (Fld.PG_TRB_CNT 3) = 1 ∧ (after .doneHigh s).cfgState = 6) ∧
    (let u := after .doneWaitTimeout (flds [(Pg.cfg, Fld.CFG_DONE_CTRL_WAIT_MS, 1)] atDone); u.boot.doneWait = true ∧ u.fld Pg.cfg Evt.CFG_DONE_WAIT = 1) := by decide +kernel

/-- A host load that receives; agent 0x08 is the host's function of the device's own pages, 2 the controller. -/
def hostLd (b : Boot) (st : Nat) (rdy : Nat) : State := locked Pg.cfgh (booted b [cst 4, (Pg.cfgh, Fld.CFGH_H_STAT_STATE, st), (Pg.cfgh, Fld.CFGH_H_STAT_READY, rdy), (Pg.cfgh, Fld.CFGH_H_STAT_ACK_SEQ, 255)])
def hctl (f : Fld) : Word := ffs (hostLd {} 0 0) Pg.cfgh Reg.CFGH_H_CTRL [(f, 1)]
theorem test_host_load : takes (hostLd {} 4 0) 1 Pg.cfgh Reg.CFGH_H_CTRL (hctl Fld.CFGH_H_CTRL_START) = true ∧
    (let t := after (.hostLoadStart 1) (hostLd {} 4 0); t.cfgState = 2 ∧ t.fld Pg.cfgh Fld.CFGH_H_STAT_STATE = 1 ∧ t.fld Pg.cfgh Fld.CFGH_H_STAT_READY = 1) ∧
    (let v : Word := withFlds 0 [(Fld.CFGH_H_DOORBELL_LEN, 2048), (Fld.CFGH_H_DOORBELL_LAST, 1), (Fld.CFGH_H_DOORBELL_SEQ, 0)]
     takes (hostLd {} 1 1) 1 Pg.cfgh Reg.CFGH_H_DOORBELL v = true ∧ (after (.hDoorbell 1 v) (hostLd {} 1 1)).boot.chunk = some (2048, true)) ∧
    (let t := after .chunkConsumed (hostLd { chunk := some (8, false), hbuf := [(0, 0x04030201)] } 1 0)
     t.boot.stream = [1, 2, 3, 4, 0, 0, 0, 0] ∧ t.fld Pg.cfgh Fld.CFGH_H_STAT_ACK_SEQ = 0 ∧ t.fld Pg.cfgh Fld.CFGH_H_STAT_READY = 1) ∧
    (let t := after .chunkConsumed (hostLd { chunk := some (8, true) } 1 0); t.fld Pg.cfgh Fld.CFGH_H_STAT_STATE = 4 ∧ t.fld Pg.cfg Fld.CFG_LOAD_ERR_REASON = 0x10) ∧
    takes (hostLd {} 1 1) 1 Pg.cfgh Reg.CFGH_H_CTRL (hctl Fld.CFGH_H_CTRL_ABORT) = true ∧ (after (.hostLoadAbort 1) (hostLd {} 1 1)).fld Pg.cfgh (Fld.PG_TRB_CNT 1) = 1 ∧
    (after .hostLoadTimeout (hostLd {} 1 1)).fld Pg.cfgh Fld.CFGH_H_STAT_STATE = 4 := by decide +kernel

/-- Region 31 of die 0 in slots 3 and 31; a frame of slot 31 holds data. -/
def prSt (p : Option PartLoad) (phase : Nat) : State :=
  let s := flds [(Pg.cfg, Fld.CFG_PR_STAT_PHASE, phase), (Pg.cfg, Fld.CFG_PR_STAT_BUSY, if phase = 0 then 0 else 1), (Pg.cfg, Fld.CFG_PR_SRC_LO_BITS, 0x40)] (locked Pg.cfg user)
  { s with boot.part := p, design.regions := [(0, 31, 3), (0, 31, 31)], integ.frames := [(frameKey 0 (31 * 4096), 5)] }
def prV (f : Fld) : Word := withFlds (withFlds 0 [(Fld.CFG_PR_CTRL_REGION, 31)]) [(f, 1)]
def pl (x : Option Image) : PartLoad := ⟨0x40, 0, 31, [], x, false, true⟩
theorem test_partial : (prSt none 0).regionSlots 0 31 = [3, 31] ∧ fieldOf (prV Fld.CFG_PR_CTRL_START) 0 5 = 31 ∧ fieldOf (prV Fld.CFG_PR_CTRL_START) 5 3 = 0 ∧
    takes (prSt none 0) 1 Pg.cfg Reg.CFG_PR_CTRL (prV Fld.CFG_PR_CTRL_START) = true ∧
    (let t := after (.partialLoad 1 (prV Fld.CFG_PR_CTRL_START)) (prSt none 0)
     t.regSlot 0 31 = 2 ∧ t.fld Pg.cfg Fld.CFG_PR_STAT_PHASE = 2 ∧ (t.epQ (ifKey 58 0) (t.queueOf 58 0 .rd 0x40)).map (fun e => e.r.addr) = [0x40]) ∧
    takes (prSt none 0) 1 Pg.cfg Reg.CFG_PR_CTRL (prV Fld.CFG_PR_CTRL_CLEAR) = true ∧
    (let t := after (.prClear 1 (prV Fld.CFG_PR_CTRL_CLEAR)) (prSt none 0); t.regSlot 0 3 = 4 ∧ t.regSlot 0 31 = 4 ∧ t.integ.frames = []) ∧
    (let s := prSt (some (pl none)) 2
     takes s 1 Pg.cfg Reg.CFG_PR_CTRL (ffs s Pg.cfg Reg.CFG_PR_CTRL [(Fld.CFG_PR_CTRL_ABORT, 1)]) = true ∧
     (let t := after (.partialAbort 1) s; t.boot.part = none ∧ t.fld Pg.cfg Fld.CFG_PR_STAT_RESULT = 3 ∧ t.regSlot 0 31 = 4)) ∧
    (let t := after .partialLoadVerify (prSt (some (pl (some (img 4 0)))) 2); t.regSlot 0 31 = 3 ∧ t.fld Pg.cfg Fld.CFG_PR_STAT_PHASE = 4) ∧
    (let t := after .partialLoadVerify (prSt (some (pl (some (img 4 0x0E)))) 2); t.regSlot 0 31 = 4 ∧ t.fld Pg.cfg Fld.CFG_LOAD_ERR_REASON = 0x0E ∧ t.fld Pg.cfg Fld.CFG_PR_STAT_RESULT = 2) ∧
    (let t := after .releaseDelayEnd (prSt (some (pl (some (img 4 0)))) 4); t.regSlot 0 31 = 1 ∧ t.fld Pg.cfg Fld.CFG_PR_STAT_RESULT = 1) := by decide +kernel

/-- Updates: bank 1 is spare; UPD_STAT in a state. -/
def updSt (st busy : Nat) : State := flds [(Pg.nvs, Fld.NVS_UPD_STAT_STATE, st), (Pg.nvs, Fld.NVS_UPD_STAT_BUSY, busy), (Pg.nvs, Fld.NVS_UPD_STAT_BANK, 1), (Pg.cfg, Fld.CFG_CFG_STAT_SOURCE, 1)] (locked Pg.nvs user)
def updV (f : Fld) : Word := withFlds 0 [(Fld.NVS_UPD_CTRL_BANK, 1), (f, 1)]
theorem test_updates : takes (updSt 0 0) 1 Pg.nvs Reg.NVS_UPD_CTRL (updV Fld.NVS_UPD_CTRL_OPEN) = true ∧ (after (.nvOpen 1 (updV Fld.NVS_UPD_CTRL_OPEN)) (updSt 0 0)).updState = 1 ∧
    (updSt 0 0).bankProtected 1 = false ∧ (updSt 0 0).bankProtected 0 = true ∧
    takes (updSt 1 0) 1 Pg.nvs Reg.NVS_UPD_CTRL (ffs (updSt 1 0) Pg.nvs Reg.NVS_UPD_CTRL [(Fld.NVS_UPD_CTRL_CLOSE, 1)]) = true ∧ (after (.nvClose 1) (updSt 1 0)).updState = 0 ∧
    takes (updSt 0 0) 1 Pg.nvs Reg.NVS_UPD_CTRL (updV Fld.NVS_UPD_CTRL_VERIFY) = true ∧ (after (.nvVerify 1 (updV Fld.NVS_UPD_CTRL_VERIFY)) (updSt 0 0)).updState = 2 ∧
    takes (updSt 3 0) 1 Pg.nvs Reg.NVS_UPD_CTRL (updV Fld.NVS_UPD_CTRL_FLIP) = true ∧
    (let t := after (.nvFlip 1 (updV Fld.NVS_UPD_CTRL_FLIP)) (updSt 3 0)
     t.updState = 4 ∧ t.nv.flip = some (ptrOff 0, ptrLine 1 1) ∧
     (let u := after (.nvFlipEnd true) t; u.updState = 0 ∧ u.ptrAt 0 = some (1, 1) ∧ u.fld Pg.nvs Fld.NVS_PTR_STAT_ACTIVE = 1) ∧ (after (.nvFlipEnd false) t).nv.flip = none) := by decide +kernel
/-- A check of the blank bank finds reason 0x01. -/
theorem test_verify_end : let t := after .nvVerifyEnd (updSt 2 1); t.updState = 0 ∧ t.fld Pg.nvs Fld.NVS_UPD_STAT_RESULT = 2 ∧ t.fld Pg.nvs Fld.NVS_UPD_STAT_REASON = 0x01 := by decide +kernel
/-- Full lines at the two ends of bank 1 and its auxiliary half (the window's halves 0 and 1). -/
def nvw (st half : Nat) (addr : Nat) (progs : List NvProg) : State :=
  let s := (flds [(Pg.nvs, Fld.NVS_WIN_SEL_HALF, half)] (updSt st 0)).setTxn tk { tx .wr (BitVec.ofNat 48 addr) 0 .delivered with dst := 58, dstIf := 1 }
  { s with nv.progs := progs }
theorem test_nv_window : (let t := after (.nvWindowWrite tk) (nvw 0 0 0x0F300000 []); phaseOf t tk = some (.answered .busError 0) ∧ t.fld Pg.nvs (Fld.PG_TRB_CNT 3) = 1) ∧
    bankOf 0x0F300000 = some 1 ∧ bankOf 0x0F2FFFC0 = some 0 ∧ bankOf 0x1E5FFFC0 = some 1 ∧ bankOf 0x1E600000 = some 0 ∧ bankOf 0x1F280000 = some 1 ∧ bankOf 0x1FF00000 = none ∧
    (after (.nvWindowWrite tk) (nvw 1 0 0x0F300000 [])).nv.progs.map NvProg.block = [0x0F300000 / 64] ∧
    (after (.nvWindowWrite tk) (nvw 1 1 0x0E5FFFC0 [])).nv.progs.map NvProg.block = [0x1E5FFFC0 / 64] ∧
    (let p : NvProg := ⟨tk, 0x0F300000 / 64, 0xAB⟩
     let t := after (.blockProgramEnd tk true) (nvw 1 0 0x0F300000 [p])
     phaseOf t tk = some (.answered .ok 0) ∧ (t.nvBlock (0x0F300000 / 64)).data = 0xAB ∧
     phaseOf (after (.blockProgramEnd tk false) (nvw 1 0 0x0F300000 [p])) tk = some (.answered .busError 0)) := by decide +kernel

/-! ### Heat, power, resets, the ember domain (statements of chapter 17) -/

/-- POINT 100 °C (1,600 sixteenths), HYST 5, SKIP_MAX 12; die 7 has power; sensor 127 reads t. -/
def heat (t : Nat) (l : List (Nat × Fld × Nat)) : State := flds ([(Pg.thm, Fld.THM_THR_CTRL_POINT, 100), (Pg.thm, Fld.THM_THR_CTRL_HYST, 5), (Pg.thm, Fld.THM_THR_CTRL_SKIP_MAX, 12),
  (Pg.fabCtl 7, Fld.FABCTL_DIE_STAT_PWR_STATE, 3), (Pg.thm, Fld.THM_TEMP_TEMP 127, t), (Pg.thm, Fld.THM_ZONE_FCLK_FCLK 7, 0x80000000)] ++ l) user
def alert (s : State) (n : Nat) : Bool := (s.reg Pg.pwr Reg.PWR_ALERT_SRC).getLsbD n
theorem test_samples : (heat 0 []).managerRuns = true ∧ (heat 0 []).sensorOn 127 = true ∧ (heat 0 []).sensorOn 111 = false ∧
    (let t := after (.sensorSample [(127, 1600)] [(63, 698)]) (heat 0 [])
     t.temp 127 = 1600 ∧ t.fld Pg.thm Fld.THM_THM_STAT_HOT_IDX = 127 ∧ alert t 0 = true ∧ alert t 1 = false ∧ alert t 2 = true ∧ t.fld Pg.thm (Fld.PG_TRB_CNT 1) = 1) ∧
    (let t := after (.sensorSample [(163, 1520), (127, 0xFFFF)] [(63, 699)]) (heat 0 []); alert t 0 = false ∧ alert t 1 = true ∧ alert t 2 = false ∧ t.temp 127 = -1) ∧
    (after (.sensorSample [(111, 5)] []) (heat 0 [])).temp 111 = 0 ∧ vmonBad 87 2199 = true ∧ vmonBad 87 2200 = false ∧ vmonBad 63 741 = false ∧ vmonBad 63 742 = true := by decide +kernel
/-- Zone 7 (die 7): one step up at POINT, one down below POINT - HYST; fabric loop 31 and lantern loop 55 follow. -/
theorem test_throttle : let up := after (.throttleStep false) (heat 1600 [])
    up.demand 7 = 1 ∧ up.fld Pg.clkMl (Fld.ML_THR_SKIP 31) = 1 ∧ up.fld Pg.clkMl (Fld.ML_THR_SKIP 55) = 1 ∧ up.fld Pg.clkMl (Fld.ML_THR_SKIP 52) = 0 ∧
    (after (.throttleStep false) ((heat 1600 []).setDemand 7 12)).demand 7 = 12 ∧ (after (.throttleStep false) (heat 1599 [])).demand 7 = 0 ∧
    (after (.throttleStep true) ((heat 1519 []).setDemand 7 3)).demand 7 = 2 ∧ (after (.throttleStep true) ((heat 1520 []).setDemand 7 3)).demand 7 = 3 := by decide +kernel
theorem test_backstop : (let t := after .backstop (heat 1680 []); t.fld Pg.thm Fld.THM_THM_STAT_BACKSTOP = 1 ∧ t.demand 8 = 12 ∧ t.fld Pg.clkMl (Fld.ML_THR_SKIP 0) = 12) ∧
    (after .backstop (heat 1679 [])).demand 8 = 0 ∧ (after .backstopClear (heat 1599 [(Pg.thm, Fld.THM_THM_STAT_BACKSTOP, 1)])).fld Pg.thm Fld.THM_THM_STAT_BACKSTOP = 0 ∧
    (after .backstopClear (heat 1600 [(Pg.thm, Fld.THM_THM_STAT_BACKSTOP, 1)])).fld Pg.thm Fld.THM_THM_STAT_BACKSTOP = 1 := by decide +kernel
theorem test_power_loss : (let t := after (.thermalTrip 127 true) (heat 1920 []); t.boot.held = 3 ∧ t.fld Pg.rst Fld.RST_RST_CAUSE_COLD = 2 ∧ (t.ember.log.getLast?).map EmberRec.evt = some 0x0700007F) ∧
    (let t := after (.brownOut .core) (heat 0 []); t.boot.held = 1 ∧ t.fld Pg.rst Fld.RST_RST_CAUSE_COLD = 1 ∧ t.fld Pg.rst Fld.RST_RST_CAUSE_LAST = 1) ∧
    (let t := after (.brownOut (.fab 7)) (heat 0 []); t.fld (Pg.fabCtl 7) Fld.FABCTL_DIE_STAT_PWR_STATE = 0 ∧ t.fld Pg.pwr (Fld.PG_TRB_CNT 2) = 1 ∧ (t.reg Pg.alm Reg.ALM_ALM_SUM).getLsbD 10 = true) ∧
    (after (.brownOut (.other 9)) (heat 0 [])).fld Pg.rst Fld.RST_RST_CAUSE_LAST = State.reset.fld Pg.rst Fld.RST_RST_CAUSE_LAST := by decide +kernel
/-- The running image (of bank 0) marks die 1 and quad 47; die 0 and lantern 0 (STOP05 IF0) run. -/
def dom : State :=
  let s := (flds [(Pg.lan 0, Fld.LAN_LAN_STAT_PWR, 1), (Pg.fabCtl 0, Fld.FABCTL_DIE_STAT_PWR_STATE, 3), (Pg.cfg, Fld.CFG_CFG_STAT_SOURCE, 1)] (locked Pg.pwr user)).setIfState 5 0 1 |>.setIfState 0 0 1
  { s with boot.running := some { img 1 0 with resources := BitVec.ofNat 256 (2 + 2 ^ 87), sections := [⟨4, 1, false, 0x1000, 64, 1⟩] } }
def domV (kind i op : Nat) : Word := withFlds (BitVec.ofNat 32 (kind * 2 ^ 8 + i)) [(Fld.PWR_DOM_CMD_START, 1), (Fld.PWR_DOM_CMD_OP, op)]
theorem test_domains : takes dom 1 Pg.pwr Reg.PWR_DOM_CMD (domV 1 0 0) = true ∧ dom.maySnuff 5 0 = true ∧ lanternAt 0 = (5, 0) ∧ portAt 0 = (0, 0) ∧ dom.maySnuff 0 0 = true ∧
    (let t := after (.domainPowerOff 1 (domV 1 0 0)) dom; t.ifState 5 0 = 3 ∧ t.pwr.cmd = some ⟨1, 0, false⟩ ∧ t.fld Pg.pwr Fld.PWR_DOM_STAT_BUSY = 1) ∧
    takes dom 1 Pg.pwr Reg.PWR_DOM_CMD (domV 0 0 0) = true ∧
    (let t := after (.domainPowerOff 1 (domV 0 0 0)) dom; t.ifState 0 0 = 3 ∧ t.fld (Pg.fabCtl 0) Fld.FABCTL_DIE_STAT_PWR_STATE = 4) := by decide +kernel
/-- Quad 47 on and off; a die whose section's CHECK is wrong stays off with reason 0x09. -/
theorem test_domain_on : takes dom 1 Pg.pwr Reg.PWR_DOM_CMD (domV 2 47 1) = true ∧
    (let t := after (.domainPowerOn 1 (domV 2 47 1)) dom
     t.laneState 191 = 1 ∧ t.fld Pg.pwr Fld.PWR_DOM_STAT_RESULT = 1 ∧ t.laneState 187 = 0) ∧
    (let s := flds [(Pg.lane 188, Fld.LN_STAT_STATE, 1), (Pg.lane 191, Fld.LN_STAT_STATE, 1)] dom
     takes s 1 Pg.pwr Reg.PWR_DOM_CMD (domV 2 47 0) = true ∧ (after (.domainPowerOff 1 (domV 2 47 0)) s).laneState 191 = 0) ∧
    takes dom 1 Pg.pwr Reg.PWR_DOM_CMD (domV 0 1 1) = true ∧
    (let t := after (.domainPowerOn 1 (domV 0 1 1)) dom
     t.fld Pg.pwr Fld.PWR_DOM_STAT_RESULT = 2 ∧ t.fld Pg.pwr Fld.PWR_DOM_STAT_REASON = 0x09 ∧ t.fld (Pg.fabCtl 1) Fld.FABCTL_DIE_STAT_PWR_STATE = 0) := by decide +kernel
theorem test_resets : (let t := after .pinReset (heat 0 []); t.boot.held = 2 ∧ t.boot.resetLow = true ∧ t.fld Pg.rst Fld.RST_RST_CAUSE_LAST = 2) ∧
    (after .pinReset (booted { held := 3 } [])).boot.held = 3 ∧ takes (locked Pg.rst user) 1 Pg.rst Reg.RST_SYS_RESET 0x5EB0 = true ∧
    (let s := locked Pg.rst user; s.reaches 1 Pg.rst = true ∧ s.pathWr 1 = true ∧ s.fld Pg.rst Fld.PG_PG_LOCK_HELD = 1 ∧ s.fld Pg.rst Fld.PG_PG_LOCK_OWNER = 1) ∧
    (let t := after (.sysReset 1 0x5EB0) (locked Pg.rst user); t.boot.held = 0 ∧ t.fld Pg.rst Fld.RST_RST_CAUSE_LAST = 3 ∧ t.laneState 191 = 1) ∧
    (let t := after (.sysReset 1 0x5EB1) (locked Pg.rst user); t.fld Pg.rst Fld.PG_PG_REFUSE_VALID = 1 ∧ t.fld Pg.rst Fld.RST_RST_CAUSE_LAST = 1 ∧ t.fld Pg.rst Fld.PG_PG_REFUSE_OFFSET = Reg.RST_SYS_RESET) := by decide +kernel

def emb (l : List (Nat × Fld × Nat)) : State := let s := flds l (locked Pg.emb (locked Pg.key user)); { s with keys.kek := some 7 }
def evts (s : State) : List Word := s.ember.log.map EmberRec.evt
theorem test_supply : (let t := after (.supplySwitch true 2199) (emb []); t.boot.held = 5 ∧ t.ember.low = true ∧ t.keys.kek = some 7 ∧ evts t = [0x01000000, 0x09000897] ∧ t.fld Pg.rst Fld.RST_RST_CAUSE_COLD = 0) ∧
    (let t := after (.supplySwitch false 2200) (emb []); t.ember.low = false ∧ t.boot.held = 0) ∧ (let t := after (.supplySwitch false 2199) (emb []); alert t 3 = true ∧ evts t = [0x01000000, 0x09000897]) ∧
    (let s : State := { emb [] with boot := { held := 5 }, ember := { onVbat := true } }
     (let t := after .emberStateLoss s; t.keys.kek = none ∧ t.ember.lost = true ∧ (let u := after .emberStart t; u.ember.lost = false ∧ evts u = [0x01000000]))) := by decide +kernel
theorem test_tamper : let s := emb [(Pg.emb, tamperFld 1 Fld.EMB_TAMPER0_CFG_EN, 1), (Pg.emb, tamperFld 1 Fld.EMB_TAMPER0_CFG_ZEROISE, 1)]
    s.tamperEn 1 = true ∧ s.mainPower = true ∧
    s.bit Pg.emb (tamperFld 1 Fld.EMB_TAMPER0_CFG_ZEROISE) = true ∧ s.ember.lost = false ∧
    (let t := after (.tamper 0) (emb [(Pg.emb, tamperFld 0 Fld.EMB_TAMPER0_CFG_EN, 1), (Pg.emb, tamperFld 0 Fld.EMB_TAMPER0_CFG_ZEROISE, 0)])
     t.keys.kek = some 7 ∧ evts t = [0x01000000, 0x02000000] ∧ t.fld Pg.key Fld.KEY_KEK_STAT_ALARM = 1 ∧ alert t 4 = true ∧ t.fld Pg.emb (Fld.PG_TRB_CNT 0) = 1) := by decide +kernel
theorem test_kek : let s := emb []
    let v (f : Fld) := ffs s Pg.emb Reg.EMB_KEK_CTRL [(f, 1)]
    takes s 1 Pg.emb Reg.EMB_EMB_CTRL (ffs s Pg.emb Reg.EMB_EMB_CTRL [(Fld.EMB_EMB_CTRL_CFG_LOCK, 1)]) = true ∧
    (let t := after (.cfgLock 1) s; t.fld Pg.emb Fld.EMB_EMB_CTRL_CFG_LOCK = 1 ∧ takes s 1 Pg.emb Reg.EMB_TAMPER1_CFG (withFlds 0 [(Fld.EMB_TAMPER0_CFG_FILTER_MS, 1)]) = true ∧ takes t 1 Pg.emb Reg.EMB_TAMPER1_CFG (withFlds 0 [(Fld.EMB_TAMPER0_CFG_FILTER_MS, 1)]) = false) ∧
    takes { s with keys.kek := none } 1 Pg.emb Reg.EMB_KEK_CTRL (v Fld.EMB_KEK_CTRL_INSTALL) = true ∧ takes s 1 Pg.emb Reg.EMB_KEK_CTRL (v Fld.EMB_KEK_CTRL_INSTALL) = false ∧
    (let t := after (.install 1) { s with keys.kek := none, ember := { kekw := [(7, 0xABCD0123)] } }; (t.keys.kek).map (fun k => k.extractLsb' 224 32) = some 0xABCD0123 ∧ evts t = [0x01000000, 0x05000000]) ∧
    takes s 1 Pg.emb Reg.EMB_KEK_CTRL (v Fld.EMB_KEK_CTRL_ZEROISE) = true ∧
    takes s 1 Pg.key Reg.KEY_EMB_ALARM_ACK (ffs s Pg.key Reg.KEY_EMB_ALARM_ACK [(Fld.KEY_EMB_ALARM_ACK_ACK, 1)]) = true ∧ evts (after (.alarmAck 1) s) = [0x01000000, 0x06000000] := by decide +kernel

/-! ### Faults and admission (statement of chapter 18) -/

def pairSt (p : Pairs) : State := { locked Pg.alm ringSt with pairs := p }
theorem test_pairs : (let t := after (.lockstepMismatch 0) (pairSt {}); t.pairs.active = 1 ∧ t.pairs.takeover = true ∧ t.pairs.out = [0] ∧ t.managerRuns = false ∧ t.fld Pg.mbx Fld.MBX_MBX_INFO_PAIR = 1 ∧
      (let u := after .takeoverResume t; u.managerRuns = true ∧ u.pairs.takeover = false)) ∧
    (let t := after (.lockstepMismatch 0) (pairSt { out := [1] }); t.noPair = true ∧ t.fld Pg.mbx Fld.MBX_MBX_INFO_FW_RUN = 0) ∧
    (after (.lockstepMismatch 1) (pairSt {})).pairs.out = [1] ∧
    (let t := after (.lockstepMismatch 1) (pairSt { quar := [1], cmd := some (2, 3, 1, 0) }); t.pairs.quar = [] ∧ t.fld Pg.alm Fld.ALM_ADMIT_STAT_RESULT = 2) ∧
    (after (.checkpoint 9) (pairSt {})).pairs.checkpoint = 9 ∧ (after (.checkpoint 9) (pairSt { takeover := true })).pairs.checkpoint = 0 := by decide +kernel
def admV (op kind st sub : Nat) : Word := withFlds (BitVec.ofNat 32 (kind * 2 ^ 24 + st * 2 ^ 8 + sub)) [(Fld.ALM_ADMIT_CTRL_START, 1), (Fld.ALM_ADMIT_CTRL_OP, op)]
/-- START of an operation is taken, and what it leaves. -/
def adm (c : Agent → Word → Instr) (op kind st sub : Nat) (s : State) : Bool × State :=
  (takes s 1 Pg.alm Reg.ALM_ADMIT_CTRL (admV op kind st sub), after (c 1 (admV op kind st sub)) s)
def admStat (s : State) : Nat × Nat × Nat := (s.fld Pg.alm Fld.ALM_ADMIT_STAT_BUSY, s.fld Pg.alm Fld.ALM_ADMIT_STAT_STATE, s.fld Pg.alm Fld.ALM_ADMIT_STAT_RESULT)
theorem test_out : (let r := adm .admitOut 1 1 5 0 (pairSt {}); r.1 = true ∧ (pairSt {}).maySnuff 5 0 = true ∧ r.2.ifState 5 0 = 3 ∧ admStat r.2 = (1, 3, 0)) ∧
    (let r := adm .admitOut 1 2 63 15 (pairSt {}); r.1 = true ∧ r.2.segFailed 63 15 = true ∧ admStat r.2 = (0, 1, 1)) ∧
    (let r := adm .admitOut 1 3 1 0 (pairSt {}); r.1 = true ∧ r.2.pairs.out = [1] ∧ admStat r.2 = (0, 1, 1)) := by decide +kernel
def failedSeg (p : Pairs) : State := flds [(Pg.stop 63, Fld.STOP_SEG_FAIL_SEG, 0x8000)] (pairSt p)
theorem test_quarantine : (let r := adm .quarantine 2 1 5 0 ((pairSt {}).setIfState 5 0 4); r.1 = true ∧ r.2.ifState 5 0 = 6 ∧ admStat r.2 = (0, 2, 1)) ∧
    (let r := adm .quarantine 2 2 63 15 (failedSeg {}); r.1 = true ∧ r.2.pairs.segQuar = [(63, 15)] ∧ admStat r.2 = (1, 1, 0)) ∧
    (let r := adm .quarantine 2 3 1 0 (pairSt { out := [1] }); r.1 = true ∧ r.2.pairs.quar = [1]) ∧
    admStat (after (.quarantineEnd true) (failedSeg { segQuar := [(63, 15)], cmd := some (2, 2, 63, 15) })) = (0, 2, 1) ∧
    (let t := after (.quarantineEnd false) (failedSeg { segQuar := [(63, 15)], cmd := some (2, 2, 63, 15) }); admStat t = (0, 1, 2) ∧ t.pairs.segQuar = []) ∧
    (after (.quarantineEnd false) (pairSt { quar := [1], cmd := some (2, 3, 1, 0) })).pairs.quar = [] := by decide +kernel
theorem test_readmit : (let s := (pairSt {}).setIfState 5 0 6
      let r := adm .readmit 3 1 5 0 s
      s.service 1 5 0 = 2 ∧ s.fieldTests 5 0 = false ∧ r.1 = true ∧ r.2.ifState 5 0 = 1 ∧ mget r.2.pairs.ramps (ifKey 5 0) = some 6 ∧ admStat r.2 = (0, 3, 1)) ∧
    (let r := adm .readmit 3 2 63 15 (failedSeg { segQuar := [(63, 15)] }); r.1 = true ∧ r.2.pairs.held = [63] ∧ r.2.pairs.owed.length = 64 ∧ admStat r.2 = (1, 2, 0)) ∧
    (let r := adm .readmit 3 3 1 0 (pairSt { out := [1], quar := [1] }); r.1 = true ∧ r.2.pairs.out = [] ∧ admStat r.2 = (0, 3, 1)) := by decide +kernel
/-- The notice reaches STOP07; STOP07 and then the last attachment point switch back. -/
theorem test_route_restore : let c : Option (Nat × Nat × Nat × Nat) := some (3, 2, 63, 15)
    (let s := failedSeg { segQuar := [(63, 15)], held := [63], owed := [7, 63], cmd := c }
     s.admitSeg = some (63, 15) ∧ (after (.admitNotice 7 63 15) s).pairs.held = [7, 63] ∧ (after (.routeRestore 7 63 15) s).pairs.owed = [7, 63]) ∧
    (let s := failedSeg { held := [7, 63], owed := [7, 63], cmd := c }; s.flowsEnded 7 = true ∧ (after (.routeRestore 7 63 15) s).pairs.owed = [63]) ∧
    (let t := after (.routeRestore 63 63 15) (failedSeg { segQuar := [(63, 15)], held := [63], owed := [63], cmd := c }); t.segFailed 63 15 = false ∧ admStat t = (0, 3, 1) ∧ t.pairs.segQuar = []) := by decide +kernel
theorem test_ramps_and_queue : (after .rampStep (pairSt { ramps := [(0, 1), (20, 6)] })).pairs.ramps = [(20, 5)] ∧
    (let s : State := { pairSt {} with alarms := [⟨2, 3, 4, 5⟩, ⟨6, 7, 8, 9⟩] }
     takes s 1 Pg.alm Reg.ALM_Q_STAT (ffs s Pg.alm Reg.ALM_Q_STAT [(Fld.ALM_Q_STAT_POP, 1)]) = true ∧ (after (.alarmQueuePop 1) s).alarms.map AlarmRec.code = [6]) ∧
    (after .holdoffEnd (flds [(Pg.alm, Fld.ALM_GUAR_STAT_HOLDOFF, 1)] (pairSt {}))).fld Pg.alm Fld.ALM_GUAR_STAT_HOLDOFF = 0 := by decide +kernel
/-- FAULT_N: low until self-test has passed, low while an enabled alarm stands, else high. -/
theorem test_fault_pin : let s : State := { pairSt {} with boot := { bistDone := true } }
    let alarm := (s.setReg Pg.alm Reg.ALM_ALM_SUM 0x8).setReg Pg.alm Reg.ALM_FAULT_EN
    s.pinTest = false ∧ s.faultN = true ∧ (pairSt {}).faultN = false ∧ (alarm 0x8).faultN = false ∧ (alarm 0x4).faultN = true ∧
      { s with boot := { held := 2, bistDone := true } }.faultN = false ∧ (flds [(Pg.clkRef, Fld.REF_LOSS_STAT_SAFE, 1)] s).faultN = false := by decide +kernel
/-- A paced interface waits half as long after a step of its ramp. -/
theorem test_ramp_paced : let t := after .rampStep { pairSt { ramps := [(0, 3), (20, 1)] } with rings.paced := [(1, 7), (160, 1)] }
    t.pairs.ramps = [(0, 2)] ∧ t.rings.paced = [(1, 3)] := by decide +kernel

/-! ### The register window (statements of chapters 00 and 19) -/

/-- The example of chapter 00: STOP17's page; a refused write to its PG_LOCK-held register is recorded there. -/
theorem test_page : Pg.stop 17 = 0x111 ∧ Reg.PG_PG_REFUSE = 0x01C ∧ user.page 0x111 = some (.stop, 17) ∧ user.page 0x7F = none ∧ user.reaches 3 0x111 = true ∧ State.reset.reaches 3 0x111 = false := by decide +kernel
/-- R471: the reasons, on STOP17's WIN_BASE7 (an RWL register). -/
def reason (a : Nat) (off be : Nat) (s : State) : Option Nat := s.writeReason a 0x111 off be 100
theorem test_reasons : reason 1 (Reg.STOP_WIN_BASE 7) 0xF user = some rLOCK ∧ reason 1 (Reg.STOP_WIN_BASE 7) 0xF (locked 0x111 user) = none ∧ reason 3 (Reg.STOP_WIN_BASE 7) 0xF (locked 0x111 user) = some rLOCK ∧
    reason 1 (Reg.STOP_WIN_BASE 7) 0x7 (locked 0x111 user) = some rSIZE ∧ reason 1 0xFFC 0xF (locked 0x111 user) = some rOFFSET ∧ reason 2 (Reg.STOP_WIN_BASE 7) 0xF user = none ∧
    (let s := flds [(Pg.host, ⟨Reg.HOST_PATH_WR, 0, 32⟩, 0)] user; s.pathWr 3 = false ∧ reason 3 (Reg.STOP_WIN_BASE 7) 0xF s = some rPATH) ∧
    (let t := after (.registerWrite 1 0x111 0x044 0xF 0) user; t.fld 0x111 Fld.PG_PG_REFUSE_VALID = 1 ∧ t.fld 0x111 Fld.PG_PG_REFUSE_OFFSET = 0x044 ∧ t.fld 0x111 Fld.PG_PG_EVT_REFUSED = 1) := by decide +kernel
/-- A register without an effect of its own, on page FABXNG of die 0 or the like, stores what it may. -/
theorem test_stored : user.page Pg.thm = some (.thm, 0) ∧ PageKind.thm ∈ plainPages ∧ takes (locked Pg.thm user) 1 Pg.thm Reg.THM_THR_CTRL 0x0005095A = true ∧ (regAt .thm 0 Reg.THM_THR_CTRL).isSome = true ∧
    (after (.registerWrite 1 (BitVec.ofNat 13 Pg.thm) (BitVec.ofNat 12 Reg.THM_THR_CTRL) 0xF 0x0005095A) (locked Pg.thm user)).reg Pg.thm Reg.THM_THR_CTRL = 0x0005095A := by decide +kernel
/-- The lock of STOP17: free, taken; BROKEN stays until CLR_BROKEN or RELEASE (the example of R473). -/
theorem test_lock : takes user 1 0x111 Reg.PG_PG_LOCK 1 = true ∧ (let t := after (.acquire 1 0x111) user; t.fld 0x111 Fld.PG_PG_LOCK_HELD = 1 ∧ t.fld 0x111 Fld.PG_PG_LOCK_OWNER = 1) ∧
    takes (locked 0x111 user) 3 0x111 Reg.PG_PG_LOCK 1 = false ∧ takes (locked 0x111 user) 1 0x111 Reg.PG_PG_LOCK 2 = true ∧ (after (.release 1 0x111) (locked 0x111 user)).fld 0x111 Fld.PG_PG_LOCK_HELD = 0 ∧
    (let s := flds [(0x111, Fld.PG_PG_LOCK_BROKEN, 1)] user
     (let t := after (.acquire 1 0x111) s; t.fld 0x111 Fld.PG_PG_LOCK_BROKEN = 1 ∧ takes t 1 0x111 Reg.PG_PG_LOCK 3 = true ∧
      (let u := after (.clrBroken 1 0x111) t; u.fld 0x111 Fld.PG_PG_LOCK_BROKEN = 0 ∧ u.fld 0x111 Fld.PG_PG_LOCK_HELD = 1))) := by decide +kernel
/-- A LO register and its HI (R469); the counters of a page. -/
theorem test_lo_hi : let pg := Pg.emb
    let off := (loRegs .emb).head!
    user.page pg = some (.emb, 0) ∧ (loRegs .emb).isEmpty = false ∧ off % 4 = 0 ∧ (regAt .emb 0 off).isSome = true ∧ (regAt .emb 0 (off + 4)).isSome = true ∧ mget user.hiRec (hiKey 1 pg off) = none ∧ user.pathRd 1 = true ∧
    (after (.loRegisterRead 1 (BitVec.ofNat 13 pg) (BitVec.ofNat 12 off)) user).hiRec.length = 1 ∧
    takes user 1 0x111 Reg.PG_TRB_CLR 1 = true ∧ (after (.trbClr 1 0x111) (flds [(0x111, Fld.PG_TRB_CNT 7, 9)] user)).fld 0x111 (Fld.PG_TRB_CNT 7) = 0 := by decide +kernel
theorem test_soft_reset : let s := flds [(Pg.lan 23, Fld.LAN_LAN_STAT_PWR, 1), (Pg.engCtl 95, Fld.ENG_STATUS_STATE, 2), (Pg.fabCtl 7, Fld.FABCTL_DIE_STAT_PWR_STATE, 3), (Pg.lane 191, Fld.LN_STAT_STATE, 3)] (locked (Pg.lane 191) (locked (Pg.engCtl 95) user))
    takes s 1 (Pg.engCtl 95) Reg.PG_PG_CTRL 3 = true ∧ s.lanOn 23 = true ∧ s.engState 95 ≠ 4 ∧ (after (.softReset 1 (BitVec.ofNat 13 (Pg.engCtl 95))) s).engState 95 = 1 ∧
    takes s 1 (Pg.lane 191) Reg.PG_PG_CTRL 3 = true ∧ (let t := after (.softReset 1 (BitVec.ofNat 13 (Pg.lane 191))) { s with lanes := mput s.lanes 191 { inject := true } }; (t.lane 191).inject = false ∧ t.laneState 191 = 1) := by decide +kernel
theorem test_access_timeout : (after (.pageAccessTimeout 3 0x111) user).fld Pg.i2ct Fld.I2CT_I2C_STAT_RESULT = 2 ∧ (after (.pageAccessTimeout 4 0x111) user).mgmt.usbRes = 2 ∧
    (after (.pageAccessTimeout 5 0x111) user).mgmt.jtagStat = 3 := by decide +kernel
/-- What reset leaves (R12), where the tables give a value. -/
theorem test_reset : State.reset.pending = [] ∧ State.reset.reg Pg.thm Reg.THM_THR_CTRL = 0x00080364 ∧ State.reset.reg (cbPage 135) (cbBase 135 + Reg.CB_REF) = 0x801 ∧ State.reset.fld (Pg.stop 63) Fld.PG_PG_CTRL_ENABLE = 1 ∧
    (match step State.reset with | .next t => t.ns | _ => 0) = 1 := by decide +kernel

/-! ### I2C, USB, JTAG (statement of chapter 19) -/

def head (s : State) : Option Emit := s.out.head?
def status12 (s : State) : List Byte := toBytes 4 (s.reg Pg.dev0 Reg.DEV0_PART_ID) ++ toBytes 4 (s.reg Pg.cfg Reg.CFG_CFG_STAT) ++ toBytes 4 (s.reg Pg.cfg Reg.CFG_LOAD_ERR)
/-- The PEC of R475: the check value of this CRC over "123456789". -/
theorem test_pec : pec [0x31, 0x32, 0x33, 0x34, 0x35, 0x36, 0x37, 0x38, 0x39] = 0xF4 := by decide +kernel
/-- PART_ID (page 0, offset 0x080) read; a write of STOP17's lock register; a wrong PEC; before user enable, and with reserved offset bits, NACK. -/
theorem test_i2c : user.userOn = true ∧ user.fld Pg.i2ct Fld.I2CT_I2C_CTRL_ADDR = 0x5A ∧ State.reset.userOn = false ∧
    head (after (.i2cRead 0x80) State.reset) = some .i2cNack ∧ head (after (.i2cRead 0x02000080) user) = some .i2cNack ∧ head (after (.i2cWrite 0x81 0 0) user) = some .i2cNack ∧
    (let b := toBytes 4 (user.winRead 3 0 0x80).1
     head (after (.i2cRead 0x80) user) = some (.i2c (b ++ [pec ([0xB4, 0x01, 0x00, 0x00, 0x00, 0x80, 0xB5] ++ b)]))) ∧
    (let t := after (.i2cWrite 0x00111018 1 (pec [0xB4, 0x02, 0x00, 0x11, 0x10, 0x18, 0x01, 0x00, 0x00, 0x00])) user; t.fld 0x111 Fld.PG_PG_LOCK_OWNER = 3 ∧ t.fld Pg.i2ct Fld.I2CT_I2C_STAT_RESULT = 0) ∧
    (let t := after (.i2cWrite 0x00111018 1 0) user; t.fld 0x111 Fld.PG_PG_LOCK_HELD = 0 ∧ t.fld Pg.i2ct Fld.I2CT_I2C_STAT_RESULT = 3) ∧
    head (after .i2cStatus State.reset) = some (.i2c (status12 State.reset ++ [pec ([0xB4, 0x03, 0xB5] ++ status12 State.reset)])) ∧ head (after .i2cResult user) = some (.i2c [0, pec [0xB4, 0x04, 0xB5, 0]]) := by decide +kernel
theorem test_i2c_timeout : let s := flds [(0x111, Fld.PG_PG_LOCK_HELD, 1), (0x111, Fld.PG_PG_LOCK_OWNER, 3), (Pg.mbx, Fld.MBX_CH_STAT_STATE 7, 4), (Pg.mbx, Fld.MBX_CH_STAT_OWNER 7, 3)] user
    let t := after .i2cBusTimeout s
    t.fld 0x111 Fld.PG_PG_LOCK_HELD = 0 ∧ t.fld 0x111 Fld.PG_PG_LOCK_BROKEN = 1 ∧ t.chState 7 = 0 ∧ t.fld Pg.i2ct (Fld.PG_TRB_CNT 2) = 1 := by decide +kernel
def usbIn (st : Nat) : State := flds [(Pg.usbd, Fld.USBD_USB_STAT_STATE, st)] user
theorem test_usb : (let s : State := { usbIn 0 with boot := { refsUp := true } }; s.bit Pg.usbd Fld.USBD_USB_CTRL_ATTACH = true ∧ (after .usbAttach s).fld Pg.usbd Fld.USBD_USB_STAT_STATE = 1) ∧
    (let t := after (.readReg 0x0080 0 4) (usbIn 3); head t = some (.usb (toBytes 4 (user.winRead 4 0 0x80).1))) ∧
    (match head (after (.readReg 0x0080 0 64) (usbIn 3)) with | some (.usb l) => l.length | _ => 0) = 64 ∧
    (let t := after (.writeReg 0x1018 0x11 4 [1]) (usbIn 3); t.fld 0x111 Fld.PG_PG_LOCK_OWNER = 4 ∧ t.mgmt.usbRes = 0 ∧ t.mgmt.usbWords = 1) ∧
    (after (.writeReg 0x1018 0x11 8 [1]) (usbIn 3)).fld Pg.usbd (Fld.PG_TRB_CNT 1) = 1 ∧
    ([Instr.readReg 0x0082 0 4, .readReg 0 512 4, .readReg 0 0 0, .readReg 0 0 68, .readReg 0 0 6, .usbStatus 1 0 12, .usbResult 1 0 4].all fun i => head (after i (usbIn 3)) == some .usbStall) = true ∧
    head (after (.usbStatus 0 0 12) (usbIn 3)) = some (.usb (status12 user)) ∧ head (after (.usbResult 0 0 4) (usbIn 3)) = some (.usb [0, 0, 0, 0]) ∧
    (after (.usbStandardRequest (.setAddress 127)) (usbIn 1)).mgmt.usbAddr = 127 ∧ (after (.usbStandardRequest (.setAddress 127)) (usbIn 1)).fld Pg.usbd Fld.USBD_USB_STAT_STATE = 2 ∧
    (let t := after (.usbBusReset true false) (usbIn 3); t.fld Pg.usbd Fld.USBD_USB_STAT_STATE = 1 ∧ t.fld Pg.usbd Fld.USBD_USB_STAT_HS = 1 ∧ t.fld Pg.usbd (Fld.PG_TRB_CNT 0) = 1) ∧
    (after (.usbBusReset true true) (usbIn 3)).fld Pg.usbd Fld.USBD_USB_STAT_STATE = 0 ∧ (after .usbTransferTimeout (usbIn 3)).fld Pg.usbd (Fld.PG_TRB_CNT 1) = 1 := by decide +kernel
def tapIn (b : Byte) : State := { flds [(Pg.jtg, Fld.JTG_JTG_CTRL_WIN_EN, 1)] user with mgmt.tap := b }
theorem test_tap : (after .winacc (tapIn 1)).mgmt.tap = 0x10 ∧ (after .highz (tapIn 3)).mgmt.tap = 7 ∧ (after .highz (tapIn 3)).fld Pg.rst Fld.RST_RST_CAUSE_LAST = 1 ∧
    (let t := after .probe (tapIn 7); t.mgmt.tap = 8 ∧ t.fld Pg.rst Fld.RST_RST_CAUSE_LAST = 3) ∧ (after .testLogicReset (tapIn 0x10)).mgmt.tap = 1 ∧
    (let t := after (.winaccRead 0x0000080) (tapIn 0x10); t.mgmt.jtagStat = 0 ∧ t.mgmt.jtagData = (user.winRead 5 0 0x80).1) ∧ (after (.winaccRead 0x82) (tapIn 0x10)).mgmt.jtagStat = 2 ∧
    (let t := after (.winaccWrite 0x0111018 1) (tapIn 0x10); t.mgmt.jtagStat = 0 ∧ t.fld 0x111 Fld.PG_PG_LOCK_OWNER = 5) ∧ (after (.winaccWrite 0x0111FFC 1) (tapIn 0x10)).mgmt.jtagStat = 2 := by decide +kernel
/-- A scan captures a pin and loads the cells that drive; a cell of REF_A only observes; nothing moves while a flit travels. -/
theorem test_boundary_scan : let levels : List (BPin × Bool) := [(.gpioIn 3 47, true), (.refA, true)]
    let load : List (BPin × Bool) := [(.gpioOut 3 47, true), (.refA, true)]
    let busy : State := { tapIn 3 with rings.flits := [⟨.req 0, 0, .req, 0, 0, 1, 0, [0], none, false⟩] }
    (let t := (tapIn 2).bsrScan levels load; t.mgmt.bsrIn = levels ∧ t.mgmt.bsr = [(.gpioOut 3 47, true)]) ∧
    (after .samplePreload (tapIn 1)).mgmt.tap = 2 ∧ (after .extest (tapIn 1)).mgmt.tap = 3 ∧ (after .extestPulse (tapIn 3)).mgmt.tap = 4 ∧
    (after .extestTrain (tapIn 3)).mgmt.tap = 5 ∧ (after .samplePreload (tapIn 3)).fld Pg.rst Fld.RST_RST_CAUSE_LAST = 3 ∧
    (let t := after .extest busy; t.mgmt.bsr = [] ∧ t.mgmt.bsrIn = []) ∧ BPin.observeOnly .refA = true := by decide +kernel
/-- IDCODE is in force and the identification register is shifted out. -/
theorem test_idcode : (match (after .idcode (tapIn 1)).out with | .tapOut _ :: _ => (after .idcode (tapIn 1)).mgmt.tap == 1 | _ => false) = true := by decide +kernel

/-! ### Mailbox, tests, pins (statement of chapters 19 to 21) -/

/-- Channel 7 of agent 1 in a state, with a request. -/
def chan (st : Nat) (q : Option MbxReq) (l : List (Nat × Fld × Nat)) : State :=
  let s := flds ([(Pg.mbx, Fld.MBX_CH_STAT_STATE 7, st), (Pg.mbx, Fld.MBX_CH_STAT_OWNER 7, if st = 0 then 0 else 1)] ++ l) user
  match q with | some q => { s with mbx := mput s.mbx 7 q } | none => s
def rsp (s : State) : Nat × Nat × Nat := (s.chState 7, s.fld Pg.mbx (Fld.MBX_CH_RSP_STATUS 7), s.fld Pg.mbx (Fld.MBX_CH_RSP_LEN 7))
def mq (svc : Nat) (data : List Byte) : MbxReq := ⟨svc, data.length, data, 1, false⟩
theorem test_channel : takes (chan 0 none []) 1 Pg.mbx (Reg.MBX_CH_CTRL 7) 1 = true ∧ (let t := after (.channelClaim 1 7) (chan 0 none []); t.chState 7 = 1 ∧ t.chOwner 7 = 1) ∧
    takes (chan 1 none []) 1 Pg.mbx (Reg.MBX_CH_CTRL 7) 2 = true ∧ (after (.go 1 7) (chan 1 none [])).chState 7 = 2 ∧
    takes (chan 1 none [(Pg.mbx, Fld.MBX_MBX_INFO_FW_RUN, 0)]) 1 Pg.mbx (Reg.MBX_CH_CTRL 7) 2 = true ∧ rsp (after (.go 1 7) (chan 1 none [(Pg.mbx, Fld.MBX_MBX_INFO_FW_RUN, 0)])) = (4, 4, 0) ∧
    takes (chan 4 none []) 1 Pg.mbx (Reg.MBX_CH_CTRL 7) 3 = true ∧ (after (.channelRelease 1 7) (chan 4 none [])).chState 7 = 0 ∧ takes (chan 3 none []) 1 Pg.mbx (Reg.MBX_CH_CTRL 7) 3 = false ∧
    (let s := chan 2 none [(Pg.mbx, Fld.MBX_CH_REQ_SERVICE 7, 2), (Pg.mbx, Fld.MBX_CH_REQ_LEN 7, 2), (Pg.mbx, ⟨Reg.MBX_CH_DATA 7 0, 0, 32⟩, 0x0111)]
     s.mbxServes = true ∧ (let t := after (.mailboxRequestTaken 7) s; t.chState 7 = 3 ∧ mget t.mbx 7 = some (mq 2 [0x11, 0x01]))) := by decide +kernel
theorem test_services : (let t := after (.mailboxResponse 7 6 [0xAB]) (chan 3 (some (mq 0x1234 [])) []); rsp t = (4, 6, 1) ∧ byteOf (t.reg Pg.mbx (Reg.MBX_CH_DATA 7 0)) 0 = 0xAB ∧ (t.reg Pg.mbx Reg.PG_PG_EVT).getLsbD 7 = true) ∧
    (after (.mailboxResponse 7 0 []) (chan 1 (some { mq 0 [] with orphan := true }) [])).chState 7 = 1 ∧
    (let t := after (.getVersion 7) (chan 3 (some (mq 1 [])) [(Pg.mbx, Fld.MBX_MBX_INFO_VERSION, 0x0105)]); rsp t = (4, 0, 8) ∧ t.reg Pg.mbx (Reg.MBX_CH_DATA 7 0) = 0x0105) ∧ rsp (after (.getVersion 7) (chan 3 (some (mq 1 [0])) [])) = (4, 2, 0) ∧
    rsp (after (.breakLock 7) (chan 3 (some (mq 2 [0x7F, 0x00])) [])) = (4, 2, 0) ∧
    (let l := [(0x111, Fld.PG_PG_LOCK_HELD, 1), (0x111, Fld.PG_PG_LOCK_OWNER, 3)]
     (let t := after (.breakLock 7) (chan 3 (some (mq 2 [0x11, 0x01])) l); rsp t = (4, 0, 0) ∧ t.fld 0x111 Fld.PG_PG_LOCK_HELD = 0 ∧ t.fld 0x111 Fld.PG_PG_LOCK_BROKEN = 1) ∧
     (let t := after (.breakLock 7) (chan 3 (some { mq 2 [0x11, 0x01] with agent := 3 }) ((Pg.host, ⟨Reg.HOST_PATH_WR, 0, 32⟩, 0) :: l)); rsp t = (4, 3, 0) ∧ t.fld 0x111 Fld.PG_PG_LOCK_HELD = 1)) := by decide +kernel
/-- NV_SYS_WRITE at the two ends of the remap records and beside them. -/
def nvReq (off : BitVec 32) : List Byte := toBytes 4 off ++ List.replicate 64 0x5A
theorem test_nv_sys_write : let r (off : BitVec 32) (ok : Bool) := after (.nvSysWrite 7 ok) (chan 3 (some (mq 3 (nvReq off))) [])
    rsp (r 0x1FF40000 true) = (4, 0, 0) ∧ rsp (r 0x1FF7FFC0 true) = (4, 0, 0) ∧ ((r 0x1FF7FFC0 true).nvBlock (0x1FF7FFC0 / 64)).data.toNat % 256 = 0x5A ∧ rsp (r 0x1FF3FFC0 true) = (4, 3, 0) ∧ rsp (r 0x1FF80000 true) = (4, 3, 0) ∧
    rsp (r 0x1FF40020 true) = (4, 2, 0) ∧ rsp (r 0x1FF40000 false) = (4, 6, 0) ∧ (r 0x1FF40000 false).fld Pg.nvs (Fld.PG_TRB_CNT 2) = 1 := by decide +kernel
theorem test_mailbox_timeout : let t := after (.mailboxTimeout 7) (chan 3 (some (mq 9 [])) []); rsp t = (4, 5, 0) ∧ (mget t.mbx 7).map MbxReq.orphan = some true ∧ t.fld Pg.mbx (Fld.PG_TRB_CNT 0) = 1 := by decide +kernel
/-- A field test of quad 47: started, passed, failed with a logic mismatch. -/
def fbV : Word := withFlds (BitVec.ofNat 32 (3 * 2 ^ 24 + 47)) [(Fld.BIST_FB_CTRL_START, 1)]
theorem test_field_bist : takes (locked Pg.bist dom) 1 Pg.bist Reg.BIST_FB_CTRL fbV = true ∧
    (let t := after (.fieldBist 1 fbV) (locked Pg.bist dom); t.bist.field = some (3, 47) ∧ t.fld Pg.bist Fld.BIST_FB_STAT_BUSY = 1) ∧
    (let s : State := { dom with bist.field := some (3, 47) }
     (after (.fieldBistEnd [] none) s).fld Pg.bist Fld.BIST_FB_STAT_RESULT = 1 ∧ (after (.fieldBistEnd [] (some 5)) s).fld Pg.bist Fld.BIST_FB_STAT_RESULT = 3 ∧
     (after (.fieldBistEnd [] (some 5)) s).fld Pg.bist Fld.BIST_LB_LAST_PART = 5) := by decide +kernel
/-- The record of chapter 20's example and the entry that a COMMIT stages from it. -/
theorem test_record : recordEntry 0x182004D202050168 = 0x102004D280000016 ∧ recordUnit 1 2 = .die 2 ∧ repValid (recordEntry 0x182004D202050168) = true := by decide +kernel
theorem test_atb_and_gpio : takes (locked Pg.atb user) 1 Pg.atb Reg.ATB_ATB1_SEL 0x1CF = true ∧ takes (locked Pg.atb user) 1 Pg.atb Reg.ATB_ATB1_SEL 0x1D0 = false ∧
    (let t := after (.atbSelect 1 true 0x1CF) (locked Pg.atb user); t.mgmt.atbEnd = 1000 ∧ t.reg Pg.atb Reg.ATB_ATB1_SEL = 0x1CF) ∧
    (let t := after (.gpioInputEdge 11 47 true) user; (mgetD 0 t.mgmt.gpio 11).getLsbD 47 = true ∧ (mgetD 0 t.mgmt.gpio 11).getLsbD 46 = false) ∧ user.clk.failed = false := by decide +kernel

end Sys2Proof.Tests
end

section
/-!
PROOFS of chapter 06: the ring of a flow, the segments that it crosses and the ring of its answer (R151).
-/
namespace Sys2Proof.RingRoute
open Sys2Proof Sys2Proof.Machine

/-! ### Counting the segments of a way -/

/-- Where `f` numbers the elements of `range n` and `g` finds the element of a number, `m` elements have a number below `m`. -/
theorem length_filter_range_lt {n m : Nat} (f g : Nat → Nat) (hm : m ≤ n)
    (hf : ∀ x < n, g (f x) = x) (hg : ∀ k < n, g k < n ∧ f (g k) = k) :
    ((List.range n).filter fun x => decide (f x < m)).length = m := by
  have hbij : ((Finset.range n).filter fun x => f x < m).card = (Finset.range m).card := by
    refine Finset.card_nbij' f g (fun x hx => ?_) (fun k hk => ?_) (fun x hx => ?_) (fun k hk => ?_)
    · simpa using (Finset.mem_filter.mp hx).2
    · have hkm : k < m := Finset.mem_range.mp hk
      obtain ⟨hlt, hfg⟩ := hg k (hkm.trans_le hm)
      simp [hlt, hfg, hkm]
    · exact hf x (Finset.mem_range.mp (Finset.mem_filter.mp hx).1)
    · exact (hg k ((Finset.mem_range.mp hk).trans_le hm)).2
  rw [← Nat.count_eq_card_filter_range, Finset.card_range] at hbij
  rw [← List.countP_eq_length_filter]
  exact hbij

/-- On an even ring the segments of the way leave `a`, `a + 1` and so on: one for each step up from `a` to `b`. -/
theorem length_crosses_clockwise {a b r : Nat} (ha : a < 64) (hr : r % 2 = 0) :
    ((List.range 64).filter fun x => crosses a b r x).length = (b + 64 - a) % 64 := by
  simp only [crosses, hr, if_true]
  refine length_filter_range_lt (fun x => (x + 64 - a) % 64) (fun k => (a + k) % 64) ?_ ?_ ?_ <;> omega

/-- On an odd ring the segments of the way leave `a`, `a - 1` and so on: one for each step down from `a` to `b`. -/
theorem length_crosses_counterClockwise {a b r : Nat} (ha : a < 64) (hr : r % 2 = 1) :
    ((List.range 64).filter fun x => crosses a b r x).length = (a + 64 - b) % 64 := by
  simp only [crosses, hr, one_ne_zero, if_false]
  refine length_filter_range_lt (fun x => (a + 64 - x) % 64) (fun k => (a + 64 - k) % 64) ?_ ?_ ?_ <;> omega

/-! ### The pair and direction of R151 -/

theorem baseRing_pair_lt {a b : Nat} (ha : a < 64) (hb : b < 64) : (baseRing a b).1 < 8 := by
  have hxor {x y : Nat} (hx : x < 8) (hy : y < 8) : x ^^^ y < 8 := Nat.xor_lt_two_pow (n := 3) hx hy
  exact hxor (hxor (hxor (by omega) (by omega)) (by omega)) (by omega)

theorem baseRing_pair_comm (a b : Nat) : (baseRing b a).1 = (baseRing a b).1 := by
  simp only [baseRing]
  ac_rfl

/-- The answer runs in the other direction, half-way round too. -/
theorem baseRing_direction_swap {a b : Nat} (ha : a < 64) (hb : b < 64) (hab : a ≠ b) :
    (baseRing b a).2 = 1 - (baseRing a b).2 := by
  simp only [baseRing]
  split <;> split <;> omega

/-- The ring of R151 is the shorter way. -/
theorem length_crosses_baseRing {a b : Nat} (ha : a < 64) (hb : b < 64) :
    ((List.range 64).filter fun x => crosses a b (2 * (baseRing a b).1 + (baseRing a b).2) x).length =
      min ((b + 64 - a) % 64) (64 - (b + 64 - a) % 64) := by
  by_cases hcw : (b + 64 - a) % 64 < 32 ∨ ((b + 64 - a) % 64 = 32 ∧ a < b)
  · have hdir : (baseRing a b).2 = 0 := if_pos hcw
    rw [length_crosses_clockwise ha (by omega)]
    omega
  · have hdir : (baseRing a b).2 = 1 := if_neg hcw
    rw [length_crosses_counterClockwise ha (by omega)]
    omega

/-! ### The choice of the source -/

/-- A source that knows of no failed segment on the way of R151 takes it (R163): it is the first ring tried. -/
theorem routeIn_eq_baseRing {known : List (Nat × Nat × Nat)} {a b : Nat} (hp : (baseRing a b).1 < 8)
    (hclear : ∀ k ∈ known, k.1 = a → k.2.2 = 2 * (baseRing a b).1 + (baseRing a b).2 →
      crosses a b (2 * (baseRing a b).1 + (baseRing a b).2) k.2.1 = false) :
    routeIn known a b = 2 * (baseRing a b).1 + (baseRing a b).2 := by
  have hfree : (known.any fun k => k.1 == a && k.2.2 == 2 * (baseRing a b).1 + (baseRing a b).2 &&
      crosses a b (2 * (baseRing a b).1 + (baseRing a b).2) k.2.1) = false := by
    simpa using hclear
  simp [routeIn, List.range_succ_eq_map, Nat.mod_eq_of_lt hp, hfree]

/-- Settles O23: the ring of R151 is the first that the source tries, its segments are counted along the way, and the answer has the same pair and the other direction. -/
theorem routeRule : Obligations.RouteRule := by
  unfold Obligations.RouteRule
  intro s a b hab
  have hne : a.val ≠ b.val := Fin.val_ne_of_ne hab
  have hp : (baseRing a b).1 < 8 := baseRing_pair_lt a.isLt b.isLt
  have hpair : (baseRing b a).1 = (baseRing a b).1 := baseRing_pair_comm a b
  have hdir : (baseRing b a).2 = 1 - (baseRing a b).2 := baseRing_direction_swap a.isLt b.isLt hne
  refine ⟨hp, length_crosses_baseRing a.isLt b.isLt, routeIn_eq_baseRing hp, fun hclear => ?_⟩
  have hback := routeIn_eq_baseRing (known := s.rings.known) (a := b) (b := a) (hpair ▸ hp)
  rw [hpair, hdir] at hback
  exact hback hclear

end Sys2Proof.RingRoute
end

section
/-!
PROOFS of chapter 17: SYS_RESET, its key and the lock that it needs (R423).
-/
namespace Sys2Proof.SystemReset
open Sys2Proof Sys2Proof.Machine

/-! ### What start-up leaves of the boot state, the design and the page RST -/

/-- The boot state, the design and the registers of the page RST are the same. -/
def SameReset (s t : State) : Prop :=
  t.boot = s.boot ∧ t.design = s.design ∧ ∀ off < 4096, t.reg Pg.rst off = s.reg Pg.rst off

namespace SameReset

variable {s t u : State}

theorem refl (s : State) : SameReset s s := ⟨rfl, rfl, fun _ _ => rfl⟩

theorem trans (h : SameReset s t) (g : SameReset t u) : SameReset s u := by
  obtain ⟨hboot, hdesign, hreg⟩ := h
  obtain ⟨gboot, gdesign, greg⟩ := g
  exact ⟨gboot.trans hboot, gdesign.trans hdesign, fun off ho => (greg off ho).trans (hreg off ho)⟩

theorem fld (h : SameReset s t) {f : Fld} (ho : f.off < 4096) : t.fld Pg.rst f = s.fld Pg.rst f := by
  obtain ⟨-, -, hreg⟩ := h
  rw [State.fld, State.fld, hreg f.off ho]

/-- A step that each element of a list takes. -/
theorem foldl {α : Type} {f : State → α → State} {l : List α} (hf : ∀ s, ∀ x ∈ l, SameReset s (f s x)) (s : State) :
    SameReset s (l.foldl f s) := by
  induction l generalizing s with
  | nil => exact refl s
  | cons x l ih =>
    exact (hf s x List.mem_cons_self).trans (ih (fun s y hy => hf s y (List.mem_cons_of_mem x hy)) (f s x))

theorem of_eventsOnly {p : Nat → Prop} (h : EventsOnly p s t) (hp : ¬ p Pg.rst) : SameReset s t :=
  ⟨h.boot, h.design, fun _ ho => h.reg ho hp⟩

theorem setReg (s : State) {pg off : Nat} (v : Word) (hp : Pg.rst ≠ pg) (ho : off < 4096) : SameReset s (s.setReg pg off v) :=
  of_eventsOnly (eventsOnly_setReg (· = pg) s pg off v rfl ho) hp

theorem setFld (s : State) {pg : Nat} {f : Fld} (n : Nat) (hp : Pg.rst ≠ pg) (ho : f.off < 4096) : SameReset s (s.setFld pg f n) :=
  setReg s _ hp ho

/-- The lanes show DISABLED: a register of each lane's page. -/
theorem lanesDisabled (s : State) :
    SameReset s ((List.range 192).foldl (fun s l => s.setFld (Pg.lane l) Fld.LN_STAT_STATE 1) s) :=
  foldl (fun s l _ => setFld s 1 (by simp only [Pg.rst, Pg.lane]; omega) (by decide)) s

/-! The NV store (R380, R406) -/

theorem trb_nvs (s : State) {k : Nat} (hk : k < 8) : SameReset s (s.trb Pg.nvs k) :=
  of_eventsOnly (eventsOnly_trb s Pg.nvs hk) (by decide)

theorem trbN_nvs (s : State) {k : Nat} (hk : k < 8) (n : Nat) : SameReset s (s.trbN Pg.nvs k n) := by
  induction n generalizing s with
  | zero => exact refl s
  | succ n ih => exact (trb_nvs s hk).trans (ih _)

theorem nvRead (s : State) (b : Nat) : SameReset s (s.nvRead b).2 := by
  have counted {k : Nat} (hk : k < 8) (quiet : Bool) : SameReset s (if quiet then s else s.trb Pg.nvs k) := by
    cases quiet
    · exact trb_nvs s hk
    · exact refl s
  unfold State.nvRead
  dsimp only
  split
  · exact refl s
  · exact counted (by decide) _
  · exact counted (by decide) _

theorem nvCopy {α : Type} {off : Nat} {f : Line → Option α} {x : Option α} (h : s.nvCopy off f = (x, t)) : SameReset s t := by
  have hread : SameReset s (s.nvCopy off f).2 := nvRead s (off / 64)
  simpa only [h] using hread

theorem showInv (s : State) (l : List Nat) : SameReset s (s.showInv l) := by
  have entry (s : State) {e : Nat} (he : e < 16) (m n : Nat) : SameReset s
      ((s.setFld Pg.nvs (Fld.NVS_INV_SECT_VALID e) m).setFld Pg.nvs (Fld.NVS_INV_SECT_SECTOR e) n) :=
    (setFld s m (by decide) (by simp only [Fld.NVS_INV_SECT_VALID]; omega)).trans
      (setFld _ n (by decide) (by simp only [Fld.NVS_INV_SECT_SECTOR]; omega))
  exact foldl (fun s e he => entry s (List.mem_range.mp he) _ _) s

theorem putInv (s : State) (l : List Nat) : SameReset s (s.putInv l) := by
  unfold State.putInv
  split
  next a sa ha =>
  split
  next b sb hb =>
  have hblock (i : Nat) (x : NvBlock) : SameReset sb (sb.setNvBlock i x) := ⟨rfl, rfl, fun _ _ => rfl⟩
  exact (nvCopy ha).trans <| (nvCopy hb).trans <| (hblock _ _).trans <| showInv _ l

theorem listSector (s : State) (sec : Nat) : SameReset s (s.listSector sec) := by
  unfold State.listSector
  split
  · exact refl s
  · split
    · exact refl s
    · exact (putInv s _).trans (trb_nvs _ (by decide))

/-- Reading the pointer copies and the list changes registers of the NV store's page alone. -/
theorem nvStart (s : State) : SameReset s s.nvStart := by
  unfold State.nvStart
  split
  next a sa ha =>
  split
  next b sb hb =>
  extract_lets sc sd se
  have hc : SameReset sb sc := trbN_nvs sb (by decide) _
  have hd : SameReset sc sd := (setFld sc _ (by decide) (by decide)).trans (setFld _ _ (by decide) (by decide))
  have he : SameReset sd se := by
    unfold se
    split
    · exact (setFld sd _ (by decide) (by decide)).trans (setReg _ _ (by decide) (by decide))
    · exact refl sd
  split
  next x sx hx =>
  split
  next y sy hy =>
  extract_lets sf sg
  have hf : SameReset sy sf := by
    unfold sf
    split
    · exact showInv sy _
    · exact refl sy
  have hg : SameReset sf sg := foldl (fun s sec _ => listSector s sec) sf
  have hend : SameReset sg { sg with ember.aborted := [] } := ⟨rfl, rfl, fun _ _ => rfl⟩
  exact (nvCopy ha).trans <| (nvCopy hb).trans <| hc.trans <| hd.trans <| he.trans <|
    (nvCopy hx).trans <| (nvCopy hy).trans <| hf.trans <| hg.trans hend

/-- Start-up after a reset that was no cold one notes its time. -/
theorem startUp (hlast : s.fld Pg.rst Fld.RST_RST_CAUSE_LAST ≠ 1) : SameReset { s with boot.t0 := s.ns } s.startUp := by
  unfold State.startUp
  extract_lets boot sa sb sc
  have hlanes : SameReset sa sb := lanesDisabled sa
  have hsc : sc = sb := if_neg (by rw [hlanes.fld (by decide)]; exact hlast)
  rw [hsc]
  exact hlanes.trans (nvStart sb)

end SameReset

/-! ### What a system reset leaves (R422, R425) -/

/-- A counted event leaves the fields of the page's block registers. -/
theorem trb_fld_of_block (s : State) {pg k : Nat} {f : Fld} (hk : k < 8) (hp : pg ≠ Pg.hostLnk) (hf : 0x080 ≤ f.off) (ho : f.off < 4096) :
    (s.trb pg k).fld pg f = s.fld pg f := by
  have hcnt : regKey pg f.off ≠ regKey pg (Fld.PG_TRB_CNT k).off := regKey_ne_off (by simp only [Fld.PG_TRB_CNT]; omega)
  have hsat : regKey pg f.off ≠ regKey pg Fld.PG_PG_EVT_TRB_SAT.off := regKey_ne_off (by simp only [Fld.PG_PG_EVT_TRB_SAT]; omega)
  unfold State.trb
  rw [State.evtEdge_fld _ _ _ ho hp]
  unfold State.trbRaw
  dsimp only
  split
  · split
    · rw [State.fld_setFld_ne _ _ hsat, State.fld_setFld_ne _ _ hcnt]
    · rw [State.fld_setFld_ne _ _ hcnt]
  · rfl

/-- A reset but for a cold one notes its kind; the device is not running, has no references and no design. -/
theorem deviceReset_of_ne_cold (s : State) {kind : Nat} (sys held : Nat) (hk : kind < 16) (hcold : kind ≠ 1) :
    let t := s.deviceReset kind sys held
    t.fld Pg.rst Fld.RST_RST_CAUSE_LAST = kind ∧ t.boot.running = none ∧ t.boot.refsUp = false ∧ t.design = {} := by
  unfold State.deviceReset
  extract_lets cold sa integ mgmt boot ember sb sc sd t
  have hc : cold = false := by simpa [cold] using hcold
  have hk8 : (if kind = 2 then 0 else 1) < 8 := by split <;> decide
  have htrb : t = sd.trb Pg.rst (if kind = 2 then 0 else 1) := if_neg (by simp [hc])
  have hevents : EventsOnly (fun q => q = Pg.rst ∨ q = Pg.hostLnk) sd t := htrb ▸ eventsOnly_trb sd Pg.rst hk8
  have hboot : t.boot = boot := hevents.boot
  refine ⟨?_, congrArg Boot.running hboot, congrArg Boot.refsUp hboot, hevents.design⟩
  calc t.fld Pg.rst Fld.RST_RST_CAUSE_LAST
      = sd.fld Pg.rst Fld.RST_RST_CAUSE_LAST := by rw [htrb, trb_fld_of_block sd hk8 (by decide) (by decide) (by decide)]
    _ = sc.fld Pg.rst Fld.RST_RST_CAUSE_LAST := State.fld_setFld_beside sc Pg.rst sys rfl (by decide)
    _ = kind % 2 ^ 4 := State.fld_setFld_self sb Pg.rst Fld.RST_RST_CAUSE_LAST kind (by decide)
    _ = kind := Nat.mod_eq_of_lt hk

theorem systemReset_restarts (s : State) (sys : Nat) :
    let t := s.systemReset sys
    t.fld Pg.rst Fld.RST_RST_CAUSE_LAST = 3 ∧ t.boot.running = none ∧ t.boot.refsUp = false ∧ t.design = {} := by
  obtain ⟨hlast, hrun, hrefs, hdesign⟩ := deviceReset_of_ne_cold s (kind := 3) sys 0 (by decide) (by decide)
  have hstart := SameReset.startUp (s := s.deviceReset 3 sys 0) (by rw [hlast]; decide)
  have hlast' := hstart.fld (f := Fld.RST_RST_CAUSE_LAST) (by decide)
  obtain ⟨hboot, hdesign', -⟩ := hstart
  exact ⟨hlast'.trans hlast, (congrArg Boot.running hboot).trans hrun, (congrArg Boot.refsUp hboot).trans hrefs, hdesign'.trans hdesign⟩

/-! ### When a write of SYS_RESET is accepted (R423, R471) -/

/-- The definition of SYS_RESET in the page map of RST. -/
def sysResetDef : RegDef := ⟨"SYS_RESET", 0x084, 0x0, 1, 0, 1, .W, 0x00000000, false, [⟨0, 16, .wo⟩]⟩

theorem regAt_sysReset : regAt .rst 0 Reg.RST_SYS_RESET = some (sysResetDef, 0) := by decide +kernel

theorem page_rst (s : State) : s.page Pg.rst = some (.rst, 0) :=
  State.page_of pageOf_rst (by decide) (by decide) (by decide)

/-- Outside the key every bit is reserved, so one word alone passes both checks. -/
theorem reserved_zero_and_key_iff (v : Word) : v &&& 0xFFFF0000#32 = 0#32 ∧ fieldOf v 0 16 = 0x5EB0 ↔ v = 0x5EB0 := by
  constructor
  · rintro ⟨hres, hkey⟩
    have hlow : v = v &&& 0xFFFF := by
      calc v = v &&& (0xFFFF ||| 0xFFFF0000#32) := BitVec.and_allOnes.symm
        _ = (v &&& 0xFFFF) ||| (v &&& 0xFFFF0000#32) := BitVec.and_or_distrib_left
        _ = v &&& 0xFFFF := by rw [hres]; exact BitVec.or_zero
    apply BitVec.eq_of_toNat_eq
    calc v.toNat = v.toNat &&& (2 ^ 16 - 1) := congrArg BitVec.toNat hlow
      _ = fieldOf v 0 16 := Nat.and_two_pow_sub_one_eq_mod _ 16
      _ = 0x5EB0 := hkey
  · rintro rfl
    decide

/-- An agent other than the configuration controller holds a lock where the page names it as the holder. -/
theorem holdsLock_iff (s : State) {a : Nat} (pg : Nat) (ha : a ≠ 2) :
    s.holdsLock a pg = true ↔ s.fld pg Fld.PG_PG_LOCK_HELD = 1 ∧ s.fld pg Fld.PG_PG_LOCK_OWNER = a := by
  have hbit : s.fld pg Fld.PG_PG_LOCK_HELD < 2 := fieldOf_lt _ _ _
  simp only [State.holdsLock, State.bit, Bool.or_eq_true, Bool.and_eq_true, beq_iff_eq, bne_iff_ne, ha, false_or]
  have hheld : s.fld pg Fld.PG_PG_LOCK_HELD ≠ 0 ↔ s.fld pg Fld.PG_PG_LOCK_HELD = 1 := by omega
  rw [hheld]

/-- The reasons of a refusal, in the order of Table 19.6: the lock, the reserved bits, the key. -/
theorem writeReason_sysReset (s : State) {a : Nat} (v : Word) (hpath : s.pathWr a = true) :
    s.writeReason a Pg.rst Reg.RST_SYS_RESET 0xF v =
      if s.holdsLock a Pg.rst = false then some rLOCK
      else if v &&& 0xFFFF0000#32 ≠ 0#32 then some rRESERVED
      else if fieldOf v 0 16 ≠ 0x5EB0 then some rRANGE else none := by
  have hro : sysResetDef.bits (· == .ro) = 0 := by decide
  have hknown : ~~~(sysResetDef.known .rst Reg.RST_SYS_RESET) = 0xFFFF0000#32 := by decide
  have hrwl : sysResetDef.has (· == .rwl) = false := by decide
  have hwrite : sysResetDef.has (· != .ro) = true := by decide
  have hlock : s.lockExtra a .rst Pg.rst Reg.RST_SYS_RESET v = !s.holdsLock a Pg.rst := by
    simp [State.lockExtra, Reg.RST_SYS_RESET, Reg.PG_PG_LOCK]
  have hchecks : s.checks a .rst 0 Pg.rst Reg.RST_SYS_RESET v = [(rRANGE, fieldOf v 0 16 != 0x5EB0)] := rfl
  simp only [State.writeReason, hpath, page_rst, regAt_sysReset, hro, hknown, hrwl, hwrite, hlock, hchecks]
  by_cases hl : s.holdsLock a Pg.rst = true
  · by_cases hres : v &&& 0xFFFF0000#32 = 0#32
    · by_cases hkey : fieldOf v 0 16 = 0x5EB0
      · simp [hl, hres, hkey]
      · simp [hl, hres, hkey]
    · simp [hl, hres]
  · simp [hl]

theorem writeReason_sysReset_eq_none_iff (s : State) {a : Nat} (v : Word) (hpath : s.pathWr a = true) :
    s.writeReason a Pg.rst Reg.RST_SYS_RESET 0xF v = none ↔ v = 0x5EB0 ∧ s.holdsLock a Pg.rst = true := by
  rw [writeReason_sysReset s v hpath, ← reserved_zero_and_key_iff]
  split_ifs with hlock hres hkey
  · simp [hlock]
  · simp [hres]
  · simp [hkey]
  · simp_all

theorem writeReason_sysReset_lt (s : State) {a reason : Nat} {v : Word} (hpath : s.pathWr a = true)
    (h : s.writeReason a Pg.rst Reg.RST_SYS_RESET 0xF v = some reason) : reason < 32 := by
  rw [writeReason_sysReset s v hpath] at h
  split_ifs at h <;> cases h <;> decide

/-- SYS_RESET holds nothing: its register is stored as it was, and the device restarts (log 99: in the same step). -/
theorem put_sysReset_accepted {s : State} {a : Nat} {v : Word} (h : Accepts s a Pg.rst Reg.RST_SYS_RESET v) :
    s.put a Pg.rst Reg.RST_SYS_RESET v =
      (s.setReg Pg.rst Reg.RST_SYS_RESET (s.reg Pg.rst Reg.RST_SYS_RESET)).systemReset 1 := by
  have hstore (old : Word) : sysResetDef.store .rst old v = old := rfl
  have heff (u : State) (old : Word) : effAll a .rst 0 Pg.rst Reg.RST_SYS_RESET v old u = u.systemReset 1 := rfl
  rw [State.put_accepted h pageOf_rst regAt_sysReset (by decide) (by decide) (by decide), State.stored, heff, hstore]
  rfl

theorem put_sysReset_refused {s : State} {a : Nat} {v : Word} {reason : Nat} (hreach : s.reaches a Pg.rst = true)
    (h : s.writeReason a Pg.rst Reg.RST_SYS_RESET 0xF v = some reason) :
    s.put a Pg.rst Reg.RST_SYS_RESET v = s.refuse a Pg.rst Reg.RST_SYS_RESET reason := by
  have hoff : Reg.RST_SYS_RESET / 4 * 4 = Reg.RST_SYS_RESET := by decide
  simp only [State.put, State.winWrite, State.winWriteWith, hoff, hreach, Bool.not_true, Bool.false_eq_true, if_false, h, page_rst,
    State.refusedEffect]

/-! ### The record of a refusal (R471) -/

theorem eventsOnly_refuse (s : State) (a pg off reason : Nat) :
    EventsOnly (fun q => q = pg ∨ q = Pg.hostLnk) s (s.refuse a pg off reason) :=
  (eventsOnly_setReg _ s pg Reg.PG_PG_REFUSE _ (.inl rfl) (by decide)).trans (eventsOnly_raise _ pg _ (by decide))

/-- Raising an event leaves the fields of the page's other registers. -/
theorem raise_fld_ne (s : State) {pg : Nat} {e f : Fld} (hp : pg ≠ Pg.hostLnk) (ho : f.off < 4096) (h : regKey pg f.off ≠ regKey pg e.off) :
    (s.raise pg e).fld pg f = s.fld pg f := by
  unfold State.raise
  rw [State.evtEdge_fld _ _ _ ho hp, State.fld_setFld_ne _ _ h]

/-- A refusal leaves the fields of the page's block registers. -/
theorem refuse_fld_of_block (s : State) (a off reason : Nat) {pg : Nat} {f : Fld} (hp : pg ≠ Pg.hostLnk) (hf : 0x080 ≤ f.off) (ho : f.off < 4096) :
    (s.refuse a pg off reason).fld pg f = s.fld pg f := by
  have hevt : regKey pg f.off ≠ regKey pg Fld.PG_PG_EVT_REFUSED.off := regKey_ne_off (by simp only [Fld.PG_PG_EVT_REFUSED]; omega)
  have hrec : regKey pg f.off ≠ regKey pg Reg.PG_PG_REFUSE := regKey_ne_off (by simp only [Reg.PG_PG_REFUSE]; omega)
  unfold State.refuse
  rw [raise_fld_ne _ hp ho hevt, State.fld, State.reg_setReg_ne _ _ hrec, State.fld]

/-- The record names the agent and the offset. -/
theorem refuse_record (s : State) {a pg off reason : Nat} (hp : pg ≠ Pg.hostLnk) (ha : a < 256) (ho : off < 4096) (hr : reason < 32) :
    let t := s.refuse a pg off reason
    t.fld pg Fld.PG_PG_REFUSE_VALID = 1 ∧ t.fld pg Fld.PG_PG_REFUSE_AGENT = a ∧ t.fld pg Fld.PG_PG_REFUSE_OFFSET = off := by
  have hfld (f : Fld) (hf : f.off = Reg.PG_PG_REFUSE) : (s.refuse a pg off reason).fld pg f =
      (2 ^ 31 + reason * 2 ^ 24 + a * 2 ^ 16 + off) / 2 ^ f.lo % 2 ^ f.width := by
    have hevt : regKey pg f.off ≠ regKey pg Fld.PG_PG_EVT_REFUSED.off := regKey_ne_off (by rw [hf]; decide)
    have hword : (2 ^ 31 + reason * 2 ^ 24 + a * 2 ^ 16 + off) % 2 ^ 32 = 2 ^ 31 + reason * 2 ^ 24 + a * 2 ^ 16 + off := by omega
    unfold State.refuse
    rw [raise_fld_ne _ hp (by rw [hf]; decide) hevt, State.fld, hf, State.reg_setReg_self, fieldOf, BitVec.toNat_ofNat,
      Nat.mod_eq_of_lt ha, Nat.mod_eq_of_lt ho, hword, Nat.shiftRight_eq_div_pow]
  refine ⟨?_, ?_, ?_⟩
  · rw [hfld _ rfl]; simp only [Fld.PG_PG_REFUSE_VALID]; omega
  · rw [hfld _ rfl]; simp only [Fld.PG_PG_REFUSE_AGENT]; omega
  · rw [hfld _ rfl]; simp only [Fld.PG_PG_REFUSE_OFFSET]; omega

/-- Settles O53: the write is accepted exactly with the key from the holder, and a system reset runs; otherwise the page records the refusal. -/
theorem systemResetKey : Obligations.SystemResetKey := by
  unfold Obligations.SystemResetKey
  intro a v s ha hreach hpath holder
  have hnone : s.writeReason a.toNat Pg.rst Reg.RST_SYS_RESET 0xF v = none ↔ v = 0x5EB0 ∧ holder := by
    rw [writeReason_sysReset_eq_none_iff s v hpath, holdsLock_iff s Pg.rst ha]
  refine ⟨fun hok => ⟨_, rfl, ?_⟩, fun hbad => ⟨_, rfl, ?_⟩⟩
  · rw [put_sysReset_accepted ⟨hreach, hnone.mpr hok⟩]
    exact systemReset_restarts _ 1
  · obtain ⟨reason, hreason⟩ := Option.ne_none_iff_exists'.mp (mt hnone.mp hbad)
    obtain ⟨honly, -⟩ := eventsOnly_refuse s a.toNat Pg.rst Reg.RST_SYS_RESET reason
    obtain ⟨hvalid, hagent, hoffset⟩ := refuse_record s (pg := Pg.rst) (off := Reg.RST_SYS_RESET) (by decide) a.isLt (by decide)
      (writeReason_sysReset_lt s hpath hreason)
    rw [put_sysReset_refused hreach hreason]
    exact ⟨honly, hvalid, hagent, hoffset, refuse_fld_of_block s _ _ _ (by decide) (by decide) (by decide)⟩

end Sys2Proof.SystemReset
end
